-- ==== Sys2Proof/Word.lean ====
section
/-! DEFINITION. The word types of the TK9 and the two small containers every other file uses: bit vectors of the
register widths (R8) and sparse tables kept as lists of (key, value). -/

namespace Sys2Proof

/-- One byte of memory. -/
abbrev Byte := BitVec 8
/-- A 64-bit word of code, and the width of the i, j, f and e registers (R8, R34). -/
abbrev Word := BitVec 64
/-- An 11-bit field of a syllable: a register number or a literal (R36). -/
abbrev R11 := BitVec 11
/-- A vector register of the V, W, xv and vm files, and a hold latch (R8). -/
abbrev Vec := BitVec 2048

/-- A table with a default entry, kept as a list of (key, value): keys strictly rising, no value equal to the default. -/
abbrev Tab (α : Type) := List (Nat × α)

end Sys2Proof
end

