-- ==== Sys2Proof/Config.lean ====
section
/-! DEFINITION. What this part fixes without the manual stating it, and the free values: constants with no body, so that
nothing can be proved about what they are. -/

namespace Sys2Proof

/-- What a byte of memory that nothing has written reads as. The manual gives no contents at power-on (R207); DESIGN
CHOICE, log 1. -/
def Config.blank : Byte := 0

/-- The fixed function of form, type and input bits that VEXP2 (0), VLOG2 (1), VRCP (2) and VRSQ (3) compute. R135 does not
give it; it is used only where its value lies within the bound the manual sets. Free value, log 5. -/
opaque Config.special : (form ty bits : Nat) → Nat

/-- Values the manual leaves open and bounds in no way, one for each reading of the counter State.free. Free value, log 9. -/
opaque Config.freeValue : Nat → Nat

/-- The tenancy that a fabric peer's KEYMAP binds a pod key to (R377), by module, key and tick; none where the entry is not valid. The
table lies in the peer. Free value, log 40. -/
opaque Config.peerKeymap : (m key tick : Nat) → Option Nat

/-- Spare rows of a pool slice (R338), a number the manual does not give. Free value, log 33. -/
opaque Config.spareRows : Nat

/-- Entries a core, a cluster and a die TLB hold (R218). -/
def Config.coreTlb : Nat := 256
/-- Entries of a cluster's TLB (R218). -/
def Config.clusterTlb : Nat := 4096
/-- Entries of a die's TLB (R218). -/
def Config.dieTlb : Nat := 65536

end Sys2Proof
end

