-- ==== Sys2Proof/Machine/Bits.lean ====
section
/-! DEFINITION. Tables, bit fields, lanes and byte order: the helpers every operation of the machine is written with. -/

namespace Sys2Proof

/-- The entry of a table at a key; the default where no entry stands. -/
def tget {α : Type} : Tab α → α → Nat → α
  | [], d, _ => d
  | (k', v) :: r, d, k => if k' = k then v else tget r d k

/-- A table without the entries at a key. -/
def terase {α : Type} : Tab α → Nat → Tab α
  | [], _ => []
  | (k', v) :: r, k => if k' = k then terase r k else (k', v) :: terase r k

/-- A table with an entry put before the first larger key. -/
def tinsert {α : Type} : Tab α → Nat → α → Tab α
  | [], k, v => [(k, v)]
  | (k', w) :: r, k, v => if k < k' then (k, v) :: (k', w) :: r else (k', w) :: tinsert r k v

/-- A table with the entry at a key set; the default value leaves no entry. -/
def tset {α : Type} [DecidableEq α] (t : Tab α) (d : α) (k : Nat) (v : α) : Tab α :=
  if v = d then terase t k else tinsert (terase t k) k v

/-- A table with the entry at a key set, whatever its value. -/
def tput {α : Type} (t : Tab α) (k : Nat) (v : α) : Tab α := tinsert (terase t k) k v

/-- The canonical form of a table: keys strictly rising, no value equal to the default. -/
def twf {α : Type} [DecidableEq α] : Tab α → α → Bool
  | [], _ => true
  | (k, v) :: r, d => decide (v ≠ d) && r.all (fun p => decide (k < p.1)) && twf r d

/-- The entry of an association list that may have none. -/
def tfind {α : Type} : Tab α → Nat → Option α
  | [], _ => none
  | (k', v) :: r, k => if k' = k then some v else tfind r k

/-- The bits [lo + n − 1 : lo] of a number. -/
def field (x lo n : Nat) : Nat := x / 2 ^ lo % 2 ^ n

/-- One bit of a number. -/
def bitAt (x i : Nat) : Bool := x / 2 ^ i % 2 == 1

/-- A number with the bits [lo + n − 1 : lo] replaced. -/
def setField (x lo n v : Nat) : Nat := x - field x lo n * 2 ^ lo + v % 2 ^ n * 2 ^ lo

/-- A Bool as a number. -/
def b2n (b : Bool) : Nat := if b then 1 else 0

/-- The low n bits of a number as a two's-complement integer. -/
def sextN (n x : Nat) : Int :=
  let y := x % 2 ^ n
  if 2 ^ n ≤ 2 * y then (y : Int) - (2 ^ n : Nat) else y

/-- An integer modulo 2^n. -/
def wrapN (n : Nat) (x : Int) : Nat := (x % (2 ^ n : Nat)).toNat

/-- Element i of w bits of a vector. -/
def elem (x : Vec) (w i : Nat) : Nat := x.toNat / 2 ^ (w * i) % 2 ^ w

/-- The sum of n elements of w bits placed side by side. -/
def packElems (w : Nat) (f : Nat → Nat) : Nat → Nat
  | 0 => 0
  | n + 1 => packElems w f n + f n % 2 ^ w * 2 ^ (w * n)

/-- The numbers of a list in w bits each, side by side, the first lowest. -/
def packList (w : Nat) : List Nat → Nat
  | [] => 0
  | x :: r => x % 2 ^ w + 2 ^ w * packList w r

/-- The vector whose element i of w bits is f i. -/
def mkVec (w : Nat) (f : Nat → Nat) : Vec := BitVec.ofNat 2048 (packElems w f (2048 / w))

/-- A vector with one element of w bits replaced. -/
def setElem (x : Vec) (w i v : Nat) : Vec := BitVec.ofNat 2048 (setField x.toNat (w * i) w v)

/-- The ceiling of a quotient. -/
def cdiv (a b : Nat) : Nat := (a + b - 1) / b

/-- The least number of bits that index n things: ⌈log2 n⌉. -/
def clog2 (n : Nat) : Nat := if n ≤ 1 then 0 else Nat.log2 (n - 1) + 1

/-- Bits set in the low n bits. -/
def popCount : Nat → Nat → Nat
  | 0, _ => 0
  | n + 1, x => x % 2 + popCount n (x / 2)

/-- Fold over the numbers 0 to n − 1 in rising order. -/
def iter {α : Type} (n : Nat) (f : Nat → α → α) (a : α) : α :=
  match n with
  | 0 => a
  | k + 1 => f k (iter k f a)

/-- The first number below n that a test accepts. -/
def findNat (p : Nat → Bool) : Nat → Option Nat
  | 0 => none
  | n + 1 => match findNat p n with
    | some k => some k
    | none => if p n then some n else none

/-- The first thing a function finds in a list. -/
def firstSome {α β : Type} (f : α → Option β) : List α → Option β
  | [] => none
  | a :: r => match f a with
    | some b => some b
    | none => firstSome f r

/-- The list with the first element a test accepts replaced. -/
def modifyFirst {α : Type} (p : α → Bool) (f : α → α) : List α → List α
  | [] => []
  | a :: r => if p a then f a :: r else a :: modifyFirst p f r

/-- The list without the first element a test accepts. -/
def dropFirst {α : Type} (p : α → Bool) : List α → List α
  | [] => []
  | a :: r => if p a then r else a :: dropFirst p r

/-- The n-byte little-endian number at an address (R4). -/
def leRead (m : Tab Byte) (a : Nat) : Nat → Nat
  | 0 => 0
  | n + 1 => (tget m Config.blank a).toNat + 256 * leRead m (a + 1) n

/-- Memory with the n low bytes of a number stored at an address, little-endian (R4). -/
def leWrite (m : Tab Byte) (a : Nat) : Nat → Nat → Tab Byte
  | 0, _ => m
  | n + 1, v => leWrite (tset m Config.blank a (BitVec.ofNat 8 v)) (a + 1) n (v / 256)

/-- Memory with n bytes from an address on back at what an unwritten byte reads as, where that is zero; in general set to
zero (R210). -/
def zeroFill (m : Tab Byte) (a n : Nat) : Tab Byte :=
  let m' := m.filter (fun p => decide (p.1 < a) || decide (a + n ≤ p.1))
  if Config.blank = 0 then m' else leWrite m' a n 0

/-- Whether two byte ranges share a byte. -/
def overlaps (a n b k : Nat) : Bool := a < b + k && b < a + n

end Sys2Proof
end

