-- ==== Sys2Proof/Syntax.lean ====
section
/-! DEFINITION. The instruction syntax: what the fields of a syllable mean as data (R36 to R40), and Instr, one
constructor per row of the table of operations and events. -/

namespace Sys2Proof

/-- The slots of a bundle in slot order (R34). -/
inductive Slot where
  | c | i | j | f | v | w | m | x | s | e | k
deriving DecidableEq, Repr

/-- The position of a slot: 0 to 10 in the order C, I, J, F, V, W, M, X, S, E, K (R34, R42). -/
def Slot.pos : Slot → Nat
  | .c => 0 | .i => 1 | .j => 2 | .f => 3 | .v => 4 | .w => 5 | .m => 6 | .x => 7 | .s => 8 | .e => 9 | .k => 10

/-- Every slot, in slot order. -/
def Slot.all : List Slot := [.c, .i, .j, .f, .v, .w, .m, .x, .s, .e, .k]

/-- The guard of a syllable: q[pred] XOR pn (R11). -/
structure Guard where
  pn : Bool
  pred : BitVec 3
deriving DecidableEq, Repr

/-- The integer slot of a form that both I and J have (R102). -/
inductive IJ where
  | i | j
deriving DecidableEq, Repr

/-- The slot of an integer form. -/
def IJ.slot : IJ → Slot
  | .i => .i | .j => .j

/-- The vector slot of a form that both V and W have (R125). -/
inductive VW where
  | v | w
deriving DecidableEq, Repr

/-- The slot of a vector form. -/
def VW.slot : VW → Slot
  | .v => .v | .w => .w

/-- The element type of a typed form: .F32, .H, .BF (R117). -/
inductive FT where
  | f32 | h | bf
deriving DecidableEq, Repr

/-- The offset t of a type in its typed group (R49). -/
def FT.code : FT → Nat
  | .f32 => 0 | .h => 1 | .bf => 2

/-- Rounding modes (R61). -/
inductive RM where
  | rne | rz | ru | rd
deriving DecidableEq, Repr

/-- The variant of a rounding mode (R39). -/
def RM.code : RM → BitVec 2
  | .rne => 0 | .rz => 1 | .ru => 2 | .rd => 3

/-- The rounding mode of a variant. -/
def RM.ofCode (v : BitVec 2) : RM :=
  if v == 0 then .rne else if v == 1 then .rz else if v == 2 then .ru else .rd

/-- Access sizes .I8, .I16, .I32, .I64 (R49). -/
inductive Sz where
  | b1 | b2 | b4 | b8
deriving DecidableEq, Repr

/-- The offset of a size in its row of the opcode map. -/
def Sz.code : Sz → Nat
  | .b1 => 0 | .b2 => 1 | .b4 => 2 | .b8 => 3

/-- The size in bytes. -/
def Sz.bytes : Sz → Nat
  | .b1 => 1 | .b2 => 2 | .b4 => 4 | .b8 => 8

/-- Atomic widths .I32 and .I64 (R49). -/
inductive AW where
  | w32 | w64
deriving DecidableEq, Repr

/-- The offset of an atomic width in its row of the opcode map. -/
def AW.code : AW → Nat
  | .w32 => 0 | .w64 => 1

/-- The width in bytes. -/
def AW.bytes : AW → Nat
  | .w32 => 4 | .w64 => 8

/-- Formats of the floating-point atomics: FP32 and BF16 (R242). -/
inductive FW where
  | f32 | bf
deriving DecidableEq, Repr

/-- The offset of a floating-point atomic in its row of the opcode map. -/
def FW.code : FW → Nat
  | .f32 => 0 | .bf => 1

/-- Scopes CORE, DIE, PKG, SYS (R39, R225). -/
inductive Scope where
  | core | die | pkg | sys
deriving DecidableEq, Repr

/-- The variant of a scope. -/
def Scope.code : Scope → BitVec 2
  | .core => 0 | .die => 1 | .pkg => 2 | .sys => 3

/-- The offset of a scope in the FENCE row of the opcode map (R200). -/
def Scope.code7 : Scope → Nat
  | .core => 0 | .die => 1 | .pkg => 2 | .sys => 3

/-- The scope of a variant. -/
def Scope.ofCode (v : BitVec 2) : Scope :=
  if v == 0 then .core else if v == 1 then .die else if v == 2 then .pkg else .sys

/-- The order of an atomic (R39, R248). -/
inductive Ord where
  | relaxed | acq | rel | ar
deriving DecidableEq, Repr

/-- The variant of an atomic's order. -/
def Ord.code : Ord → BitVec 2
  | .relaxed => 0 | .acq => 1 | .rel => 2 | .ar => 3

/-- The order of a variant. -/
def Ord.ofCode (v : BitVec 2) : Ord :=
  if v == 0 then .relaxed else if v == 1 then .acq else if v == 2 then .rel else .ar

/-- Whether an atomic's order acquires. -/
def Ord.acquires : Ord → Bool
  | .acq => true | .ar => true | .relaxed => false | .rel => false

/-- Whether an atomic's order releases. -/
def Ord.releases : Ord → Bool
  | .rel => true | .ar => true | .relaxed => false | .acq => false

/-- The kinds of FENCE: .ACQ, .REL, .AR (R200). -/
inductive FenceKind where
  | acq | rel | ar
deriving DecidableEq, Repr

/-- The variant of a fence kind. -/
def FenceKind.code : FenceKind → BitVec 2
  | .acq => 1 | .rel => 2 | .ar => 3

/-- The fence kind of a variant (variant 00 is refused before this is asked). -/
def FenceKind.ofCode (v : BitVec 2) : FenceKind :=
  if v == 1 then .acq else if v == 2 then .rel else .ar

/-- Element widths of the integer lane forms, VSEL and VBCAST: 32, 16, 8 bits (R39). -/
inductive IW where
  | w32 | w16 | w8
deriving DecidableEq, Repr

/-- The variant of an element width. -/
def IW.code : IW → BitVec 2
  | .w32 => 0 | .w16 => 1 | .w8 => 2

/-- The element width of a variant (variant 11 is refused before this is asked). -/
def IW.ofCode (v : BitVec 2) : IW :=
  if v == 0 then .w32 else if v == 1 then .w16 else .w8

/-- The width in bits. -/
def IW.bits : IW → Nat
  | .w32 => 32 | .w16 => 16 | .w8 => 8

/-- Granules of the index engine: 4, 16, 64, 256 bytes (R318). -/
inductive Gran where
  | g4 | g16 | g64 | g256
deriving DecidableEq, Repr

/-- The variant of a granule. -/
def Gran.code : Gran → BitVec 2
  | .g4 => 0 | .g16 => 1 | .g64 => 2 | .g256 => 3

/-- The granule of a variant. -/
def Gran.ofCode (v : BitVec 2) : Gran :=
  if v == 0 then .g4 else if v == 1 then .g16 else if v == 2 then .g64 else .g256

/-- The granule in bytes. -/
def Gran.bytes : Gran → Nat
  | .g4 => 4 | .g16 => 16 | .g64 => 64 | .g256 => 256

/-- A layout-I immediate: the 29-bit field, or the escape with the bundle's extension word (R38, R40). -/
inductive Imm where
  | short (v : BitVec 29)
  | ext (v : BitVec 63)
deriving DecidableEq, Repr

/-- The escape value of a 29-bit immediate field (R40). -/
def Imm.escape : BitVec 29 := 0x10000000

/-- A short immediate is never the escape value (R40). -/
def Imm.ok : Imm → Bool
  | .short v => v != Imm.escape
  | .ext _ => true

/-- The 64-bit value: either form sign-extended (R38, R40). -/
def Imm.value : Imm → Word
  | .short v => v.signExtend 64
  | .ext v => v.signExtend 64

/-- The immediate field of the syllable. -/
def Imm.field : Imm → BitVec 29
  | .short v => v
  | .ext _ => Imm.escape

/-- The extension word's value, when the syllable uses one. -/
def Imm.extension : Imm → Option (BitVec 63)
  | .short _ => none
  | .ext v => some v

/-- A vector source: register, captured register, hold latch, forwarding latch fl, or indirect (R37, R127). -/
inductive VSrc where
  | reg (n : R11)
  | cap (n : R11)
  | latch
  | fl
  | ind (x : BitVec 4) (off : BitVec 7)
deriving DecidableEq, Repr

/-- Every vector source can be encoded. -/
def VSrc.ok : VSrc → Bool
  | .reg _ => true | .cap _ => true | .latch => true | .fl => true | .ind _ _ => true

/-- The register field of a vector source (R37; glas writes a latch source as 0, R127 gives fl). -/
def VSrc.field : VSrc → R11
  | .reg n => n
  | .cap n => n
  | .latch => 0
  | .fl => 0x400
  | .ind x off => x ++ off

/-- The mode of a vector source (R37). -/
def VSrc.mode : VSrc → BitVec 2
  | .reg _ => 0 | .cap _ => 1 | .latch => 2 | .fl => 2 | .ind _ _ => 3

/-- The vector source a field and a mode name; a mode-10 field other than 0x400 is ignored (R37, R127). -/
def VSrc.of (field : R11) (mode : BitVec 2) : VSrc :=
  if mode == 0 then .reg field
  else if mode == 1 then .cap field
  else if mode == 2 then (if field == 0x400 then .fl else .latch)
  else .ind (field.extractLsb' 7 4) (field.extractLsb' 0 7)

/-- Source b of the X-slot lane forms: a register, or a literal under .K (R315). -/
inductive XB where
  | reg (n : R11)
  | lit (k : R11)
deriving DecidableEq, Repr

/-- The b field. -/
def XB.field : XB → R11
  | .reg n => n | .lit k => k

/-- The variant. -/
def XB.code : XB → BitVec 2
  | .reg _ => 0 | .lit _ => 1

/-- A register source names one of 64 registers; a literal is any field value. -/
def XB.ok : XB → Bool
  | .reg n => n.toNat < 64 | .lit _ => true

/-- The files a K syllable names (R51). -/
inductive KFile where
  | i | j | f | e | v | w | xv
deriving DecidableEq, Repr

/-- The code of a file in field c (R51). -/
def KFile.code : KFile → Nat
  | .i => 0 | .j => 1 | .f => 2 | .e => 3 | .v => 4 | .w => 5 | .xv => 6

/-- The file of a code; codes above 6 are refused before this is asked. -/
def KFile.ofCode (n : Nat) : KFile :=
  if n == 0 then .i else if n == 1 then .j else if n == 2 then .f else if n == 3 then .e
  else if n == 4 then .v else if n == 5 then .w else .xv

/-- Whether a file is one of the scalar files. -/
def KFile.scalar : KFile → Bool
  | .i => true | .j => true | .f => true | .e => true | .v => false | .w => false | .xv => false

/-- How many registers a file has; for V and W the most a seat can be allocated (R8). -/
def KFile.size : KFile → Nat
  | .i => 64 | .j => 64 | .f => 64 | .e => 32 | .v => 2048 | .w => 2048 | .xv => 64

/-- Field c of a K syllable (R51). -/
def kfiles (df sf : KFile) : R11 := BitVec.ofNat 11 (16 * df.code + sf.code)

/-- A one-bit field from a Bool. -/
def bit (b : Bool) : BitVec 2 := if b then 1 else 0

/-- A part of a seat's oldest gather: the lanes whose reads act now, in their order; none for all that are left, with the command's
completion (log 14). -/
structure GatherPart where
  seat : Nat
  lanes : List Nat
deriving DecidableEq, Repr

/-- Which copy command completes: the head of a core's channel, or the k-th queue copy in flight of a tenancy. -/
inductive CopyRef where
  | chan (core ch : Nat)
  | queued (ten k : Nat)
deriving DecidableEq, Repr

/-- The channel or tenancy exists. -/
def CopyRef.ok : CopyRef → Bool
  | .chan core ch => core < 512 && ch < 8
  | .queued ten _ => ten < 17

/-- What a debugger access names (R157). -/
inductive DbgReg where
  | i | j | f | e | v | w | xv | vm | vx | wx | q | tb | tq | hl | tcause | tpc | tdly | tinfo | tvec | haltPc | haltDly
deriving DecidableEq, Repr

/-- Atomic operations (R243, R246). -/
inductive AtOp where
  | add | incw | addb | cas | xch | smin | smax | and | or | xor | faddF32 | faddBf
deriving DecidableEq, Repr

/-- What a request between modules carries to be applied once (R249, R250): the module and port it comes from, its sequence number, and
whether it is sent again. -/
structure FabTag where
  m : Nat
  port : Nat
  seq : Nat
  replay : Bool
deriving DecidableEq, Repr

/-- What a host access does: it reads or writes memory through BAR2, or reads a register of BAR0. -/
inductive HostOp where
  | read
  | write
  | regRead
deriving DecidableEq, Repr

/-- A request that arrives over the fabric under a pod key (R377): a load, a store or an atomic of n bytes at a global address, or a
board request (0 BPOST, 1 BVIEW, 2 BREAD, 3 BADV) with its handle, participant and value, and whether its tenancy has the boards expert
enable (R256). -/
inductive FabReq where
  | load (va n : Nat)
  | store (va n value : Nat)
  | atomic (op : AtOp) (va n v u : Nat) (tag : FabTag)
  | board (kind : Nat) (handle part value : Word) (explicit : Bool) (tag : FabTag)
deriving DecidableEq, Repr

/-- The fields of a tag lie in their ranges. -/
def FabTag.ok (x : FabTag) : Bool := x.m < 64 && x.port < 16384 && x.seq < 65536

/-- The bytes of an atomic's operand (R243, R246). -/
def AtOp.sized : AtOp → Nat → Bool
  | .faddF32, n => n == 4
  | .faddBf, n => n == 2
  | _, n => n == 4 || n == 8

/-- A request has the form of one. -/
def FabReq.ok : FabReq → Bool
  | .load _ _ => true
  | .store _ _ _ => true
  | .atomic op _ n _ _ tag => op.sized n && tag.ok
  | .board kind _ _ _ _ tag => kind < 4 && tag.ok

/-- One constructor per row of spec/opcode_table.json. A syllable carries its guard first (R11) and the fields
its entry uses, as the encoding gives them; a step of the part that no syllable encodes carries the place it happens at
and whatever the spec leaves to the agent that makes it happen. -/
inductive Instr where
  /-- BR (R98). Branch relative to the branch bundle after two delay bundles when the guard is true. -/
  | br (g : Guard) (imm : Imm)
  /-- BRQ (R98). Branch relative when the guard holds and i[a] is zero or non-zero per bit 0. -/
  | brq (g : Guard) (z : Bool) (a : R11) (imm : Imm)
  /-- JMP (R98). Branch to the address in i[a] after two delay bundles. -/
  | jmp (g : Guard) (a : R11)
  /-- CALL (R98). Branch relative and write the link after the second delay bundle into i[d]. -/
  | call (g : Guard) (d : R11) (imm : Imm)
  /-- CALLI (R98). Branch to i[a] and write the link after the second delay bundle into i[d]. -/
  | calli (g : Guard) (d a : R11)
  /-- RET (R98). Return to the link held in i[a] after two delay bundles. -/
  | ret (g : Guard) (a : R11)
  /-- SUSPEND (R99). After its bundle and earlier accesses complete, suspend the strand with the wake condition in i[a], spilling the live ranges in i[b]. -/
  | suspend (g : Guard) (a b : R11)
  /-- YIELD (R99). Suspend the strand with an immediate wake, spilling the whole allocation. -/
  | yield (g : Guard)
  /-- HALT (R99). After the bundle and earlier accesses complete, end the strand and free the seat. -/
  | halt (g : Guard)
  /-- TRAP (R100). Take SWTRAP with the code after the bundle issues. -/
  | trap (g : Guard) (imm : Imm)
  /-- TRET (R101). Leave trap mode and resume the strand at TPC with the delay state of TDLY. -/
  | tret (g : Guard)
  /-- BRK (R100). Take BREAK after the bundle, or halt for the debugger under BRKDBG. -/
  | brk (g : Guard)
  /-- ADD (R102). X[d] := X[a] + X[b] modulo 2^64. -/
  | add (g : Guard) (x : IJ) (d a b : R11)
  /-- SUB (R102). X[d] := X[a] - X[b] modulo 2^64. -/
  | sub (g : Guard) (x : IJ) (d a b : R11)
  /-- ADDI (R102). X[d] := X[a] + imm. -/
  | addi (g : Guard) (x : IJ) (d a : R11) (imm : Imm)
  /-- MUL (R102). Low 64 bits of the product. -/
  | mul (g : Guard) (x : IJ) (d a b : R11)
  /-- MULH (R102). High 64 bits of the signed 128-bit product. -/
  | mulh (g : Guard) (x : IJ) (d a b : R11)
  /-- MULHU (R102). High 64 bits of the unsigned 128-bit product. -/
  | mulhu (g : Guard) (x : IJ) (d a b : R11)
  /-- AND (R102). Bitwise AND. -/
  | and (g : Guard) (x : IJ) (d a b : R11)
  /-- OR (R102). Bitwise OR. -/
  | or (g : Guard) (x : IJ) (d a b : R11)
  /-- XOR (R102). Bitwise XOR. -/
  | xor (g : Guard) (x : IJ) (d a b : R11)
  /-- ANDN (R102). X[a] AND NOT X[b]. -/
  | andn (g : Guard) (x : IJ) (d a b : R11)
  /-- SHL (R102). Shift left by X[b][5:0]. -/
  | shl (g : Guard) (x : IJ) (d a b : R11)
  /-- SHR (R102). Logical shift right by X[b][5:0]. -/
  | shr (g : Guard) (x : IJ) (d a b : R11)
  /-- SAR (R102). Arithmetic shift right by X[b][5:0]. -/
  | sar (g : Guard) (x : IJ) (d a b : R11)
  /-- ROT (R102). Rotate left by X[b][5:0]. -/
  | rot (g : Guard) (x : IJ) (d a b : R11)
  /-- MIN (R102). Signed minimum. -/
  | min (g : Guard) (x : IJ) (d a b : R11)
  /-- MAX (R102). Signed maximum. -/
  | max (g : Guard) (x : IJ) (d a b : R11)
  /-- MINU (R102). Unsigned minimum. -/
  | minu (g : Guard) (x : IJ) (d a b : R11)
  /-- MAXU (R102). Unsigned maximum. -/
  | maxu (g : Guard) (x : IJ) (d a b : R11)
  /-- CLZ (R102). Count leading zero bits. -/
  | clz (g : Guard) (x : IJ) (d a : R11)
  /-- POPC (R102). Count one bits. -/
  | popc (g : Guard) (x : IJ) (d a : R11)
  /-- BFX (R103). Extract a bit field of literal position and length. -/
  | bfx (g : Guard) (x : IJ) (d a pos len : R11)
  /-- BFI (R103). Insert a bit field of literal position and length into X[d]. -/
  | bfi (g : Guard) (x : IJ) (d a pos len : R11)
  /-- LI (R102). Load an immediate, or the extension word under the escape. -/
  | li (g : Guard) (x : IJ) (d : R11) (imm : Imm)
  /-- CMP (R104). Write a predicate from an integer comparison selected by field c. -/
  | cmp (g : Guard) (x : IJ) (d a b cc : R11)
  /-- SEL (R102). Select X[a] or X[b] by predicate q[c]. -/
  | sel (g : Guard) (x : IJ) (d a b c : R11)
  /-- LDG (R106). Load 1 to 8 bytes from a global address, zero- or sign-extended. -/
  | ldg (g : Guard) (z : Sz) (sx : Bool) (d a : R11) (imm : Imm)
  /-- STG (R106). Store 1 to 8 bytes to a global address. -/
  | stg (g : Guard) (z : Sz) (d a : R11) (imm : Imm)
  /-- LDGA (R106). Acquire load from a global address at a scope. -/
  | ldga (g : Guard) (z : Sz) (sc : Scope) (d a b : R11)
  /-- STGL (R106). Release store to a global address at a scope. -/
  | stgl (g : Guard) (z : Sz) (sc : Scope) (d a b : R11)
  /-- PREF (R108). Hint to bring a line into its home cache and load its translation; never faults. -/
  | pref (g : Guard) (wr : Bool) (a : R11) (imm : Imm)
  /-- LDP (R110). Load 1 to 8 bytes at a pool window offset. -/
  | ldp (g : Guard) (z : Sz) (sx : Bool) (d a : R11) (imm : Imm)
  /-- STP (R110). Store 1 to 8 bytes at a pool window offset. -/
  | stp (g : Guard) (z : Sz) (d a : R11) (imm : Imm)
  /-- LDPA (R110). Acquire load at a pool window offset. -/
  | ldpa (g : Guard) (z : Sz) (sc : Scope) (d a b : R11)
  /-- STPL (R110). Release store at a pool window offset. -/
  | stpl (g : Guard) (z : Sz) (sc : Scope) (d a b : R11)
  /-- SQLD (R111). Append 1 to 4 SC16 scales from the pool to the scale queue. -/
  | sqld (g : Guard) (d a : R11) (imm : Imm)
  /-- AGADD (R243). Global atomic add returning the old value. -/
  | agadd (g : Guard) (w : AW) (o : Ord) (d a b : R11)
  /-- AGINCW (R243). Global atomic wrapping increment against a bound. -/
  | agincw (g : Guard) (w : AW) (o : Ord) (d a b : R11)
  /-- AGADDB (R243). Global atomic bounded add with a success predicate. -/
  | agaddb (g : Guard) (w : AW) (o : Ord) (d a b c : R11)
  /-- AGCAS (R243). Global atomic compare and swap. -/
  | agcas (g : Guard) (w : AW) (o : Ord) (d a b c : R11)
  /-- AGXCH (R243). Global atomic exchange. -/
  | agxch (g : Guard) (w : AW) (o : Ord) (d a b : R11)
  /-- AGMIN (R243). Global atomic signed minimum. -/
  | agmin (g : Guard) (w : AW) (o : Ord) (d a b : R11)
  /-- AGMAX (R243). Global atomic signed maximum. -/
  | agmax (g : Guard) (w : AW) (o : Ord) (d a b : R11)
  /-- AGAND (R243). Global atomic AND. -/
  | agand (g : Guard) (w : AW) (o : Ord) (d a b : R11)
  /-- AGOR (R243). Global atomic OR. -/
  | agor (g : Guard) (w : AW) (o : Ord) (d a b : R11)
  /-- AGXOR (R243). Global atomic XOR. -/
  | agxor (g : Guard) (w : AW) (o : Ord) (d a b : R11)
  /-- AGFADD (R246). Global atomic floating-point add in FP32 or BF16 with RNE. -/
  | agfadd (g : Guard) (w : FW) (o : Ord) (d a b : R11)
  /-- APADD (R243). Pool atomic add. -/
  | apadd (g : Guard) (w : AW) (o : Ord) (d a b : R11)
  /-- APINCW (R243). Pool atomic wrapping increment. -/
  | apincw (g : Guard) (w : AW) (o : Ord) (d a b : R11)
  /-- APADDB (R243). Pool atomic bounded add with success predicate. -/
  | apaddb (g : Guard) (w : AW) (o : Ord) (d a b c : R11)
  /-- APCAS (R243). Pool atomic compare and swap. -/
  | apcas (g : Guard) (w : AW) (o : Ord) (d a b c : R11)
  /-- APXCH (R243). Pool atomic exchange. -/
  | apxch (g : Guard) (w : AW) (o : Ord) (d a b : R11)
  /-- APMIN (R243). Pool atomic signed minimum. -/
  | apmin (g : Guard) (w : AW) (o : Ord) (d a b : R11)
  /-- APMAX (R243). Pool atomic signed maximum. -/
  | apmax (g : Guard) (w : AW) (o : Ord) (d a b : R11)
  /-- APFADD (R246). Pool atomic floating-point add in FP32 or BF16. -/
  | apfadd (g : Guard) (w : FW) (o : Ord) (d a b : R11)
  /-- FADD (R119). Scalar floating-point add. -/
  | fadd (g : Guard) (t : FT) (rm : RM) (d a b : R11)
  /-- FSUB (R119). Scalar floating-point subtract. -/
  | fsub (g : Guard) (t : FT) (rm : RM) (d a b : R11)
  /-- FMUL (R119). Scalar floating-point multiply. -/
  | fmul (g : Guard) (t : FT) (rm : RM) (d a b : R11)
  /-- FFMA (R119). Scalar fused multiply-add. -/
  | ffma (g : Guard) (t : FT) (rm : RM) (d a b c : R11)
  /-- FDIV (R119). Scalar correctly rounded divide. -/
  | fdiv (g : Guard) (t : FT) (rm : RM) (d a b : R11)
  /-- FSQRT (R119). Scalar correctly rounded square root. -/
  | fsqrt (g : Guard) (t : FT) (rm : RM) (d a : R11)
  /-- FRSQ (R119). Scalar correctly rounded reciprocal square root. -/
  | frsq (g : Guard) (t : FT) (rm : RM) (d a : R11)
  /-- FMIN (R120). Scalar floating-point minimum. -/
  | fmin (g : Guard) (t : FT) (d a b : R11)
  /-- FMAX (R120). Scalar floating-point maximum. -/
  | fmax (g : Guard) (t : FT) (d a b : R11)
  /-- FABS (R120). Clear the sign bit. -/
  | fabs (g : Guard) (t : FT) (d a : R11)
  /-- FNEG (R120). Invert the sign bit. -/
  | fneg (g : Guard) (t : FT) (d a : R11)
  /-- FCMP (R121). Write a predicate from a floating-point comparison. -/
  | fcmp (g : Guard) (t : FT) (d a b cc : R11)
  /-- FCLASS (R122). Write a predicate when the value's class is in the mask. -/
  | fclass (g : Guard) (t : FT) (d a mask : R11)
  /-- FCVT (R124). Convert one scalar between floating and integer formats. -/
  | fcvt (g : Guard) (rm : RM) (d a b c : R11)
  /-- FSEL (R123). Select F[a] or F[b] by predicate on all 64 bits. -/
  | fsel (g : Guard) (d a b c : R11)
  /-- FLI (R123). Load a sign-extended immediate into an f register. -/
  | fli (g : Guard) (d : R11) (imm : Imm)
  /-- FLI_HI (R123). Load the 29-bit field shifted left by 3 as an FP32 pattern. -/
  | fliHi (g : Guard) (d : R11) (imm : Imm)
  /-- VADD (R128). Element-wise vector add. -/
  | vadd (g : Guard) (s : VW) (t : FT) (rm : RM) (d : R11) (a b : VSrc)
  /-- VSUB (R128). Element-wise vector subtract. -/
  | vsub (g : Guard) (s : VW) (t : FT) (rm : RM) (d : R11) (a b : VSrc)
  /-- VMUL (R128). Element-wise vector multiply. -/
  | vmul (g : Guard) (s : VW) (t : FT) (rm : RM) (d : R11) (a b : VSrc)
  /-- VFMA (R128). Element-wise fused multiply-add. -/
  | vfma (g : Guard) (s : VW) (t : FT) (rm : RM) (d : R11) (a b c : VSrc)
  /-- VFMS (R128). Element-wise fused multiply-subtract. -/
  | vfms (g : Guard) (s : VW) (t : FT) (rm : RM) (d : R11) (a b c : VSrc)
  /-- VMUL_ZG (R129). Zero-gated vector multiply with a resolved weight. -/
  | vmulZg (g : Guard) (s : VW) (t : FT) (rm : RM) (d : R11) (a b : VSrc)
  /-- VFMA_ZG (R129). Zero-gated fused multiply-add. -/
  | vfmaZg (g : Guard) (s : VW) (t : FT) (rm : RM) (d : R11) (a b c : VSrc)
  /-- VFMS_ZG (R129). Zero-gated fused multiply-subtract. -/
  | vfmsZg (g : Guard) (s : VW) (t : FT) (rm : RM) (d : R11) (a b c : VSrc)
  /-- VMIN (R130). Element-wise minimum. -/
  | vmin (g : Guard) (s : VW) (t : FT) (d : R11) (a b : VSrc)
  /-- VMAX (R130). Element-wise maximum. -/
  | vmax (g : Guard) (s : VW) (t : FT) (d : R11) (a b : VSrc)
  /-- VABS (R130). Element-wise absolute value. -/
  | vabs (g : Guard) (s : VW) (t : FT) (d : R11) (a : VSrc)
  /-- VNEG (R130). Element-wise negation. -/
  | vneg (g : Guard) (s : VW) (t : FT) (d : R11) (a : VSrc)
  /-- VCMP (R131). Element-wise compare into an all-ones or zero mask vector. -/
  | vcmp (g : Guard) (s : VW) (t : FT) (d : R11) (a b : VSrc) (cc : R11)
  /-- VCMP_ANY (R131). Compare and write a predicate as the OR over elements. -/
  | vcmpAny (g : Guard) (s : VW) (t : FT) (d : R11) (a b : VSrc) (cc : R11)
  /-- VCMP_ALL (R131). Compare and write a predicate as the AND over elements. -/
  | vcmpAll (g : Guard) (s : VW) (t : FT) (d : R11) (a b : VSrc) (cc : R11)
  /-- VSEL (R132). Select elements of a or b by a non-zero element of c. -/
  | vsel (g : Guard) (s : VW) (w : IW) (d : R11) (a b c : VSrc)
  /-- VDOT (R133). Fused pair dot product into FP32 lanes. -/
  | vdot (g : Guard) (s : VW) (t : FT) (rm : RM) (d : R11) (a b c : VSrc)
  /-- VRED (R134). Tree reduction of all elements into element 0. -/
  | vred (g : Guard) (s : VW) (t : FT) (rm : RM) (d : R11) (a : VSrc)
  /-- VSCAN (R134). Left-to-right prefix sums. -/
  | vscan (g : Guard) (s : VW) (t : FT) (rm : RM) (d : R11) (a : VSrc)
  /-- VEXP2 (R135). Element-wise 2^x within stated bounds. -/
  | vexp2 (g : Guard) (s : VW) (t : FT) (d : R11) (a : VSrc)
  /-- VLOG2 (R135). Element-wise log2 x within stated bounds. -/
  | vlog2 (g : Guard) (s : VW) (t : FT) (d : R11) (a : VSrc)
  /-- VRCP (R135). Element-wise reciprocal within 1 ulp. -/
  | vrcp (g : Guard) (s : VW) (t : FT) (d : R11) (a : VSrc)
  /-- VRSQ (R135). Element-wise reciprocal square root within 1 ulp. -/
  | vrsq (g : Guard) (s : VW) (t : FT) (d : R11) (a : VSrc)
  /-- VCVT (R136). Convert one part of a register's elements between formats, including block formats. -/
  | vcvt (g : Guard) (s : VW) (rm : RM) (d : R11) (a : VSrc) (b c : R11)
  /-- VPERM (R137). Permute lanes from two sources by lane indices. -/
  | vperm (g : Guard) (s : VW) (d : R11) (a b c : VSrc)
  /-- VBCAST (R137). Broadcast one lane, half or byte to the whole register. -/
  | vbcast (g : Guard) (s : VW) (w : IW) (d : R11) (a : VSrc) (b : R11)
  /-- VROTL (R137). Rotate lanes by a literal count. -/
  | vrotl (g : Guard) (s : VW) (d : R11) (a : VSrc) (b : R11)
  /-- VIADD (R138). Wrapping integer lane add. -/
  | viadd (g : Guard) (s : VW) (w : IW) (d : R11) (a b : VSrc)
  /-- VIMUL (R138). Wrapping integer lane multiply. -/
  | vimul (g : Guard) (s : VW) (w : IW) (d : R11) (a b : VSrc)
  /-- VAND (R138). Bitwise AND of 2,048 bits. -/
  | vand (g : Guard) (s : VW) (d : R11) (a b : VSrc)
  /-- VOR (R138). Bitwise OR of 2,048 bits. -/
  | vor (g : Guard) (s : VW) (d : R11) (a b : VSrc)
  /-- VXOR (R138). Bitwise XOR of 2,048 bits. -/
  | vxor (g : Guard) (s : VW) (d : R11) (a b : VSrc)
  /-- VSHL (R138). Integer lane shift left. -/
  | vshl (g : Guard) (s : VW) (w : IW) (d : R11) (a b : VSrc)
  /-- VSHR (R138). Integer lane logical shift right. -/
  | vshr (g : Guard) (s : VW) (w : IW) (d : R11) (a b : VSrc)
  /-- VIDX (R139). Write base + l·step into each lane. -/
  | vidx (g : Guard) (s : VW) (d b c : R11)
  /-- VSETX (R139). Set an index register from a lane of a vector register. -/
  | vsetx (g : Guard) (s : VW) (d : R11) (a : VSrc) (b : R11)
  /-- VSETX_ADD (R139). Set an index register to another plus a signed literal. -/
  | vsetxAdd (g : Guard) (s : VW) (d a b : R11)
  /-- VSETX_LI (R139). Set an index register to a literal. -/
  | vsetxLi (g : Guard) (s : VW) (d b : R11)
  /-- VPOPQ (R140). Pop the head vector of the seat's index data queue. -/
  | vpopq (g : Guard) (s : VW) (d : R11)
  /-- VLDP (R142). Load 64 lanes from the pool window at an index-scaled offset. -/
  | vldp (g : Guard) (s : VW) (s4 : Bool) (d a : R11) (imm : Imm)
  /-- VSTP (R142). Store 64 lanes to the pool window at an index-scaled offset. -/
  | vstp (g : Guard) (s : VW) (s4 : Bool) (d a : R11) (imm : Imm)
  /-- VLDPS (R142). Strided load of 64 lanes from the pool window. -/
  | vldps (g : Guard) (s : VW) (s4 : Bool) (d a : R11) (imm : Imm)
  /-- KMOV (R114). Copy between scalar files. -/
  | kmov (g : Guard) (df sf : KFile) (d a : R11)
  /-- KVEC (R114). Copy a whole vector between vector files. -/
  | kvec (g : Guard) (df sf : KFile) (d a : R11)
  /-- KEXT (R114). Extract a 32- or 64-bit element into a scalar register. -/
  | kext (g : Guard) (df sf : KFile) (d a b : R11)
  /-- KINS (R114). Insert a scalar into an element of a vector register. -/
  | kins (g : Guard) (df sf : KFile) (d a b : R11)
  /-- KBC (R114). Replicate a scalar's low 32 bits into every lane. -/
  | kbc (g : Guard) (df sf : KFile) (d a : R11)
  /-- ELI (R196). Load an immediate into an e register. -/
  | eli (g : Guard) (d : R11) (imm : Imm)
  /-- EADD (R196). Add two e registers. -/
  | eadd (g : Guard) (d a b : R11)
  /-- EMOV (R196). Copy an e register. -/
  | emov (g : Guard) (d a : R11)
  /-- CSRRD (R197). Read a control register into an e register. -/
  | csrrd (g : Guard) (d : R11) (imm : Imm)
  /-- CSRWR (R197). Write an e register to a control register under its access code. -/
  | csrwr (g : Guard) (a : R11) (imm : Imm)
  /-- SEMSIG (R198). Add an increment to a semaphore, optionally returning the old value. -/
  | semsig (g : Guard) (ret : Bool) (d a : R11) (imm : Imm)
  /-- SEMWAIT (R199). Make the next bundle wait until the semaphore reaches the threshold, then subtract it. -/
  | semwait (g : Guard) (a : R11) (imm : Imm)
  /-- FENCE (R200). Hold the bundle until earlier accesses reach the state its scope and variant require. -/
  | fence (g : Guard) (sc : Scope) (k : FenceKind)
  /-- PHASE (R201). Release and arrive at the domain barrier, then wait for the phase release. -/
  | phase (g : Guard) (d : R11)
  /-- LAUNCH (R202). Append a LAUNCH packet image to a device-side queue and return its slot. -/
  | launch (g : Guard) (d a b : R11)
  /-- COPY (R311). Issue a COPY packet built from seven e registers on a channel. -/
  | copy (g : Guard) (d a b : R11)
  /-- COPYP (R312). Issue a copy packet read from the pool on a channel. -/
  | copyp (g : Guard) (d a b : R11)
  /-- CWAIT (R302). Make the next bundle wait until a timeline, own or of another core, reaches a value. -/
  | cwait (g : Guard) (a b c : R11)
  /-- TLRD (R303). Read a timeline's value as an acquire. -/
  | tlrd (g : Guard) (d b c : R11)
  /-- TLRD_ERR (R303). Read a timeline's error word. -/
  | tlrdErr (g : Guard) (d b c : R11)
  /-- TLRD_ERRC (R303). Read and clear the own core's timeline error word in one step. -/
  | tlrdErrc (g : Guard) (d b c : R11)
  /-- BPOST (R255). Post a value to a board slot and receive the view and rank. -/
  | bpost (g : Guard) (d a b c : R11)
  /-- BVIEW (R257). Read a board's current view and level without posting. -/
  | bview (g : Guard) (d a : R11)
  /-- BVIEW_WORD (R257). Read one 64-bit word of a view mask locally. -/
  | bviewWord (g : Guard) (d a b : R11)
  /-- BREAD (R258). Read one board slot's value and posted status. -/
  | bread (g : Guard) (d a b c : R11)
  /-- BADV (R258). Advance a board's level when it matches the expected value, clearing every slot. -/
  | badv (g : Guard) (d a b : R11)
  /-- BARR (R367). Release, arrive at a sideband barrier ID, and wait for its generation to pass. -/
  | barr (g : Guard) (d a : R11)
  /-- STRSET (R277). Write a stream register word from an e register. -/
  | strset (g : Guard) (a b c : R11)
  /-- STRTAP (R277). Write a stream tap register from an e register. -/
  | strtap (g : Guard) (a b c : R11)
  /-- RINGSET_GEOM (R279). Wait for reserved copies, then write a ring's geometry and reset its state. -/
  | ringsetGeom (g : Guard) (a b : R11)
  /-- RINGSET_ADVANCE (R279). Advance a ring by tiles the strand wrote itself, waiting for free tiles. -/
  | ringsetAdvance (g : Guard) (a b : R11)
  /-- RINGSET_RD (R279). Read a ring's STATE word. -/
  | ringsetRd (g : Guard) (d b : R11)
  /-- TLBINV (R223). Remove overlapping translations from core and cluster TLBs and wait for earlier table-update commands. -/
  | tlbinv (g : Guard) (a b : R11)
  /-- ICFLUSH (R223). Wait for earlier stores, then remove overlapping bundles from instruction buffers. -/
  | icflush (g : Guard) (a b : R11)
  /-- MCFG (R269). Set the array configuration and clear h, after checking the scale queue is empty. -/
  | mcfg (g : Guard) (b c : R11)
  /-- MZERO (R270). Clear a bank to +0. -/
  | mzero (g : Guard) (d : R11)
  /-- MACC (R271). Perform one dense matrix beat from two stream pops. -/
  | macc (g : Guard) (a b : R11)
  /-- MACC_ZG (R271). Zero-gated dense matrix beat. -/
  | maccZg (g : Guard) (a b : R11)
  /-- MACCS (R286). Perform one sparse beat over a tile's kept positions. -/
  | maccs (g : Guard) (a b : R11)
  /-- MPUSH (R272). Write a bank row from a vector register or a stream. -/
  | mpush (g : Guard) (d a b c : R11)
  /-- MSHIFT (R270). Rotate a bank's rows by one. -/
  | mshift (g : Guard) (d : R11)
  /-- MDRAIN (R273). Copy a bank row into fl, optionally clearing and rotating. -/
  | mdrain (g : Guard) (d a : R11)
  /-- SPRUNE (R293). Prune a dense source to N:M and write a complete tile. -/
  | sprune (g : Guard) (a b c : R11)
  /-- SPRUNET (R294). Prune by diagonals so both W and its transpose are N:M tiles. -/
  | sprunet (g : Guard) (a b c : R11)
  /-- SREGROW (R294). Drop smallest kept values and revive positions of largest gradient. -/
  | sregrow (g : Guard) (a b c : R11)
  /-- SHDR (R294). Read a tile header word. -/
  | shdr (g : Guard) (d a : R11)
  /-- SHDR_W (R294). Write a tile header word. -/
  | shdrW (g : Guard) (a c : R11)
  /-- SHDR_CK (R294). Recompute and write a tile's checksum as a unit command. -/
  | shdrCk (g : Guard) (a : R11)
  /-- SCHECK (R294). Set a predicate to whether a tile is well formed. -/
  | scheck (g : Guard) (d a : R11)
  /-- SEXPAND (R294). Expand a sparse tile into a dense region. -/
  | sexpand (g : Guard) (a b : R11)
  /-- XADD (R315). Wrapping 32-bit lane add on xv registers. -/
  | xadd (g : Guard) (d a : R11) (b : XB)
  /-- XMUL (R315). Low 32 bits of lane products on xv registers. -/
  | xmul (g : Guard) (d a : R11) (b : XB)
  /-- XAND (R315). Lane AND on xv registers. -/
  | xand (g : Guard) (d a : R11) (b : XB)
  /-- XSHL (R315). Lane shift left on xv registers. -/
  | xshl (g : Guard) (d a : R11) (b : XB)
  /-- XSHR (R315). Lane logical shift right on xv registers. -/
  | xshr (g : Guard) (d a : R11) (b : XB)
  /-- XLDP (R316). Load 256 pool bytes into an xv register. -/
  | xldp (g : Guard) (d a : R11) (imm : Imm)
  /-- XPUSH (R318). Gather granules by index into the seat's data queue. -/
  | xpush (g : Guard) (gr : Gran) (a c : R11)
  /-- XPUSH_NB (R314). Non-blocking gather that writes a predicate instead of holding on a full queue. -/
  | xpushNb (g : Guard) (gr : Gran) (d a c : R11)
  /-- XSCAT (R318). Scatter granules by index. -/
  | xscat (g : Guard) (gr : Gran) (a b c : R11)
  /-- XSCAT_NB (R314). Non-blocking scatter. -/
  | xscatNb (g : Guard) (gr : Gran) (d a b c : R11)
  /-- XSCATA (R318). Scatter-add elements by index at their bank or home. -/
  | xscata (g : Guard) (gr : Gran) (a b c : R11)
  /-- XSCATA_NB (R314). Non-blocking scatter-add. -/
  | xscataNb (g : Guard) (gr : Gran) (d a b c : R11)
  /-- XHASH (R322). Probe an open-addressed pool hash table for 64 keys. -/
  | xhash (g : Guard) (d a c : R11)
  /-- XINS (R322). Insert 64 keys into a pool hash table with atomic slot claims. -/
  | xins (g : Guard) (d a b c : R11)
  /-- XWALK (R323). Walk a COO or CSR coordinate list into row and column vectors. -/
  | xwalk (g : Guard) (csr : Bool) (d a c : R11)
  /-- BUNDLE_ISSUE (R15). A seat's next bundle is fetched whole, decoded, and issues as a whole once its BCW wait, interlocks, hold-line conditions and caldera check are satisfied. -/
  | bundleIssue (core : Nat) (fresh : Bool)
  /-- BUNDLE_COMPLETE (R194). When every syllable of a bundle has completed, its SP=1 signal (or a held signal) is applied. -/
  | bundleComplete (core seat : Nat)
  /-- LOAD_DATA_RETURN (R106). The data of a global or pool load returns and is written to its destination, readying the seat if blocked. -/
  | loadDataReturn (core seat id : Nat)
  /-- SEAT_SWITCH (R178). When the running seat blocks, or a higher-priority seat becomes ready, or the quantum expires, the core changes running seat with one bubble. -/
  | seatSwitch (core : Nat)
  /-- QUANTUM_EXPIRY (R178). After 4,096 bundles the running seat yields its issue width to a ready seat of equal or higher priority unless QOFF is set. -/
  | quantumExpiry (core : Nat)
  /-- GEAR_POINT (R91). A value written to the die gear register arrives at a core, and from the following cycle every judgement uses the new gear. -/
  | gearPoint (core : Nat)
  /-- WALK (R218). A translation missing in every TLB is walked by a die walker, merged with walks of the same page. -/
  | walk (die ten page : Nat)
  /-- WALK_COMPLETE (R219). A walk ends, filling TLBs on success, failing the access with a reason code, or meeting a not-present entry. -/
  | walkComplete (die ten page : Nat)
  /-- ATOMIC_APPLY (R247). The bank unit or home cache applies an atomic request in one indivisible step, using the replay cache for remote requests. -/
  | atomicApply (core seat id : Nat)
  /-- ATOMIC_REPLY (R243). An atomic's old value returns to its destination register. -/
  | atomicReply (core seat id : Nat)
  /-- REQUEST_RESEND (R250). A remote request without reply after 2 µs is resent with REPLAY=1. -/
  | requestResend (core seat id : Nat)
  /-- PHASE_RELEASE (R201). When every member of the group has arrived, the phase is released and each waiter receives the new phase number. -/
  | phaseRelease (ten lid grp : Nat)
  /-- BOARD_SERIALISE (R253). The board unit applies one board request at its arrival, judging failure reasons against the board as it stands. -/
  | boardSerialise (core seat : Nat)
  /-- BOARD_REPLY (R254). The board reply completes its bundle, applying held effects on success or raising BOARD on failure. -/
  | boardReply (core seat : Nat)
  /-- BARRIER_ARRIVAL (R367). An arrival is counted at the sideband root, closing a generation when the count is reached. -/
  | barrierArrival (core seat : Nat)
  /-- BARRIER_RELEASE (R367). 64 ticks after the last arrival is counted, GEN increments and every waiter is released in one tick. -/
  | barrierRelease (id : Nat)
  /-- SCALE_ARRIVE (R111). Scales of an outstanding SQLD arrive in the scale queue. -/
  | scaleArrive (core seat id : Nat)
  /-- RING_TILE_FILL (R280). A reserved tile is counted filled, in reservation order, once all its copy bytes are applied. -/
  | ringTileFill (core ring : Nat)
  /-- SPARSITY_CMD_COMPLETE (R294). A sparsity-unit command completes, advancing timeline 9 and setting its error word on failure. -/
  | sparsityCmdComplete (core : Nat)
  /-- GATHER_ARRIVE (R314). A gather's data vector enters the seat's data queue and the command completes on timeline 8. -/
  | gatherArrive (core : Nat) (part : GatherPart)
  /-- SCATTER_COMPLETE (R314). A scatter completes when its writes have performed at SYS scope. -/
  | scatterComplete (core seat : Nat) (order : List Nat)
  /-- COPY_COMPLETE (R309). A copy completes: its accesses perform, its remote signal is applied, and its timeline and queue timeline advance. -/
  | copyComplete (r : CopyRef) (order : List Nat)
  /-- CHECKED_CHECK (R235). The home checks a CHECKED access against the line's tracking entries or signatures and replies. -/
  | checkedCheck (core seat : Nat)
  /-- TRAP_ENTRY (R151). After draining and waiting for loads, the seat writes the trap record and enters trap mode at TVEC. -/
  | trapEntry (core seat : Nat)
  /-- SUSPEND_SPILL (R173). A suspending seat waits for pushes, spills, writes its record and frees the seat, waiting for a free record entry. -/
  | suspendSpill (core seat : Nat)
  /-- WAKE_READY (R171). A suspended record's wake condition becomes ready and the record joins its ready list. -/
  | wakeReady (die rec : Nat)
  /-- RESUME (R173). A ready record is seated and restored in full before its first bundle issues. -/
  | resume (core seat : Nat)
  /-- SEAT_RECORD (R183). A cluster sequencer seats a ready record on an allowed core and free seat by priority then age. -/
  | seatRecord (die rec : Nat)
  /-- PREEMPT_REQUEST (R186). A sequencer asks a lower-priority seat to yield, and it yields at its next hinted bundle. -/
  | preemptRequest (core seat : Nat)
  /-- PREEMPT_TIMEOUT (R186). 50 µs after the request an unyielded seat is pre-empted at its next issue boundary. -/
  | preemptTimeout (core seat : Nat)
  /-- PREEMPT_SPILL (R186). A pre-empted seat drains, waits for loads and pushes, spills its allocation and heads its ready list. -/
  | preemptSpill (core seat : Nat)
  /-- STRAND_KILL (R333). A killed strand's state is discarded while its issued signals and engine commands complete, then its seat is freed. -/
  | strandKill (core seat : Nat)
  /-- LAUNCH_PACKET (R181). The front end takes a LAUNCH packet from a queue and checks it. -/
  | launchPacket (ten q : Nat)
  /-- COPY_PACKET (R313). The front end takes a COPY packet and runs it on a chosen copy engine. -/
  | copyPacket (ten q : Nat)
  /-- COPYX_PACKET (R313). The front end takes a two-slot COPYX packet, judged against TCB_EXPERT. -/
  | copyxPacket (ten q : Nat)
  /-- SIGNAL_PACKET (R181). When dependences are met, store a value as a SYS release and complete. -/
  | signalPacket (ten q : Nat)
  /-- WAITALL_PACKET (R181). Complete when every earlier packet of the queue has completed and dependences are met. -/
  | waitallPacket (ten q : Nat)
  /-- LAUNCH_START (R183). A launch starts once dependences, service level and gear floor allow, taking the next LID. -/
  | launchStart (ten key : Nat)
  /-- RECORD_CREATE (R183). The die dispatcher creates records and reserves the pool window as record area and spill space allow. -/
  | recordCreate (ten lid die base cluster : Nat)
  /-- PRIORITY_AGEING (R183). A packet waiting 1 ms with met dependences rises one priority level. -/
  | priorityAgeing (ten q : Nat)
  /-- BUDGET_EXPIRY (R188). A launch's budget expires and its records rank below every priority of the tenancy. -/
  | budgetExpiry (ten key : Nat)
  /-- LAUNCH_COMPLETE (R184). When every strand and child has ended, the launch advances COMPL with its status. -/
  | launchComplete (ten key : Nat)
  /-- CROSS_DIE_TIMEOUT (R364). A cross-die request timing out posts XDSLOW, restarts its timeout and keeps resending. -/
  | crossDieTimeout (core agent id : Nat)
  /-- POD_PHASE_RELEASE (R380). The pod collective reads contributions, reduces them, writes the result and releases a DOM 5 phase. -/
  | podPhaseRelease (ten lid : Nat) (peers : List (Nat × Word))
  /-- TENANCY_KILL (R341). Stop packets, evict strands, stop engine commands, retire frames and post CTXLOST. -/
  | tenancyKill (ten : Nat)
  /-- FUMAROLE_PASS (R348). Each FUMINT one cluster is drained, scan-tested and returned to service. -/
  | fumarolePass (die : Nat)
  /-- FUMAROLE_ABANDON (R348). A drain not complete 10 ms after it began is abandoned and the cluster returns. -/
  | fumaroleAbandon (die : Nat)
  /-- EVENT_SEND (R355). A buffered record leaves the die in order with the next SEQ when the host queue has space. -/
  | eventSend (die : Nat)
  /-- STORE_APPLY (R229). A store reaches its bank unit or home cache and is applied, becoming visible to every agent and performed at its scope. -/
  | storeApply (core seat id : Nat)
  /-- PAIR_RETURN_TO_SERVICE (R346). After 256 cycles without a mismatch following a replay, the control-core pair returns to service and PAIRRETRY is posted. -/
  | pairReturnToService (die cluster : Nat)
  /-- SCAN_SELF_TEST_COMPLETE (R350). Scan self-test of a drained cluster ends, failing cores are retired or replaced, saved state is restored and the cluster returns to service. -/
  | scanSelfTestComplete (die cluster : Nat) (failed : List Nat)
  /-- DEBUG_HALT (R157). A debugger halt stops the seat at an issue boundary and drains its pipelines. -/
  | debugHalt (core seat : Nat)
  /-- LINK_RETRAIN_COMPLETE (R379). A fabric retrain succeeds within 150 µs, traffic is replayed and the held timeouts count again. -/
  | linkRetrainComplete (port : Nat)
  /-- RETRAIN_TIMEOUT (R379). A retrain exceeding 150 µs or failing loses the link. -/
  | retrainTimeout (port : Nat)
  /-- SCRUB (R339). Each SCRUBINT a die scrubs its HBM range and pool, correcting CEs and poisoning UEs. -/
  | scrub (die : Nat) (ce ue : List Nat)
  /-- SEM_WAIT_COMPLETE (R191). A pending BCW wait or SEMWAIT completes in the first cycle its threshold is met at its place in the semaphore order, making the seat ready. -/
  | semWaitComplete (core sem : Nat)
  /-- RESULT_WRITEBACK (R16). A fixed-latency result reaches its register L cycles after issue, with ties resolved by bundle and slot order. -/
  | resultWriteback (core : Nat)
  /-- GEAR_WRITE (R91). The power controller writes the die gear register, setting GEAR.PEND and TARGET at each core. -/
  | gearWrite (die : Nat) (value : BitVec 4)
  /-- BANK_OP_COMPLETE (R267). An operation on an accumulator bank completes in issue order after its latency. -/
  | bankOpComplete (core : Nat)
  /-- DEFERRED_TRAP (R156). A pending deferred trap is taken before the next bundle's checks, reporting the earliest and MULTI. -/
  | deferredTrap (core seat : Nat)
  /-- DEBUG_RESUME (R158). The seat resumes at the halt PC with the halt delay state. -/
  | debugResume (core seat : Nat)
  /-- DEBUG_STEP (R159). The seat issues exactly one bundle and halts again. -/
  | debugStep (core seat : Nat)
  /-- DEBUG_ACCESS (R157). The debugger reads or writes a halted seat's registers, latches and trap state. -/
  | debugAccess (core seat : Nat) (wr : Bool) (what : DbgReg) (n value : Nat)
  /-- CANCEL (R188). Cancel a started launch none of whose records has been seated, or set LATE. -/
  | cancel (ten lid : Nat)
  /-- TCB_RESET_KILL (R375). Kill the tenancy if live and return it to its state at creation. -/
  | tcbResetKill (ten : Nat)
  /-- TCB_RESET_UNFREEZE (R375). Unfreeze a tenancy frozen by host loss. -/
  | tcbResetUnfreeze (ten : Nat)
  /-- PAGE_RELEASE (R221). A TCB_PGREL write makes ready every page wake of the page, or of the tenancy with ALL. -/
  | pageRelease (ten : Nat) (value : Word)
  /-- QUEUE_ENABLE (R375). A queue descriptor write takes effect when EN goes from 0 to 1. -/
  | queueEnable (ten q : Nat) (value : Word)
  /-- NOTIFY_WRITE (R376). A write of a slot header completes the requester's earlier posted writes before the packet becomes eligible. -/
  | notifyWrite (ten q slot : Nat) (header : Word)
  /-- TUE_WRITE (R222). Store an entry at a table-region offset in all four replicas. -/
  | tueWrite
  /-- FLUSHVA (R222). Remove a tenancy's overlapping translations from every TLB and wait for accesses that used them. -/
  | flushva
  /-- FLUSHTEN (R222). Remove all of a tenancy's translations from every TLB. -/
  | flushten
  /-- TUE_RBASE_WRITE (R222). Writing TUE_RBASE resets the expected sequence number to 1. -/
  | tueRbaseWrite (value : Word)
  /-- BRDCFG_CREATE (R251). Setting EN from 0 to 1 creates a board at level 0 with the written tenancy, count and grant. -/
  | brdcfgCreate (die b : Nat) (value : Word)
  /-- BRDCFG_FREE (R251). Clearing EN frees the board. -/
  | brdcfgFree (die b : Nat)
  /-- BRDCFG_GRANT (R251). A write keeping EN = 1 changes FAB only. -/
  | brdcfgGrant (die b : Nat) (value : Word)
  /-- BARCFG_WRITE (R366). A write to BARCFG resets the barrier ID and releases its waiters with bit 63 set. -/
  | barcfgWrite (id : Nat) (value : Word)
  /-- RECAREA_WRITE (R392). Place a die's record area, taking effect only when the die holds no record, strand or window. -/
  | recareaWrite (die : Nat) (value : Word)
  /-- TABLEBASE_WRITE (R216). Set a die's table-region base for walks that begin after. -/
  | tablebaseWrite (die : Nat) (value : Word)
  /-- XDTO_WRITE (R364). Set the cross-die timeout, clamped to 1–10,000 µs. -/
  | xdtoWrite (value : Word)
  /-- KEYDAT_WRITE (R377). Write the KEYMAP entry addressed by KEYIDX binding a pod key to a tenancy. -/
  | keydatWrite (value : Word)
  /-- REG_WRITE (R7). A write to a register with no behaviour of its own stores the value under its access code. -/
  | regWrite (fn off : Nat) (value : Word)
  /-- PEER_LOSS (R381). A peer or host is lost, clearing ADMIT, posting PEERLOST and completing outstanding requests. -/
  | peerLoss (m : Nat)
  /-- LANE_FAULT (R379). A single failed lane's traffic moves to the vent lane and FAULT is set. -/
  | laneFault (port lane : Nat)
  /-- LINK_RETRAIN (R379). Multiple or second lane failures retrain the link with traffic held for up to 150 µs. -/
  | linkRetrain (port : Nat)
  /-- FLIT_REPLAY (R377). A flit failing its CRC is replayed from the sender's replay buffer. -/
  | flitReplay (port : Nat)
  /-- FABRIC_REQUEST_IN (R377). An incoming fabric request is applied under its pod key's bound tenancy, or refused with GRANT. -/
  | fabricRequestIn (key : Nat) (req : FabReq)
  /-- HOST_ACCESS (R373). A host access through BAR2 is translated by the tenancy's tables and performed, or completes with UR; a read of a
  register of BAR0 is at the offset va. -/
  | hostAccess (fn va n : Nat) (op : HostOp) (value : Nat)
  /-- ATS_INVALIDATE (R374). An ATS invalidation completes after every request that used the translation. -/
  | atsInvalidate (fn page : Nat)
  /-- PCIE_LINK_DEGRADE (R372). A retrain to a narrower width holds traffic for at most 150 µs. -/
  | pcieLinkDegrade
  /-- UE_CONSUME (R338). An agent access to a poisoned unit returns no data and kills its tenancy. -/
  | ueConsume (ten lid cls agent pa va : Nat)
  /-- CE (R336). A correctable error is corrected in place and posted. -/
  | ce (die place : Nat)
  /-- PAIR_CHECKPOINT (R346). Every 256 cycles the control-core pair takes a checkpoint and restarts its input log. -/
  | pairCheckpoint (die cluster : Nat)
  /-- PAIR_MISMATCH (R346). A commit-signature mismatch drains the cluster, restores the checkpoint and replays the log. -/
  | pairMismatch (die cluster : Nat)
  /-- EVENT_POST (R355). A die places an event record in its fault buffer or counts it in a summary. -/
  | eventPost (die ty ten place : Nat)
  /-- EVENT_RETRY (R355). Every 100 ticks a die retries sending buffered records while the host event queue is full. -/
  | eventRetry (die : Nat)
  /-- PACKAGE_RESET (R388). Package reset restarts bring-up at service level 0 and regenerates keys. -/
  | packageReset
  /-- BRINGUP_LEVEL (R388). Bring-up raises SVCLVL.LEVEL one step. -/
  | bringupLevel
  /-- BRINGUP_FAIL (R388). Bring-up stops below level 3 and sets FAIL. -/
  | bringupFail
  /-- MEASURED_BOOT (R386). The security controller measures and verifies a firmware image's signature. -/
  | measuredBoot (image : Nat) (digest : BitVec 512) (valid : Bool)
  /-- SPDM_KEY_BIND (R386). An SPDM secure session binds an encryption key ID to a tenancy. -/
  | spdmKeyBind (key ten : Nat)
  /-- PEER_REMOVE_DECLARE (R387). The blade controller declares a peer removed. -/
  | peerRemoveDeclare (m : Nat)
  /-- LINE_WRITE_BACK (R212). A dirty line leaves the memory-side cache, is encrypted and tagged under its writing key ID, carries any poison marker, and its CHECKED tracking state is dropped. -/
  | lineWriteBack (line : Nat)
  /-- LINK_UP (R378). An Eweud link finishes training and begins to carry traffic, setting LANEMAP.UP. -/
  | linkUp (port : Nat)
  /-- PCIE_RETRAIN_COMPLETE (R372). The PCIe link finishes retraining to its narrower width and held host traffic and timeouts resume. -/
  | pcieRetrainComplete
  /-- HOST_LINK_RETURN (R385). The host link comes back after a loss, after which a frozen tenancy may be unfrozen or reset. -/
  | hostLinkReturn
  /-- DIE_DEBUG_HALT (R365). A debug halt stops all agents of a die, so its timeouts, resends, pre-emption limit and queue ageing stop counting and its homes answer nothing. -/
  | dieDebugHalt (die : Nat)
  /-- DIE_DEBUG_RESUME (R365). A debug-halted die resumes, its counters count again and its homes answer outstanding requests. -/
  | dieDebugResume (die : Nat)
  /-- ROUTE_TABLE_WRITE (R381). A write to a route-table entry sets or clears ADMIT, and a peer admitted again restarts its sequence numbers and replay caches as a new home. -/
  | routeTableWrite (m : Nat) (value : Word)
deriving DecidableEq, Repr

end Sys2Proof
end

