-- ==== Sys2Proof/WellFormed.lean ====
section
/-! DEFINITION. Well-formed instructions: the field checks of decode steps 4a and 4b (R41) and the register limits of
the files of fixed size (R32), as one decidable predicate on the syntax. -/

namespace Sys2Proof

/-- An immediate in a closed range. -/
def immIn (imm : Imm) (lo hi : Int) : Bool := lo ≤ imm.value.toInt && imm.value.toInt ≤ hi

/-- Field d of ADDB: d[7:6] zero (R242). -/
def addbOk (d : R11) : Bool := d.toNat / 64 % 4 == 0

/-- Field d of BPOST and BVIEW: d[7:5] zero (R255). -/
def evmOk (d : R11) : Bool := d.toNat / 32 % 8 == 0

/-- Field c of CWAIT and TLRD: zero, or c[10] with an e register in c[4:0] (R302). -/
def coreSelOk (c : R11) : Bool := c.toNat == 0 || (1024 ≤ c.toNat && c.toNat < 1056)

/-- A number-format code that R50 assigns. -/
def fmtCode (n : Nat) : Bool := n < 12

/-- A block format: KB8, KB5, KB3 (R50). -/
def fmtBlock (n : Nat) : Bool := n == 5 || n == 6 || n == 7

/-- E4M3 or E5M2. -/
def fmtFp8 (n : Nat) : Bool := n == 3 || n == 4

/-- Field b and c of FCVT (R124). -/
def fcvtOk (b c : R11) : Bool :=
  let sf := c.toNat % 16
  let df := c.toNat / 16 % 16
  c.toNat < 256 && fmtCode sf && fmtCode df && !fmtBlock sf && !fmtBlock df && sf != df
    && (b.toNat == 0 || (b.toNat == 16 && fmtFp8 df))

/-- Elements of a format in one vector register (R136). -/
def fmtCount (n : Nat) : Nat :=
  if n == 0 || n == 10 then 64 else if n == 1 || n == 2 || n == 9 then 128 else if n == 3 || n == 4 || n == 8 then 256
  else if n == 11 then 32 else if n == 5 then 224 else if n == 6 then 352 else if n == 7 then 544 else 0

/-- A pair of formats that VCVT and the copies convert between (R124, R136). -/
def fmtPairOk (sf df : Nat) : Bool :=
  fmtCode sf && fmtCode df && sf != df
    && !(fmtBlock sf && (fmtBlock df || fmtFp8 df || 8 ≤ df))
    && !(fmtBlock df && (fmtBlock sf || fmtFp8 sf || 8 ≤ sf))

/-- Field b and c of VCVT (R136). -/
def vcvtOk (b c : R11) : Bool :=
  let sf := c.toNat % 16
  let df := c.toNat / 16 % 16
  let p := b.toNat % 16
  c.toNat < 256 && b.toNat < 32 && fmtPairOk sf df && (b.toNat < 16 || fmtFp8 df)
    && (p + 1) * min (fmtCount sf) (fmtCount df) ≤ max (fmtCount sf) (fmtCount df)

/-- The class of an operand format of the matrix array: 1 for FP16 and BF16, 2 for the 8-bit class, 4 for KB3 (R266, R269). -/
def fmtKb (n : Nat) : Nat :=
  if n == 1 || n == 2 then 1 else if n == 3 || n == 4 || n == 5 || n == 6 then 2 else if n == 7 then 4 else 0

/-- Field b and c of MCFG: a legal pair of operand formats; bank and scale bits (R268, R269). -/
def mcfgOk (b c : R11) : Bool :=
  let fa := b.toNat % 16
  let fb := b.toNat / 16 % 16
  b.toNat < 256 && c.toNat < 4 && fmtKb fa != 0 && fmtKb fa == fmtKb fb

/-- The control-register numbers of R52. -/
def csrList : List Nat :=
  [0x000, 0x001, 0x002, 0x003, 0x004, 0x005, 0x010, 0x020, 0x021, 0x022, 0x023, 0x024, 0x030, 0x031, 0x038, 0x040,
   0x041, 0x050, 0x060, 0x061, 0x062, 0x063, 0x064, 0x065, 0x066, 0x067]

/-- An immediate that names a control register (R52). -/
def csrOk (imm : Imm) : Bool := 0 ≤ imm.value.toInt && csrList.contains imm.value.toNat


/-- Whether an instruction is one the part has: every field in the range its entry allows (R38, R41 steps 4a and 4b, R32
for the files of fixed size); for a step of the part, whether it names a place that exists. -/
def wellFormed (i : Instr) : Bool :=
  match i with
  | .br _ imm => imm.ok
  | .brq _ _ a imm => a.toNat < 64 && imm.ok
  | .jmp _ a => a.toNat < 64
  | .call _ d imm => d.toNat < 64 && imm.ok
  | .calli _ d a => d.toNat < 64 && a.toNat < 64
  | .ret _ a => a.toNat < 64
  | .suspend _ a b => a.toNat < 64 && b.toNat < 64
  | .yield _ => true
  | .halt _ => true
  | .trap _ imm => immIn imm 0 65535 && imm.ok
  | .tret _ => true
  | .brk _ => true
  | .add _ _ d a b => d.toNat < 64 && a.toNat < 64 && b.toNat < 64
  | .sub _ _ d a b => d.toNat < 64 && a.toNat < 64 && b.toNat < 64
  | .addi _ _ d a imm => d.toNat < 64 && a.toNat < 64 && imm.ok
  | .mul _ _ d a b => d.toNat < 64 && a.toNat < 64 && b.toNat < 64
  | .mulh _ _ d a b => d.toNat < 64 && a.toNat < 64 && b.toNat < 64
  | .mulhu _ _ d a b => d.toNat < 64 && a.toNat < 64 && b.toNat < 64
  | .and _ _ d a b => d.toNat < 64 && a.toNat < 64 && b.toNat < 64
  | .or _ _ d a b => d.toNat < 64 && a.toNat < 64 && b.toNat < 64
  | .xor _ _ d a b => d.toNat < 64 && a.toNat < 64 && b.toNat < 64
  | .andn _ _ d a b => d.toNat < 64 && a.toNat < 64 && b.toNat < 64
  | .shl _ _ d a b => d.toNat < 64 && a.toNat < 64 && b.toNat < 64
  | .shr _ _ d a b => d.toNat < 64 && a.toNat < 64 && b.toNat < 64
  | .sar _ _ d a b => d.toNat < 64 && a.toNat < 64 && b.toNat < 64
  | .rot _ _ d a b => d.toNat < 64 && a.toNat < 64 && b.toNat < 64
  | .min _ _ d a b => d.toNat < 64 && a.toNat < 64 && b.toNat < 64
  | .max _ _ d a b => d.toNat < 64 && a.toNat < 64 && b.toNat < 64
  | .minu _ _ d a b => d.toNat < 64 && a.toNat < 64 && b.toNat < 64
  | .maxu _ _ d a b => d.toNat < 64 && a.toNat < 64 && b.toNat < 64
  | .clz _ _ d a => d.toNat < 64 && a.toNat < 64
  | .popc _ _ d a => d.toNat < 64 && a.toNat < 64
  | .bfx _ _ d a pos len => d.toNat < 64 && a.toNat < 64 && pos.toNat < 64 && 0 < len.toNat && len.toNat ≤ 64
  | .bfi _ _ d a pos len => d.toNat < 64 && a.toNat < 64 && pos.toNat < 64 && 0 < len.toNat && len.toNat ≤ 64
  | .li _ _ d imm => d.toNat < 64 && imm.ok
  | .cmp _ _ d a b cc => d.toNat < 8 && a.toNat < 64 && b.toNat < 64 && cc.toNat < 6
  | .sel _ _ d a b c => d.toNat < 64 && a.toNat < 64 && b.toNat < 64 && c.toNat < 8
  | .ldg _ z sx d a imm => d.toNat < 64 && a.toNat < 64 && !(z == .b8 && sx) && imm.ok
  | .stg _ _ d a imm => d.toNat < 64 && a.toNat < 64 && imm.ok
  | .ldga _ _ _ d a b => d.toNat < 64 && a.toNat < 64 && b.toNat < 64
  | .stgl _ _ _ d a b => d.toNat < 64 && a.toNat < 64 && b.toNat < 64
  | .pref _ _ a imm => a.toNat < 64 && imm.ok
  | .ldp _ z sx d a imm => d.toNat < 64 && a.toNat < 64 && !(z == .b8 && sx) && imm.ok
  | .stp _ _ d a imm => d.toNat < 64 && a.toNat < 64 && imm.ok
  | .ldpa _ _ _ d a b => d.toNat < 64 && a.toNat < 64 && b.toNat < 64
  | .stpl _ _ _ d a b => d.toNat < 64 && a.toNat < 64 && b.toNat < 64
  | .sqld _ d a imm => 0 < d.toNat && d.toNat ≤ 4 && a.toNat < 64 && imm.ok
  | .agadd _ _ _ d a b => d.toNat < 64 && a.toNat < 64 && b.toNat < 64
  | .agincw _ _ _ d a b => d.toNat < 64 && a.toNat < 64 && b.toNat < 64
  | .agaddb _ _ _ d a b c => addbOk d && a.toNat < 64 && b.toNat < 64 && c.toNat < 64
  | .agcas _ _ _ d a b c => d.toNat < 64 && a.toNat < 64 && b.toNat < 64 && c.toNat < 64
  | .agxch _ _ _ d a b => d.toNat < 64 && a.toNat < 64 && b.toNat < 64
  | .agmin _ _ _ d a b => d.toNat < 64 && a.toNat < 64 && b.toNat < 64
  | .agmax _ _ _ d a b => d.toNat < 64 && a.toNat < 64 && b.toNat < 64
  | .agand _ _ _ d a b => d.toNat < 64 && a.toNat < 64 && b.toNat < 64
  | .agor _ _ _ d a b => d.toNat < 64 && a.toNat < 64 && b.toNat < 64
  | .agxor _ _ _ d a b => d.toNat < 64 && a.toNat < 64 && b.toNat < 64
  | .agfadd _ _ _ d a b => d.toNat < 64 && a.toNat < 64 && b.toNat < 64
  | .apadd _ _ _ d a b => d.toNat < 64 && a.toNat < 64 && b.toNat < 64
  | .apincw _ _ _ d a b => d.toNat < 64 && a.toNat < 64 && b.toNat < 64
  | .apaddb _ _ _ d a b c => addbOk d && a.toNat < 64 && b.toNat < 64 && c.toNat < 64
  | .apcas _ _ _ d a b c => d.toNat < 64 && a.toNat < 64 && b.toNat < 64 && c.toNat < 64
  | .apxch _ _ _ d a b => d.toNat < 64 && a.toNat < 64 && b.toNat < 64
  | .apmin _ _ _ d a b => d.toNat < 64 && a.toNat < 64 && b.toNat < 64
  | .apmax _ _ _ d a b => d.toNat < 64 && a.toNat < 64 && b.toNat < 64
  | .apfadd _ _ _ d a b => d.toNat < 64 && a.toNat < 64 && b.toNat < 64
  | .fadd _ _ _ d a b => d.toNat < 64 && a.toNat < 64 && b.toNat < 64
  | .fsub _ _ _ d a b => d.toNat < 64 && a.toNat < 64 && b.toNat < 64
  | .fmul _ _ _ d a b => d.toNat < 64 && a.toNat < 64 && b.toNat < 64
  | .ffma _ _ _ d a b c => d.toNat < 64 && a.toNat < 64 && b.toNat < 64 && c.toNat < 64
  | .fdiv _ _ _ d a b => d.toNat < 64 && a.toNat < 64 && b.toNat < 64
  | .fsqrt _ _ _ d a => d.toNat < 64 && a.toNat < 64
  | .frsq _ _ _ d a => d.toNat < 64 && a.toNat < 64
  | .fmin _ _ d a b => d.toNat < 64 && a.toNat < 64 && b.toNat < 64
  | .fmax _ _ d a b => d.toNat < 64 && a.toNat < 64 && b.toNat < 64
  | .fabs _ _ d a => d.toNat < 64 && a.toNat < 64
  | .fneg _ _ d a => d.toNat < 64 && a.toNat < 64
  | .fcmp _ _ d a b cc => d.toNat < 8 && a.toNat < 64 && b.toNat < 64 && cc.toNat < 6
  | .fclass _ _ d a mask => d.toNat < 8 && a.toNat < 64 && mask.toNat < 512
  | .fcvt _ _ d a b c => d.toNat < 64 && a.toNat < 64 && fcvtOk b c
  | .fsel _ d a b c => d.toNat < 64 && a.toNat < 64 && b.toNat < 64 && c.toNat < 8
  | .fli _ d imm => d.toNat < 64 && imm.ok
  | .fliHi _ d imm => d.toNat < 64 && imm.ok
  | .vadd _ _ _ _ _ a b => a.ok && b.ok
  | .vsub _ _ _ _ _ a b => a.ok && b.ok
  | .vmul _ _ _ _ _ a b => a.ok && b.ok
  | .vfma _ _ _ _ _ a b c => a.ok && b.ok && c.ok
  | .vfms _ _ _ _ _ a b c => a.ok && b.ok && c.ok
  | .vmulZg _ _ _ _ _ a b => a.ok && b.ok
  | .vfmaZg _ _ _ _ _ a b c => a.ok && b.ok && c.ok
  | .vfmsZg _ _ _ _ _ a b c => a.ok && b.ok && c.ok
  | .vmin _ _ _ _ a b => a.ok && b.ok
  | .vmax _ _ _ _ a b => a.ok && b.ok
  | .vabs _ _ _ _ a => a.ok
  | .vneg _ _ _ _ a => a.ok
  | .vcmp _ _ _ _ a b cc => cc.toNat < 6 && a.ok && b.ok
  | .vcmpAny _ _ _ d a b cc => cc.toNat < 6 && d.toNat < 8 && a.ok && b.ok
  | .vcmpAll _ _ _ d a b cc => cc.toNat < 6 && d.toNat < 8 && a.ok && b.ok
  | .vsel _ _ _ _ a b c => a.ok && b.ok && c.ok
  | .vdot _ _ _ _ _ a b c => a.ok && b.ok && c.ok
  | .vred _ _ _ _ _ a => a.ok
  | .vscan _ _ _ _ _ a => a.ok
  | .vexp2 _ _ _ _ a => a.ok
  | .vlog2 _ _ _ _ a => a.ok
  | .vrcp _ _ _ _ a => a.ok
  | .vrsq _ _ _ _ a => a.ok
  | .vcvt _ _ _ _ a b c => vcvtOk b c && a.ok
  | .vperm _ _ _ a b c => a.ok && b.ok && c.ok
  | .vbcast _ _ w _ a b => b.toNat < 2048 / w.bits && a.ok
  | .vrotl _ _ _ a b => b.toNat < 64 && a.ok
  | .viadd _ _ _ _ a b => a.ok && b.ok
  | .vimul _ _ _ _ a b => a.ok && b.ok
  | .vand _ _ _ a b => a.ok && b.ok
  | .vor _ _ _ a b => a.ok && b.ok
  | .vxor _ _ _ a b => a.ok && b.ok
  | .vshl _ _ _ _ a b => a.ok && b.ok
  | .vshr _ _ _ _ a b => a.ok && b.ok
  | .vidx _ _ _ _ _ => true
  | .vsetx _ _ d a b => d.toNat < 16 && b.toNat < 64 && a.ok
  | .vsetxAdd _ _ d a _ => d.toNat < 16 && a.toNat < 16
  | .vsetxLi _ _ d _ => d.toNat < 16
  | .vpopq _ _ _ => true
  | .vldp _ _ _ _ a imm => a.toNat < 16 && imm.ok
  | .vstp _ _ _ _ a imm => a.toNat < 16 && imm.ok
  | .vldps _ _ _ _ a imm => a.toNat < 256 && imm.ok
  | .kmov _ df sf d a => df != sf && df.scalar && sf.scalar && d.toNat < df.size && a.toNat < sf.size
  | .kvec _ df sf d a => df != sf && !df.scalar && !sf.scalar && d.toNat < df.size && a.toNat < sf.size
  | .kext _ df sf d a b => df.scalar && !sf.scalar && d.toNat < df.size && a.toNat < sf.size && b.toNat < df.size
  | .kins _ df sf d a b => !df.scalar && sf.scalar && d.toNat < df.size && a.toNat < sf.size && b.toNat < sf.size
  | .kbc _ df sf d a => !df.scalar && sf.scalar && d.toNat < df.size && a.toNat < sf.size
  | .eli _ d imm => d.toNat < 32 && imm.ok
  | .eadd _ d a b => d.toNat < 32 && a.toNat < 32 && b.toNat < 32
  | .emov _ d a => d.toNat < 32 && a.toNat < 32
  | .csrrd _ d imm => d.toNat < 32 && csrOk imm && imm.ok
  | .csrwr _ a imm => a.toNat < 32 && csrOk imm && imm.ok
  | .semsig _ ret d a imm => d.toNat < 32 && a.toNat < 256 && immIn imm 0 65535 && (ret || d.toNat == 0) && imm.ok
  | .semwait _ a imm => a.toNat < 256 && immIn imm 1 65535 && imm.ok
  | .fence _ _ _ => true
  | .phase _ d => d.toNat < 32
  | .launch _ d a b => d.toNat < 32 && a.toNat < 32 && b.toNat < 16
  | .copy _ d a b => d.toNat < 32 && a.toNat ≤ 25 && b.toNat < 8
  | .copyp _ d a b => d.toNat < 32 && a.toNat < 32 && b.toNat < 8
  | .cwait _ a b c => a.toNat < 32 && b.toNat < 10 && coreSelOk c
  | .tlrd _ d b c => d.toNat < 32 && b.toNat < 10 && coreSelOk c
  | .tlrdErr _ d b c => d.toNat < 32 && b.toNat < 10 && coreSelOk c
  | .tlrdErrc _ d b c => d.toNat < 32 && b.toNat < 10 && c.toNat == 0
  | .bpost _ d a b c => evmOk d && a.toNat < 32 && b.toNat < 32 && c.toNat < 32
  | .bview _ d a => evmOk d && a.toNat < 32
  | .bviewWord _ d a b => d.toNat < 32 && a.toNat < 8 && b.toNat < 32
  | .bread _ d a b c => d.toNat < 32 && a.toNat < 32 && b.toNat < 32 && c.toNat < 32
  | .badv _ d a b => d.toNat < 32 && a.toNat < 32 && b.toNat < 32
  | .barr _ d a => d.toNat < 32 && a.toNat < 64
  | .strset _ a b c => a.toNat < 32 && b.toNat < 16 && c.toNat < 6
  | .strtap _ a b c => a.toNat < 32 && b.toNat < 16 && c.toNat < 4
  | .ringsetGeom _ a b => a.toNat < 32 && b.toNat < 8
  | .ringsetAdvance _ a b => a.toNat < 32 && b.toNat < 8
  | .ringsetRd _ d b => d.toNat < 32 && b.toNat < 8
  | .tlbinv _ a b => a.toNat < 32 && b.toNat < 32
  | .icflush _ a b => a.toNat < 32 && b.toNat < 32
  | .mcfg _ b c => mcfgOk b c
  | .mzero _ d => d.toNat < 2
  | .macc _ a b => a.toNat < 16 && b.toNat < 16
  | .maccZg _ a b => a.toNat < 16 && b.toNat < 16
  | .maccs _ a b => a.toNat < 16 && b.toNat < 16 && a != b
  | .mpush _ d a b c => d.toNat < 4 && b.toNat < 64 && c.toNat < 3 && (c.toNat != 2 || a.toNat < 16)
  | .mshift _ d => d.toNat < 2
  | .mdrain _ d a => d.toNat < 8 && a.toNat < 64
  | .sprune _ a b c => a.toNat < 32 && b.toNat < 32 && c.toNat < 32
  | .sprunet _ a b c => a.toNat < 32 && b.toNat < 32 && c.toNat < 32
  | .sregrow _ a b c => a.toNat < 32 && b.toNat < 32 && c.toNat < 32
  | .shdr _ d a => d.toNat < 32 && a.toNat < 32
  | .shdrW _ a c => a.toNat < 32 && c.toNat < 32
  | .shdrCk _ a => a.toNat < 32
  | .scheck _ d a => d.toNat < 8 && a.toNat < 32
  | .sexpand _ a b => a.toNat < 32 && b.toNat < 32
  | .xadd _ d a b => d.toNat < 64 && a.toNat < 64 && b.ok
  | .xmul _ d a b => d.toNat < 64 && a.toNat < 64 && b.ok
  | .xand _ d a b => d.toNat < 64 && a.toNat < 64 && b.ok
  | .xshl _ d a b => d.toNat < 64 && a.toNat < 64 && b.ok
  | .xshr _ d a b => d.toNat < 64 && a.toNat < 64 && b.ok
  | .xldp _ d a imm => d.toNat < 64 && a.toNat < 64 && imm.ok
  | .xpush _ _ a c => a.toNat < 64 && c.toNat < 64
  | .xpushNb _ _ d a c => d.toNat < 8 && a.toNat < 64 && c.toNat < 64
  | .xscat _ _ a b c => a.toNat < 64 && b.toNat < 64 && c.toNat < 64
  | .xscatNb _ _ d a b c => d.toNat < 8 && a.toNat < 64 && b.toNat < 64 && c.toNat < 64
  | .xscata _ _ a b c => a.toNat < 64 && b.toNat < 64 && c.toNat < 64
  | .xscataNb _ _ d a b c => d.toNat < 8 && a.toNat < 64 && b.toNat < 64 && c.toNat < 64
  | .xhash _ d a c => d.toNat < 64 && a.toNat < 64 && c.toNat < 64
  | .xins _ d a b c => d.toNat < 64 && a.toNat < 64 && b.toNat < 64 && c.toNat < 64
  | .xwalk _ _ d a c => d.toNat ≤ 62 && a.toNat < 64 && c.toNat < 64 && a != d && a != d + 1
  | .bundleIssue core _ => core < 512
  | .bundleComplete core seat => core < 512 && seat < 4
  | .loadDataReturn core seat _ => core < 512 && seat < 4
  | .seatSwitch core => core < 512
  | .quantumExpiry core => core < 512
  | .gearPoint core => core < 512
  | .walk die ten _ => die < 4 && ten < 17
  | .walkComplete die ten _ => die < 4 && ten < 17
  | .atomicApply core seat _ => core < 512 && seat < 4
  | .atomicReply core seat _ => core < 512 && seat < 4
  | .requestResend core seat _ => core < 512 && seat < 4
  | .phaseRelease ten _ _ => ten < 17
  | .boardSerialise core seat => core < 512 && seat < 4
  | .boardReply core seat => core < 512 && seat < 4
  | .barrierArrival core seat => core < 512 && seat < 4
  | .barrierRelease id => id < 64
  | .scaleArrive core seat _ => core < 512 && seat < 4
  | .ringTileFill core ring => core < 512 && ring < 8
  | .sparsityCmdComplete core => core < 512
  | .gatherArrive core part => core < 512 && part.seat < 4
  | .scatterComplete core seat _ => core < 512 && seat < 4
  | .copyComplete r _ => r.ok
  | .checkedCheck core seat => core < 512 && seat < 4
  | .trapEntry core seat => core < 512 && seat < 4
  | .suspendSpill core seat => core < 512 && seat < 4
  | .wakeReady die _ => die < 4
  | .resume core seat => core < 512 && seat < 4
  | .seatRecord die _ => die < 4
  | .preemptRequest core seat => core < 512 && seat < 4
  | .preemptTimeout core seat => core < 512 && seat < 4
  | .preemptSpill core seat => core < 512 && seat < 4
  | .strandKill core seat => core < 512 && seat < 4
  | .launchPacket ten q => ten < 17 && q < 16
  | .copyPacket ten q => ten < 17 && q < 16
  | .copyxPacket ten q => ten < 17 && q < 16
  | .signalPacket ten q => ten < 17 && q < 16
  | .waitallPacket ten q => ten < 17 && q < 16
  | .launchStart ten _ => ten < 17
  | .recordCreate ten _ die _ cluster => ten < 17 && die < 4 && cluster < 16
  | .priorityAgeing ten q => ten < 17 && q < 16
  | .budgetExpiry ten _ => ten < 17
  | .launchComplete ten _ => ten < 17
  | .crossDieTimeout core agent _ => core < 512 && agent < 15
  | .podPhaseRelease ten _ _ => ten < 17
  | .tenancyKill ten => ten < 17
  | .fumarolePass die => die < 4
  | .fumaroleAbandon die => die < 4
  | .eventSend die => die < 4
  | .storeApply core seat _ => core < 512 && seat < 4
  | .pairReturnToService die cluster => die < 4 && cluster < 16
  | .scanSelfTestComplete die cluster _ => die < 4 && cluster < 16
  | .semWaitComplete core sem => core < 512 && sem < 256
  | .resultWriteback core => core < 512
  | .gearWrite die _ => die < 4
  | .bankOpComplete core => core < 512
  | .deferredTrap core seat => core < 512 && seat < 4
  | .debugHalt core seat => core < 512 && seat < 4
  | .debugResume core seat => core < 512 && seat < 4
  | .debugStep core seat => core < 512 && seat < 4
  | .debugAccess core seat _ _ _ _ => core < 512 && seat < 4
  | .cancel ten _ => ten < 17
  | .tcbResetKill ten => ten < 17
  | .tcbResetUnfreeze ten => ten < 17
  | .pageRelease ten _ => ten < 17
  | .queueEnable ten q _ => ten < 17 && q < 16
  | .notifyWrite ten q _ _ => ten < 17 && q < 16
  | .tueWrite => true
  | .flushva => true
  | .flushten => true
  | .tueRbaseWrite _ => true
  | .brdcfgCreate die b _ => die < 4 && b < 256
  | .brdcfgFree die b => die < 4 && b < 256
  | .brdcfgGrant die b _ => die < 4 && b < 256
  | .barcfgWrite id _ => id < 64
  | .recareaWrite die _ => die < 4
  | .tablebaseWrite die _ => die < 4
  | .xdtoWrite _ => true
  | .keydatWrite _ => true
  | .regWrite fn _ _ => fn < 17
  | .peerLoss m => m ≤ 64
  | .laneFault port lane => port < 16 && lane < 9
  | .linkRetrain port => port < 16
  | .retrainTimeout port => port < 16
  | .flitReplay port => port < 16
  | .fabricRequestIn key req => key < 65536 && req.ok
  | .hostAccess fn _ n _ _ => fn < 17 && 0 < n && n ≤ 8
  | .atsInvalidate fn _ => fn < 17
  | .pcieLinkDegrade => true
  | .ueConsume ten _ _ _ _ _ => ten < 17
  | .ce die _ => die < 4
  | .scrub die _ _ => die < 4
  | .pairCheckpoint die cluster => die < 4 && cluster < 16
  | .pairMismatch die cluster => die < 4 && cluster < 16
  | .eventPost die _ _ _ => die < 4
  | .eventRetry die => die < 4
  | .packageReset => true
  | .bringupLevel => true
  | .bringupFail => true
  | .measuredBoot _ _ _ => true
  | .spdmKeyBind key ten => 0 < key && key < 256 && ten < 17
  | .peerRemoveDeclare m => m ≤ 64
  | .lineWriteBack _ => true
  | .linkUp port => port < 16
  | .linkRetrainComplete port => port < 16
  | .pcieRetrainComplete => true
  | .hostLinkReturn => true
  | .dieDebugHalt die => die < 4
  | .dieDebugResume die => die < 4
  | .routeTableWrite m _ => m < 64

end Sys2Proof
end

