-- ==== Sys2Proof/Decode.lean ====
section
/-! DEFINITION. Decoding: the fields of a syllable (R36, R38), the opcode maps with the use every form makes of its fields
(R49, and the tables of the entries), the decode checks in their order (R41, R42), static weights (R76 to R79), and the
encoder, written from the same tables. -/

namespace Sys2Proof

/-- The register files a field can name (R8). -/
inductive File where
  | q | i | j | fr | v | w | vx | wx | xv | e | vm
deriving DecidableEq, Repr

/-- One register of a seat, or a vector register named through an index register with an offset (R33). -/
inductive RegRef where
  | reg (file : File) (n : Nat)
  | ind (file : File) (x off : Nat)
deriving DecidableEq, Repr

/-- What a form does with a field (R38): the field is zero, names a register it reads, writes, or reads and writes, names a
predicate, is a vector source with a mode, or is a literal. -/
inductive Use where
  | zero
  | src (f : File)
  | dst (f : File)
  | upd (f : File)
  | psrc
  | pdst
  | vs (f : File)
  | lit (lo hi : Nat)
  /-- ADDB's d: register in [5:0], predicate in [10:8] (R242). -/
  | addb (f : File)
  /-- BPOST's and BVIEW's d: e register in [4:0], view mask in [10:8] (R255, R257). -/
  | evm
  /-- A view mask that is read, in [2:0] (R257). -/
  | vmk
  /-- A pool vector address: one or two index registers of 4 bits (R141). -/
  | vxa (f : File) (two : Bool)
  /-- CWAIT's and TLRD's c: zero, or bit 10 with an e register (R302). -/
  | coreSel
  /-- COPY's a: seven e registers (R311). -/
  | e7
  /-- XWALK's d: two xv registers (R323). -/
  | xv2
deriving DecidableEq, Repr

/-- One form of an opcode map: its layout, the use of its fields, its legal variants, its weight (R77), the FIELD code of a
violation its entry names (0 for none), and whether it needs the M claim (R264) or waits (R174). -/
structure Form where
  layI : Bool := false
  d : Use := .zero
  a : Use := .zero
  b : Use := .zero
  c : Use := .zero
  vars : List Nat := [0]
  weight : Nat
  bad : Nat := 0
  claim : Bool := false
  waits : Bool := false
deriving DecidableEq, Repr

/-- The fields of a syllable (R36) with those of layout I beside them (R38). -/
structure Fields where
  op : BitVec 7
  g : Guard
  d : R11
  a : R11
  b : R11
  c : R11
  ma : BitVec 2
  mb : BitVec 2
  mc : BitVec 2
  var : BitVec 2
  imm29 : BitVec 29
  bit0 : BitVec 1
deriving DecidableEq, Repr

/-- A layout-R syllable (R36). -/
def packR (op : Nat) (g : Guard) (d a b c : R11) (ma mb mc var : BitVec 2) : Word :=
  (0#1) ++ BitVec.ofNat 7 op ++ BitVec.ofBool g.pn ++ g.pred ++ d ++ a ++ b ++ c ++ ma ++ mb ++ mc ++ var

/-- A layout-I syllable (R38). -/
def packI (op : Nat) (g : Guard) (d a : R11) (imm : BitVec 29) (bit0 : BitVec 2) : Word :=
  (0#1) ++ BitVec.ofNat 7 op ++ BitVec.ofBool g.pn ++ g.pred ++ d ++ a ++ imm ++ bit0.extractLsb' 0 1

/-- The fields of a word (R36, R38). -/
def Fields.of (w : Word) : Fields where
  op := w.extractLsb' 56 7
  g := ⟨w.getLsbD 55, w.extractLsb' 52 3⟩
  d := w.extractLsb' 41 11
  a := w.extractLsb' 30 11
  b := w.extractLsb' 19 11
  c := w.extractLsb' 8 11
  ma := w.extractLsb' 6 2
  mb := w.extractLsb' 4 2
  mc := w.extractLsb' 2 2
  var := w.extractLsb' 0 2
  imm29 := w.extractLsb' 1 29
  bit0 := w.extractLsb' 0 1

/-- The immediate of a layout-I syllable: the escape takes the extension word (R40). -/
def Fields.imm (f : Fields) (ext : Option (BitVec 63)) : Imm :=
  if f.imm29 == Imm.escape then .ext (ext.getD 0) else .short f.imm29

/-- Source a of a V or W syllable. -/
def Fields.srcA (f : Fields) : VSrc := VSrc.of f.a f.ma
/-- Source b of a V or W syllable. -/
def Fields.srcB (f : Fields) : VSrc := VSrc.of f.b f.mb
/-- Source c of a V or W syllable. -/
def Fields.srcC (f : Fields) : VSrc := VSrc.of f.c f.mc

/-- The type of an offset in a typed group; 3 is unassigned (R49). -/
def ftOf (t : Nat) : Option FT := if t = 0 then some .f32 else if t = 1 then some .h else if t = 2 then some .bf else none
/-- The size of an offset in a size-suffixed row (R49). -/
def szOf (t : Nat) : Sz := if t = 0 then .b1 else if t = 1 then .b2 else if t = 2 then .b4 else .b8
/-- The width of an offset in a two-width row (R49). -/
def awOf (t : Nat) : AW := if t = 0 then .w32 else .w64
/-- The scope of an offset in the FENCE row (R200). -/
def scopeOf (t : Nat) : Scope := if t = 0 then .core else if t = 1 then .die else if t = 2 then .pkg else .sys

/-! ## The opcode maps: what each form does with its fields -/

/-- The C slot (R97). -/
def formC (op : Nat) : Option Form :=
  let i := Use.src .i
  match op with
  | 0x00 => some { layI := true, weight := 8 }
  | 0x01 => some { layI := true, a := i, vars := [0, 1], weight := 8 }
  | 0x02 => some { a := i, weight := 8 }
  | 0x03 => some { layI := true, d := .dst .i, weight := 8 }
  | 0x04 => some { d := .dst .i, a := i, weight := 8 }
  | 0x05 => some { a := i, weight := 8 }
  | 0x06 => some { a := i, b := i, weight := 8 }
  | 0x07 => some { weight := 8 }
  | 0x08 => some { weight := 8 }
  | 0x09 => some { layI := true, weight := 8 }
  | 0x0A => some { weight := 8 }
  | 0x0B => some { weight := 8 }
  | _ => none

/-- The integer block that I and J share; x is the slot's file (R102). -/
def formInt (x : File) (op : Nat) : Option Form :=
  let s := Use.src x
  let d := Use.dst x
  let three : Option Form := some { d := d, a := s, b := s, weight := 12 }
  match op with
  | 0x00 => three
  | 0x01 => three
  | 0x02 => some { layI := true, d := d, a := s, weight := 12 }
  | 0x03 => some { d := d, a := s, b := s, weight := 30 }
  | 0x04 => some { d := d, a := s, b := s, weight := 30 }
  | 0x05 => some { d := d, a := s, b := s, weight := 30 }
  | 0x06 => three
  | 0x07 => three
  | 0x08 => three
  | 0x09 => three
  | 0x0A => three
  | 0x0B => three
  | 0x0C => three
  | 0x0D => three
  | 0x0E => three
  | 0x0F => three
  | 0x10 => three
  | 0x11 => three
  | 0x12 => some { d := d, a := s, weight := 12 }
  | 0x13 => some { d := d, a := s, weight := 12 }
  | 0x14 => some { d := d, a := s, b := .lit 0 63, c := .lit 1 64, weight := 12 }
  | 0x15 => some { d := .upd x, a := s, b := .lit 0 63, c := .lit 1 64, weight := 12 }
  | 0x16 => some { layI := true, d := d, weight := 12 }
  | 0x17 => some { d := .pdst, a := s, b := s, c := .lit 0 5, weight := 12 }
  | 0x18 => some { d := d, a := s, b := s, c := .psrc, weight := 12 }
  | _ => none

/-- Loads and stores of the I or J slot: x the file, w the weight (R105, R109). -/
def formMem (x : File) (w : Nat) (op : Nat) (f : Fields) : Option Form :=
  let s := Use.src x
  if op < 0x24 then
    some { layI := true, d := .dst x, a := s, vars := [0, 1], weight := w, bad := if op = 0x23 && f.bit0 == 1 then 6 else 0 }
  else if op < 0x28 then some { layI := true, d := s, a := s, weight := w }
  else if op < 0x2C then some { d := .dst x, a := s, b := s, vars := [0, 1, 2, 3], weight := w }
  else some { d := s, a := s, b := s, vars := [0, 1, 2, 3], weight := w }

/-- Atomics of the I or J slot: k is the row number in the map, 2 for ADDB, 3 for CAS (R242). -/
def formAtom (x : File) (w k : Nat) : Form :=
  let s := Use.src x
  { d := if k = 2 then .addb x else .dst x, a := s, b := s, c := if k = 2 || k = 3 then s else .zero
    vars := [0, 1, 2, 3], weight := w }

/-- The I slot (R102, R105, R242). -/
def formI (op : Nat) (f : Fields) : Option Form :=
  if op < 0x20 then formInt .i op
  else if op < 0x30 then formMem .i 40 op f
  else if op < 0x44 then some (formAtom .i 48 ((op - 0x30) / 2))
  else if op < 0x46 then some (formAtom .i 48 0)
  else if op = 0x46 then some { layI := true, a := .src .i, vars := [0, 1], weight := 40 }
  else none

/-- The J slot (R102, R109, R242). -/
def formJ (op : Nat) (f : Fields) : Option Form :=
  if op < 0x20 then formInt .j op
  else if op < 0x30 then formMem .j 24 op f
  else if op < 0x3E then some (formAtom .j 32 ((op - 0x30) / 2))
  else if op < 0x40 then some (formAtom .j 32 0)
  else if op = 0x40 then some { layI := true, d := .lit 1 4, a := .src .j, weight := 24, claim := true }
  else none

/-- The FIELD code of a violation in FCVT's literals (R124). -/
def fcvtBad (b c : R11) : Nat :=
  let sf := c.toNat % 16
  let df := c.toNat / 16 % 16
  if b.toNat / 32 != 0 || b.toNat % 16 != 0 || (b.toNat / 16 % 2 == 1 && !fmtFp8 df) then 3
  else if 256 ≤ c.toNat || !fmtCode sf || !fmtCode df || fmtBlock sf || fmtBlock df || sf == df then 4
  else 0

/-- The FIELD code of a violation in VCVT's literals, the smallest of those that apply (R42, R136). -/
def vcvtBad (b c : R11) : Nat :=
  let sf := c.toNat % 16
  let df := c.toNat / 16 % 16
  let most := max (fmtCount sf) (fmtCount df)
  let least := min (fmtCount sf) (fmtCount df)
  if b.toNat / 32 != 0 || (b.toNat / 16 % 2 == 1 && !fmtFp8 df) || (fmtCode sf && fmtCode df && most < (b.toNat % 16 + 1) * least) then 3
  else if 256 ≤ c.toNat || !fmtPairOk sf df then 4
  else 0

/-- The F slot (R118). -/
def formF (op : Nat) (f : Fields) : Option Form :=
  let s := Use.src .fr
  let d := Use.dst .fr
  let rm := [0, 1, 2, 3]
  if op < 0x34 then
    if op % 4 = 3 then none
    else match op / 4 with
      | 3 => some { d := d, a := s, b := s, c := s, vars := rm, weight := 20 }
      | 4 => some { d := d, a := s, b := s, vars := rm, weight := 64 }
      | 5 => some { d := d, a := s, vars := rm, weight := 64 }
      | 6 => some { d := d, a := s, vars := rm, weight := 64 }
      | 7 => some { d := d, a := s, b := s, weight := 16 }
      | 8 => some { d := d, a := s, b := s, weight := 16 }
      | 9 => some { d := d, a := s, weight := 16 }
      | 10 => some { d := d, a := s, weight := 16 }
      | 11 => some { d := .pdst, a := s, b := s, c := .lit 0 5, weight := 16 }
      | 12 => some { d := .pdst, a := s, b := .lit 0 511, weight := 16 }
      | _ => some { d := d, a := s, b := s, vars := rm, weight := 16 }
  else match op with
    | 0x40 => some { d := d, a := s, b := .lit 0 2047, c := .lit 0 2047, vars := rm, weight := 16, bad := fcvtBad f.b f.c }
    | 0x41 => some { d := d, a := s, b := s, c := .psrc, weight := 16 }
    | 0x42 => some { layI := true, d := d, vars := [0, 1], weight := 16 }
    | _ => none

/-- The V or W slot; x is its vector file, ix its index file (R128 to R141). An illegal variant is judged as log 19 says. -/
def formV (x ix : File) (op : Nat) (f : Fields) : Option Form :=
  let s := Use.vs x
  let d := Use.dst x
  let rm := [0, 1, 2, 3]
  let f32 := op % 4 = 0
  let any := Use.lit 0 2047
  if op < 0x50 then
    if op % 4 = 3 then none
    else match op / 4 with
      | 3 => some { d := d, a := s, b := s, c := s, vars := rm, weight := if f32 then 300 else 240 }
      | 4 => some { d := d, a := s, b := s, c := s, vars := rm, weight := if f32 then 300 else 240 }
      | 5 => some { d := d, a := s, b := s, weight := 120 }
      | 6 => some { d := d, a := s, b := s, weight := 120 }
      | 8 => some { d := d, a := s, b := s, c := s, vars := rm, weight := if f32 then 300 else 240 }
      | 9 => some { d := d, a := s, b := s, c := s, vars := rm, weight := if f32 then 300 else 240 }
      | 10 => some { d := d, a := s, weight := 120 }
      | 11 => some { d := d, a := s, weight := 120 }
      | 12 => some { d := if f.var == 0 then d else .pdst, a := s, b := s, c := .lit 0 5, vars := [0, 1, 2], weight := 120 }
      | 13 => some { d := d, a := s, b := s, c := s, vars := rm, weight := if f32 then 300 else 240 }
      | 14 => some { d := d, a := s, vars := rm, weight := 150 }
      | 15 => some { d := d, a := s, vars := rm, weight := 150 }
      | 16 => some { d := d, a := s, weight := 260 }
      | 17 => some { d := d, a := s, weight := 260 }
      | 18 => some { d := d, a := s, weight := 260 }
      | 19 => some { d := d, a := s, weight := 260 }
      | _ => some { d := d, a := s, b := s, vars := rm, weight := if f32 then 240 else 200 }
  else match op with
    | 0x50 => some { d := .upd x, a := s, b := any, c := any, vars := rm, weight := 160, bad := vcvtBad f.b f.c }
    | 0x51 => some { d := d, a := s, b := s, c := s, vars := [0, 1, 2], weight := 120 }
    | 0x52 => some { d := d, a := s, b := s, c := s, weight := 180 }
    | 0x53 => some { d := d, a := s, b := .lit 0 (if f.var == 0 then 63 else if f.var == 1 then 127 else if f.var == 2 then 255 else 2047)
                     vars := [0, 1, 2], weight := 120 }
    | 0x54 => some { d := d, a := s, b := .lit 0 63, weight := 180 }
    | 0x55 => some { d := d, a := s, b := s, vars := [0, 1, 2], weight := 120 }
    | 0x56 => some { d := d, a := s, b := s, vars := [0, 1, 2], weight := 120 }
    | 0x57 => some { d := d, a := s, b := s, weight := 120 }
    | 0x58 => some { d := d, a := s, b := s, weight := 120 }
    | 0x59 => some { d := d, a := s, b := s, weight := 120 }
    | 0x5A => some { d := d, a := s, b := s, vars := [0, 1, 2], weight := 120 }
    | 0x5B => some { d := d, a := s, b := s, vars := [0, 1, 2], weight := 120 }
    | 0x5C => some { d := d, b := any, c := any, weight := 120 }
    | 0x5D =>
      let v : List Nat := [0, 1, 2]
      if f.var == 0 then some { d := .dst ix, a := s, b := .lit 0 63, vars := v, weight := 40 }
      else if f.var == 1 then some { d := .dst ix, a := .src ix, b := any, vars := v, weight := 40 }
      else some { d := .dst ix, b := any, vars := v, weight := 40 }
    | 0x5E => some { d := d, weight := 90 }
    | 0x60 => some { layI := true, d := d, a := .vxa ix false, vars := [0, 1], weight := 180 }
    | 0x61 => some { layI := true, d := .src x, a := .vxa ix false, vars := [0, 1], weight := 180 }
    | 0x62 => some { layI := true, d := d, a := .vxa ix true, vars := [0, 1], weight := 180 }
    | _ => none

/-- The weight of a beat by operand format (R77, R78). -/
def maccWeight (fa fb : Nat) : Nat :=
  let one (n : Nat) : Nat := if n = 1 || n = 2 then 880 else if n = 7 then 960 else 900
  max (one fa) (one fb)

/-- The M slot; fa and fb are the configured operand formats (R268 to R273, R286). An illegal selector is judged as log 19 says. -/
def formM (fa fb : Nat) (op : Nat) (f : Fields) : Option Form :=
  match op with
  | 0x00 => some { b := .lit 0 255, c := .lit 0 3, weight := 20, claim := true
                   bad := if mcfgOk f.b 0 then 0 else 3 }
  | 0x01 => some { d := .lit 0 1, weight := 20, claim := true }
  | 0x02 => some { a := .lit 0 15, b := .lit 0 15, weight := maccWeight fa fb, claim := true }
  | 0x03 => some { a := .lit 0 15, b := .lit 0 15, weight := maccWeight fa fb, claim := true }
  | 0x04 => some { a := .lit 0 15, b := .lit 0 15, weight := maccWeight fa fb + 140, claim := true
                   bad := if f.a == f.b then 2 else 0 }
  | 0x05 =>
    let a := if f.c == 0 then Use.src .v else if f.c == 1 then .src .w else if f.c == 2 then .lit 0 15 else .lit 0 2047
    some { d := .lit 0 3, a := a, b := .lit 0 63, c := .lit 0 2, weight := 90, claim := true }
  | 0x06 => some { d := .lit 0 1, weight := 60, claim := true }
  | 0x07 => some { d := .lit 0 7, a := .lit 0 63, weight := 90, claim := true }
  | _ => none

/-- The X slot (R315 to R323). XWALK with a = d or d + 1 records a (log 16); an illegal variant is judged as log 19 says. -/
def formX (op : Nat) (f : Fields) : Option Form :=
  let s := Use.src .xv
  let g := [0, 1, 2, 3]
  if op < 0x05 then
    some { d := .dst .xv, a := s, b := if f.var == 0 then s else .lit 0 2047, vars := [0, 1], weight := 80 }
  else match op with
    | 0x05 => some { layI := true, d := .dst .xv, a := s, weight := 80 }
    | 0x06 => some { a := s, c := s, vars := g, weight := 120 }
    | 0x07 => some { d := .pdst, a := s, c := s, vars := g, weight := 120 }
    | 0x08 => some { a := s, b := s, c := s, vars := g, weight := 120 }
    | 0x09 => some { d := .pdst, a := s, b := s, c := s, vars := g, weight := 120 }
    | 0x0A => some { a := s, b := s, c := s, vars := g, weight := 120 }
    | 0x0B => some { d := .pdst, a := s, b := s, c := s, vars := g, weight := 120 }
    | 0x0C => some { d := .dst .xv, a := s, c := s, weight := 220 }
    | 0x0D => some { d := .dst .xv, a := s, b := s, c := s, weight := 220 }
    | 0x0E => some { d := .xv2, a := .upd .xv, c := s, vars := [0, 1], weight := 100
                     bad := if f.a == f.d || f.a.toNat == f.d.toNat + 1 then 2 else 0 }
    | _ => none

/-- The S slot (R286 to R294). An illegal variant is judged as log 19 says. -/
def formS (op : Nat) (f : Fields) : Option Form :=
  let s := Use.src .e
  match op with
  | 0x00 => some { a := s, b := s, c := s, weight := 420 }
  | 0x01 => some { a := s, b := s, c := s, weight := 520 }
  | 0x02 => some { a := s, b := s, c := s, weight := 460 }
  | 0x03 =>
    let v : List Nat := [0, 1, 2]
    if f.var == 0 then some { d := .dst .e, a := s, vars := v, weight := 40 }
    else if f.var == 1 then some { a := s, c := s, vars := v, weight := 40 }
    else some { a := s, vars := v, weight := 40 }
  | 0x04 => some { d := .pdst, a := s, weight := 40 }
  | 0x05 => some { a := s, b := s, weight := 40 }
  | _ => none

/-- The E slot (R196 to R202, R223, R255 to R258, R277, R279, R302, R303, R311, R312, R367). Illegal variants and selectors are
judged as log 19 says. -/
def formE (op : Nat) (f : Fields) (ext : Option (BitVec 63)) : Option Form :=
  let s := Use.src .e
  let d := Use.dst .e
  match op with
  | 0x00 => some { layI := true, d := d, weight := 16 }
  | 0x01 => some { d := d, a := s, b := s, weight := 16 }
  | 0x02 => some { d := d, a := s, weight := 16 }
  | 0x03 => some { d := d, a := .e7, b := .lit 0 7, weight := 24 }
  | 0x04 => some { d := d, a := s, b := .lit 0 7, weight := 24 }
  | 0x05 => some { a := s, b := .lit 0 9, c := .coreSel, weight := 16, waits := true }
  | 0x06 => some { d := d, b := .lit 0 9, c := .coreSel, vars := [0, 1, 2], weight := 16
                   bad := if f.var == 2 && f.c.toNat / 1024 == 1 then 4 else 0 }
  | 0x07 => some { layI := true, d := if f.bit0 == 1 then d else .zero, a := .lit 0 255, vars := [0, 1], weight := 16
                   bad := if immIn (f.imm ext) 0 65535 then 0 else 7 }
  | 0x08 => some { layI := true, a := .lit 0 255, weight := 16, waits := true
                   bad := if immIn (f.imm ext) 1 65535 then 0 else 7 }
  | 0x09 => some { d := .evm, a := s, b := s, c := s, weight := 30 }
  | 0x0A =>
    if f.var == 1 then some { d := d, a := .vmk, b := s, vars := [0, 1], weight := 16, bad := if f.d < 32 then 0 else 1 }
    else some { d := .evm, a := s, vars := [0, 1], weight := 16 }
  | 0x0B => some { d := d, a := s, b := s, c := .dst .e, weight := 16 }
  | 0x0C => some { d := d, a := s, b := s, weight := 16 }
  | 0x0D => some { d := d, a := .lit 0 63, weight := 16, waits := true }
  | 0x0E => some { d := d, weight := 16, waits := true }
  | 0x0F => some { d := d, a := s, b := .lit 0 15, weight := 16 }
  | 0x10 => some { vars := [1, 2, 3], weight := 16 }
  | 0x11 => some { vars := [1, 2, 3], weight := 16 }
  | 0x12 => some { vars := [1, 2, 3], weight := 16 }
  | 0x13 => some { vars := [1, 2, 3], weight := 16 }
  | 0x14 => some { layI := true, d := d, weight := 16, bad := if csrOk (f.imm ext) then 0 else 7 }
  | 0x15 => some { layI := true, a := s, weight := 16, bad := if csrOk (f.imm ext) then 0 else 7 }
  | 0x16 => some { a := s, b := .lit 0 15, c := .lit 0 5, weight := 16, claim := true }
  | 0x17 => some { a := s, b := .lit 0 15, c := .lit 0 3, weight := 16, claim := true }
  | 0x18 =>
    if f.c == 2 then some { d := d, b := .lit 0 7, c := .lit 0 2, weight := 16, claim := true }
    else some { a := s, b := .lit 0 7, c := .lit 0 2, weight := 16, claim := true }
  | 0x19 => some { a := s, b := s, weight := 16, waits := true }
  | 0x1A => some { a := s, b := s, weight := 16, waits := true }
  | _ => none

/-- The file of a K file code (R51). -/
def KFile.file : KFile → File
  | .i => .i | .j => .j | .f => .fr | .e => .e | .v => .v | .w => .w | .xv => .xv

/-- The K slot: field c names the files (R51, R113). -/
def formK (op : Nat) (f : Fields) : Option Form :=
  let dc := f.c.toNat / 16 % 16
  let sc := f.c.toNat % 16
  let df := KFile.ofCode dc
  let sf := KFile.ofCode sc
  let known := f.c.toNat < 256 && dc < 7 && sc < 7 && dc != sc
  let w := if op = 0 then 20 else 90
  let any := Use.lit 0 2047
  let fit := known && (match op with
    | 0x00 => df.scalar && sf.scalar
    | 0x01 => !df.scalar && !sf.scalar
    | 0x02 => df.scalar && !sf.scalar
    | _ => !df.scalar && sf.scalar)
  if 4 < op then none
  else if !fit then some { d := any, a := any, b := if op = 2 || op = 3 then any else .zero, c := any, weight := w, bad := 4 }
  else match op with
    | 0x02 => some { d := .dst df.file, a := .src sf.file, b := .src df.file, c := any, weight := w }
    | 0x03 => some { d := .upd df.file, a := .src sf.file, b := .src sf.file, c := any, weight := w }
    | _ => some { d := .dst df.file, a := .src sf.file, c := any, weight := w }

/-- The form of a syllable, none for an unassigned opcode (R49). -/
def formOf (fa fb : Nat) (slot : Slot) (f : Fields) (ext : Option (BitVec 63)) : Option Form :=
  let op := f.op.toNat
  match slot with
  | .c => (formC op).map (fun m => if op = 9 && !immIn (f.imm ext) 0 65535 then { m with bad := 7 } else m)
  | .i => formI op f
  | .j => formJ op f
  | .f => formF op f
  | .v => formV .v .vx op f
  | .w => formV .w .wx op f
  | .m => formM fa fb op f
  | .x => formX op f
  | .s => formS op f
  | .e => formE op f ext
  | .k => formK op f

/-! ## Checks of one syllable -/

/-- The smaller of two FIELD codes, 0 standing for no violation. -/
def minCode (a b : Nat) : Nat := if a = 0 then b else if b = 0 then a else min a b

/-- The FIELD code of a field's violation at step 4b (R38, R24, R33, R126); k is the field's own code. -/
def useBad (k x : Nat) (mode : BitVec 2) (u : Use) : Nat :=
  let m := if mode == 0 then 0 else 5
  let here (bad : Bool) : Nat := if bad then k else m
  match u with
  | .zero => here (x != 0)
  | .src _ => m
  | .dst _ => m
  | .upd _ => m
  | .psrc => here (7 < x)
  | .pdst => here (7 < x)
  | .vs _ => 0
  | .lit lo hi => here (x < lo || hi < x)
  | .addb _ => here (x / 64 % 4 != 0)
  | .evm => here (x / 32 % 8 != 0)
  | .vmk => here (7 < x)
  | .vxa _ two => here (if two then 256 ≤ x else 16 ≤ x)
  | .coreSel => here (!(x == 0 || (1024 ≤ x && x < 1056)))
  | .e7 => m
  | .xv2 => m

/-- The FIELD code of a syllable's violations at step 4b, 0 for none: the smallest (R41, R42). -/
def rsvCode (m : Form) (f : Fields) (hasExt : Bool) : Nat :=
  let v := if m.layI then f.bit0.toNat else f.var.toNat
  let esc := if m.layI && f.imm29 == Imm.escape && !hasExt then 7 else 0
  let rest := if m.layI then minCode esc m.bad else
    minCode (useBad 3 f.b.toNat f.mb m.b) (minCode (useBad 4 f.c.toNat f.mc m.c) m.bad)
  minCode (useBad 1 f.d.toNat 0 m.d)
    (minCode (useBad 2 f.a.toNat (if m.layI then 0 else f.ma) m.a)
      (minCode (if m.vars.contains v then 0 else 6) rest))

/-- The size of a file; vu and wu are the seat's allocations in registers (R8, R32). -/
def File.size (vu wu : Nat) : File → Nat
  | .q => 8 | .i => 64 | .j => 64 | .fr => 64 | .v => vu | .w => wu | .vx => 16 | .wx => 16 | .xv => 64 | .e => 32 | .vm => 8

/-- Whether a field is out of range at step 6 (R32, R311, R323). -/
def useRange (vu wu x : Nat) (mode : BitVec 2) (u : Use) : Bool :=
  match u with
  | .src f => f.size vu wu ≤ x
  | .dst f => f.size vu wu ≤ x
  | .upd f => f.size vu wu ≤ x
  | .vs f => if mode == 2 then false else if mode == 3 then f.size vu wu == 0 else f.size vu wu ≤ x
  | .e7 => 25 < x
  | .xv2 => 62 < x
  | .zero => false
  | .psrc => false
  | .pdst => false
  | .lit _ _ => false
  | .addb _ => false
  | .evm => false
  | .vmk => false
  | .vxa _ _ => false
  | .coreSel => false

/-- The FIELD code of the first register field out of range, 0 for none (R42). -/
def rangeCode (vu wu : Nat) (m : Form) (f : Fields) : Nat :=
  if useRange vu wu f.d.toNat 0 m.d then 1
  else if useRange vu wu f.a.toNat (if m.layI then 0 else f.ma) m.a then 2
  else if m.layI then 0
  else if useRange vu wu f.b.toNat f.mb m.b then 3
  else if useRange vu wu f.c.toNat f.mc m.c then 4
  else 0

/-- The index file beside a vector file. -/
def File.index : File → File
  | .v => .vx
  | f => if f = .w then .wx else f

/-- The registers a field reads (R16, R18). -/
def useReads (x : Nat) (mode : BitVec 2) (u : Use) : List RegRef :=
  match u with
  | .src f => [.reg f x]
  | .upd f => [.reg f x]
  | .psrc => [.reg .q x]
  | .vmk => [.reg .vm x]
  | .vs f =>
    if mode == 2 then [] else if mode == 3 then [.reg f.index (x / 128), .ind f (x / 128) (x % 128)] else [.reg f x]
  | .vxa f two => .reg f (x % 16) :: (if two then [.reg f (x / 16)] else [])
  | .coreSel => if x = 0 then [] else [.reg .e (x % 32)]
  | .e7 => (List.range 7).map (fun k => .reg .e (x + k))
  | .zero => []
  | .dst _ => []
  | .pdst => []
  | .lit _ _ => []
  | .addb _ => []
  | .evm => []
  | .xv2 => []

/-- The registers a field writes. -/
def useWrites (x : Nat) (u : Use) : List RegRef :=
  match u with
  | .dst f => [.reg f x]
  | .upd f => [.reg f x]
  | .pdst => [.reg .q x]
  | .addb f => [.reg f (x % 64), .reg .q (x / 256)]
  | .evm => [.reg .e (x % 32), .reg .vm (x / 256)]
  | .xv2 => [.reg .xv x, .reg .xv (x + 1)]
  | .zero => []
  | .src _ => []
  | .psrc => []
  | .vs _ => []
  | .vmk => []
  | .lit _ _ => []
  | .vxa _ _ => []
  | .coreSel => []
  | .e7 => []

/-- The registers and predicates a syllable reads, its guard's among them. -/
def synReads (m : Form) (f : Fields) : List RegRef :=
  .reg .q f.g.pred.toNat :: ((match m.d with
    | .upd x => [.reg x f.d.toNat]
    | u => useReads f.d.toNat 0 u)
    ++ useReads f.a.toNat (if m.layI then 0 else f.ma) m.a
    ++ (if m.layI then [] else useReads f.b.toNat f.mb m.b ++ useReads f.c.toNat f.mc m.c))

/-- The registers and predicates a syllable writes. -/
def synWrites (m : Form) (f : Fields) : List RegRef :=
  useWrites f.d.toNat m.d ++ useWrites f.a.toNat m.a
    ++ (if m.layI then [] else useWrites f.b.toNat m.b ++ useWrites f.c.toNat m.c)

/-- The adjustment of one source by its mode (R76). -/
def modeWeight (u : Use) (mode : BitVec 2) : Int :=
  match u with
  | .vs _ => if mode == 3 then 20 else if mode == 2 then -30 else 0
  | _ => 0

/-- The static weight of a syllable (R76, R77). -/
def synWeight (m : Form) (f : Fields) : Nat :=
  if m.layI then m.weight
  else (max 8 ((m.weight : Int) + modeWeight m.a f.ma + modeWeight m.b f.mb + modeWeight m.c f.mc)).toNat

/-- The FIELD code of the first source that reads fl, 0 for none (R127). -/
def flField (m : Form) (f : Fields) : Nat :=
  let reads (u : Use) (x : R11) (mode : BitVec 2) : Bool := match u with
    | .vs _ => mode == 2 && x == 0x400
    | _ => false
  if m.layI then 0
  else if reads m.a f.a f.ma then 2 else if reads m.b f.b f.mb then 3 else if reads m.c f.c f.mc then 4 else 0

/-! ## From fields to instructions -/

/-- The C slot's instruction (R97 to R101). -/
def mkC (op : Nat) (f : Fields) (ext : Option (BitVec 63)) : Option Instr :=
  match op with
  | 0x00 => some (.br f.g (f.imm ext))
  | 0x01 => some (.brq f.g (f.bit0 == 1) f.a (f.imm ext))
  | 0x02 => some (.jmp f.g f.a)
  | 0x03 => some (.call f.g f.d (f.imm ext))
  | 0x04 => some (.calli f.g f.d f.a)
  | 0x05 => some (.ret f.g f.a)
  | 0x06 => some (.suspend f.g f.a f.b)
  | 0x07 => some (.yield f.g)
  | 0x08 => some (.halt f.g)
  | 0x09 => some (.trap f.g (f.imm ext))
  | 0x0A => some (.tret f.g)
  | 0x0B => some (.brk f.g)
  | _ => none

/-- The integer block of I and J (R102). -/
def mkInt (x : IJ) (op : Nat) (f : Fields) (ext : Option (BitVec 63)) : Option Instr :=
  match op with
  | 0x00 => some (.add f.g x f.d f.a f.b)
  | 0x01 => some (.sub f.g x f.d f.a f.b)
  | 0x02 => some (.addi f.g x f.d f.a (f.imm ext))
  | 0x03 => some (.mul f.g x f.d f.a f.b)
  | 0x04 => some (.mulh f.g x f.d f.a f.b)
  | 0x05 => some (.mulhu f.g x f.d f.a f.b)
  | 0x06 => some (.and f.g x f.d f.a f.b)
  | 0x07 => some (.or f.g x f.d f.a f.b)
  | 0x08 => some (.xor f.g x f.d f.a f.b)
  | 0x09 => some (.andn f.g x f.d f.a f.b)
  | 0x0A => some (.shl f.g x f.d f.a f.b)
  | 0x0B => some (.shr f.g x f.d f.a f.b)
  | 0x0C => some (.sar f.g x f.d f.a f.b)
  | 0x0D => some (.rot f.g x f.d f.a f.b)
  | 0x0E => some (.min f.g x f.d f.a f.b)
  | 0x0F => some (.max f.g x f.d f.a f.b)
  | 0x10 => some (.minu f.g x f.d f.a f.b)
  | 0x11 => some (.maxu f.g x f.d f.a f.b)
  | 0x12 => some (.clz f.g x f.d f.a)
  | 0x13 => some (.popc f.g x f.d f.a)
  | 0x14 => some (.bfx f.g x f.d f.a f.b f.c)
  | 0x15 => some (.bfi f.g x f.d f.a f.b f.c)
  | 0x16 => some (.li f.g x f.d (f.imm ext))
  | 0x17 => some (.cmp f.g x f.d f.a f.b f.c)
  | 0x18 => some (.sel f.g x f.d f.a f.b f.c)
  | _ => none

/-- The I slot (R105, R108, R242). -/
def mkI (op : Nat) (f : Fields) (ext : Option (BitVec 63)) : Option Instr :=
  let z := szOf (op % 4)
  let w := awOf (op % 2)
  let o := Ord.ofCode f.var
  let sc := Scope.ofCode f.var
  if op < 0x20 then mkInt .i op f ext
  else if op < 0x24 then some (.ldg f.g z (f.bit0 == 1) f.d f.a (f.imm ext))
  else if op < 0x28 then some (.stg f.g z f.d f.a (f.imm ext))
  else if op < 0x2C then some (.ldga f.g z sc f.d f.a f.b)
  else if op < 0x30 then some (.stgl f.g z sc f.d f.a f.b)
  else if op < 0x32 then some (.agadd f.g w o f.d f.a f.b)
  else if op < 0x34 then some (.agincw f.g w o f.d f.a f.b)
  else if op < 0x36 then some (.agaddb f.g w o f.d f.a f.b f.c)
  else if op < 0x38 then some (.agcas f.g w o f.d f.a f.b f.c)
  else if op < 0x3A then some (.agxch f.g w o f.d f.a f.b)
  else if op < 0x3C then some (.agmin f.g w o f.d f.a f.b)
  else if op < 0x3E then some (.agmax f.g w o f.d f.a f.b)
  else if op < 0x40 then some (.agand f.g w o f.d f.a f.b)
  else if op < 0x42 then some (.agor f.g w o f.d f.a f.b)
  else if op < 0x44 then some (.agxor f.g w o f.d f.a f.b)
  else if op = 0x44 then some (.agfadd f.g .f32 o f.d f.a f.b)
  else if op = 0x45 then some (.agfadd f.g .bf o f.d f.a f.b)
  else if op = 0x46 then some (.pref f.g (f.bit0 == 1) f.a (f.imm ext))
  else none

/-- The J slot (R109, R242). -/
def mkJ (op : Nat) (f : Fields) (ext : Option (BitVec 63)) : Option Instr :=
  let z := szOf (op % 4)
  let w := awOf (op % 2)
  let o := Ord.ofCode f.var
  let sc := Scope.ofCode f.var
  if op < 0x20 then mkInt .j op f ext
  else if op < 0x24 then some (.ldp f.g z (f.bit0 == 1) f.d f.a (f.imm ext))
  else if op < 0x28 then some (.stp f.g z f.d f.a (f.imm ext))
  else if op < 0x2C then some (.ldpa f.g z sc f.d f.a f.b)
  else if op < 0x30 then some (.stpl f.g z sc f.d f.a f.b)
  else if op < 0x32 then some (.apadd f.g w o f.d f.a f.b)
  else if op < 0x34 then some (.apincw f.g w o f.d f.a f.b)
  else if op < 0x36 then some (.apaddb f.g w o f.d f.a f.b f.c)
  else if op < 0x38 then some (.apcas f.g w o f.d f.a f.b f.c)
  else if op < 0x3A then some (.apxch f.g w o f.d f.a f.b)
  else if op < 0x3C then some (.apmin f.g w o f.d f.a f.b)
  else if op < 0x3E then some (.apmax f.g w o f.d f.a f.b)
  else if op = 0x3E then some (.apfadd f.g .f32 o f.d f.a f.b)
  else if op = 0x3F then some (.apfadd f.g .bf o f.d f.a f.b)
  else if op = 0x40 then some (.sqld f.g f.d f.a (f.imm ext))
  else none

/-- The F slot (R118). -/
def mkF (op : Nat) (f : Fields) (ext : Option (BitVec 63)) : Option Instr :=
  let rm := RM.ofCode f.var
  if op < 0x34 then
    match ftOf (op % 4) with
    | none => none
    | some t => match op / 4 with
      | 0 => some (.fadd f.g t rm f.d f.a f.b)
      | 1 => some (.fsub f.g t rm f.d f.a f.b)
      | 2 => some (.fmul f.g t rm f.d f.a f.b)
      | 3 => some (.ffma f.g t rm f.d f.a f.b f.c)
      | 4 => some (.fdiv f.g t rm f.d f.a f.b)
      | 5 => some (.fsqrt f.g t rm f.d f.a)
      | 6 => some (.frsq f.g t rm f.d f.a)
      | 7 => some (.fmin f.g t f.d f.a f.b)
      | 8 => some (.fmax f.g t f.d f.a f.b)
      | 9 => some (.fabs f.g t f.d f.a)
      | 10 => some (.fneg f.g t f.d f.a)
      | 11 => some (.fcmp f.g t f.d f.a f.b f.c)
      | _ => some (.fclass f.g t f.d f.a f.b)
  else match op with
    | 0x40 => some (.fcvt f.g rm f.d f.a f.b f.c)
    | 0x41 => some (.fsel f.g f.d f.a f.b f.c)
    | 0x42 => if f.bit0 == 1 then some (.fliHi f.g f.d (f.imm ext)) else some (.fli f.g f.d (f.imm ext))
    | _ => none

/-- The V and W slots (R128 to R141). -/
def mkV (s : VW) (op : Nat) (f : Fields) (ext : Option (BitVec 63)) : Option Instr :=
  let rm := RM.ofCode f.var
  let w := IW.ofCode f.var
  let a := f.srcA
  let b := f.srcB
  let c := f.srcC
  if op < 0x50 then
    match ftOf (op % 4) with
    | none => none
    | some t => match op / 4 with
      | 0 => some (.vadd f.g s t rm f.d a b)
      | 1 => some (.vsub f.g s t rm f.d a b)
      | 2 => some (.vmul f.g s t rm f.d a b)
      | 3 => some (.vfma f.g s t rm f.d a b c)
      | 4 => some (.vfms f.g s t rm f.d a b c)
      | 5 => some (.vmin f.g s t f.d a b)
      | 6 => some (.vmax f.g s t f.d a b)
      | 7 => some (.vmulZg f.g s t rm f.d a b)
      | 8 => some (.vfmaZg f.g s t rm f.d a b c)
      | 9 => some (.vfmsZg f.g s t rm f.d a b c)
      | 10 => some (.vabs f.g s t f.d a)
      | 11 => some (.vneg f.g s t f.d a)
      | 12 => if f.var == 0 then some (.vcmp f.g s t f.d a b f.c)
        else if f.var == 1 then some (.vcmpAny f.g s t f.d a b f.c) else some (.vcmpAll f.g s t f.d a b f.c)
      | 13 => some (.vdot f.g s t rm f.d a b c)
      | 14 => some (.vred f.g s t rm f.d a)
      | 15 => some (.vscan f.g s t rm f.d a)
      | 16 => some (.vexp2 f.g s t f.d a)
      | 17 => some (.vlog2 f.g s t f.d a)
      | 18 => some (.vrcp f.g s t f.d a)
      | _ => some (.vrsq f.g s t f.d a)
  else match op with
    | 0x50 => some (.vcvt f.g s rm f.d a f.b f.c)
    | 0x51 => some (.vsel f.g s w f.d a b c)
    | 0x52 => some (.vperm f.g s f.d a b c)
    | 0x53 => some (.vbcast f.g s w f.d a f.b)
    | 0x54 => some (.vrotl f.g s f.d a f.b)
    | 0x55 => some (.viadd f.g s w f.d a b)
    | 0x56 => some (.vimul f.g s w f.d a b)
    | 0x57 => some (.vand f.g s f.d a b)
    | 0x58 => some (.vor f.g s f.d a b)
    | 0x59 => some (.vxor f.g s f.d a b)
    | 0x5A => some (.vshl f.g s w f.d a b)
    | 0x5B => some (.vshr f.g s w f.d a b)
    | 0x5C => some (.vidx f.g s f.d f.b f.c)
    | 0x5D => if f.var == 0 then some (.vsetx f.g s f.d a f.b)
      else if f.var == 1 then some (.vsetxAdd f.g s f.d f.a f.b) else some (.vsetxLi f.g s f.d f.b)
    | 0x5E => some (.vpopq f.g s f.d)
    | 0x60 => some (.vldp f.g s (f.bit0 == 1) f.d f.a (f.imm ext))
    | 0x61 => some (.vstp f.g s (f.bit0 == 1) f.d f.a (f.imm ext))
    | 0x62 => some (.vldps f.g s (f.bit0 == 1) f.d f.a (f.imm ext))
    | _ => none

/-- The M slot (R268). -/
def mkM (op : Nat) (f : Fields) : Option Instr :=
  match op with
  | 0x00 => some (.mcfg f.g f.b f.c)
  | 0x01 => some (.mzero f.g f.d)
  | 0x02 => some (.macc f.g f.a f.b)
  | 0x03 => some (.maccZg f.g f.a f.b)
  | 0x04 => some (.maccs f.g f.a f.b)
  | 0x05 => some (.mpush f.g f.d f.a f.b f.c)
  | 0x06 => some (.mshift f.g f.d)
  | 0x07 => some (.mdrain f.g f.d f.a)
  | _ => none

/-- The X slot (R315 to R323). -/
def mkX (op : Nat) (f : Fields) (ext : Option (BitVec 63)) : Option Instr :=
  let b := if f.var == 1 then XB.lit f.b else .reg f.b
  let gr := Gran.ofCode f.var
  match op with
  | 0x00 => some (.xadd f.g f.d f.a b)
  | 0x01 => some (.xmul f.g f.d f.a b)
  | 0x02 => some (.xand f.g f.d f.a b)
  | 0x03 => some (.xshl f.g f.d f.a b)
  | 0x04 => some (.xshr f.g f.d f.a b)
  | 0x05 => some (.xldp f.g f.d f.a (f.imm ext))
  | 0x06 => some (.xpush f.g gr f.a f.c)
  | 0x07 => some (.xpushNb f.g gr f.d f.a f.c)
  | 0x08 => some (.xscat f.g gr f.a f.b f.c)
  | 0x09 => some (.xscatNb f.g gr f.d f.a f.b f.c)
  | 0x0A => some (.xscata f.g gr f.a f.b f.c)
  | 0x0B => some (.xscataNb f.g gr f.d f.a f.b f.c)
  | 0x0C => some (.xhash f.g f.d f.a f.c)
  | 0x0D => some (.xins f.g f.d f.a f.b f.c)
  | 0x0E => some (.xwalk f.g (f.var == 1) f.d f.a f.c)
  | _ => none

/-- The S slot (R291). -/
def mkS (op : Nat) (f : Fields) : Option Instr :=
  match op with
  | 0x00 => some (.sprune f.g f.a f.b f.c)
  | 0x01 => some (.sprunet f.g f.a f.b f.c)
  | 0x02 => some (.sregrow f.g f.a f.b f.c)
  | 0x03 => if f.var == 0 then some (.shdr f.g f.d f.a)
    else if f.var == 1 then some (.shdrW f.g f.a f.c) else some (.shdrCk f.g f.a)
  | 0x04 => some (.scheck f.g f.d f.a)
  | 0x05 => some (.sexpand f.g f.a f.b)
  | _ => none

/-- The E slot (R49). -/
def mkE (op : Nat) (f : Fields) (ext : Option (BitVec 63)) : Option Instr :=
  let k := FenceKind.ofCode f.var
  match op with
  | 0x00 => some (.eli f.g f.d (f.imm ext))
  | 0x01 => some (.eadd f.g f.d f.a f.b)
  | 0x02 => some (.emov f.g f.d f.a)
  | 0x03 => some (.copy f.g f.d f.a f.b)
  | 0x04 => some (.copyp f.g f.d f.a f.b)
  | 0x05 => some (.cwait f.g f.a f.b f.c)
  | 0x06 => if f.var == 0 then some (.tlrd f.g f.d f.b f.c)
    else if f.var == 1 then some (.tlrdErr f.g f.d f.b f.c) else some (.tlrdErrc f.g f.d f.b f.c)
  | 0x07 => some (.semsig f.g (f.bit0 == 1) f.d f.a (f.imm ext))
  | 0x08 => some (.semwait f.g f.a (f.imm ext))
  | 0x09 => some (.bpost f.g f.d f.a f.b f.c)
  | 0x0A => if f.var == 1 then some (.bviewWord f.g f.d f.a f.b) else some (.bview f.g f.d f.a)
  | 0x0B => some (.bread f.g f.d f.a f.b f.c)
  | 0x0C => some (.badv f.g f.d f.a f.b)
  | 0x0D => some (.barr f.g f.d f.a)
  | 0x0E => some (.phase f.g f.d)
  | 0x0F => some (.launch f.g f.d f.a f.b)
  | 0x10 => some (.fence f.g .core k)
  | 0x11 => some (.fence f.g .die k)
  | 0x12 => some (.fence f.g .pkg k)
  | 0x13 => some (.fence f.g .sys k)
  | 0x14 => some (.csrrd f.g f.d (f.imm ext))
  | 0x15 => some (.csrwr f.g f.a (f.imm ext))
  | 0x16 => some (.strset f.g f.a f.b f.c)
  | 0x17 => some (.strtap f.g f.a f.b f.c)
  | 0x18 => if f.c == 0 then some (.ringsetGeom f.g f.a f.b)
    else if f.c == 1 then some (.ringsetAdvance f.g f.a f.b) else some (.ringsetRd f.g f.d f.b)
  | 0x19 => some (.tlbinv f.g f.a f.b)
  | 0x1A => some (.icflush f.g f.a f.b)
  | _ => none

/-- The K slot (R51, R113). -/
def mkK (op : Nat) (f : Fields) : Option Instr :=
  let df := KFile.ofCode (f.c.toNat / 16)
  let sf := KFile.ofCode (f.c.toNat % 16)
  match op with
  | 0x00 => some (.kmov f.g df sf f.d f.a)
  | 0x01 => some (.kvec f.g df sf f.d f.a)
  | 0x02 => some (.kext f.g df sf f.d f.a f.b)
  | 0x03 => some (.kins f.g df sf f.d f.a f.b)
  | 0x04 => some (.kbc f.g df sf f.d f.a)
  | _ => none

/-- The instruction of a syllable whose fields have been checked. -/
def mkInstr (slot : Slot) (f : Fields) (ext : Option (BitVec 63)) : Option Instr :=
  let op := f.op.toNat
  match slot with
  | .c => mkC op f ext
  | .i => mkI op f ext
  | .j => mkJ op f ext
  | .f => mkF op f ext
  | .v => mkV .v op f ext
  | .w => mkV .w op f ext
  | .m => mkM op f
  | .x => mkX op f ext
  | .s => mkS op f
  | .e => mkE op f ext
  | .k => mkK op f

/-! ## One syllable -/

/-- Why a bundle is refused at decode: REGRANGE or ILLBUNDLE, and the trap's TINFO0, TINFO1, TINFO2 (R42). -/
structure DecTrap where
  regRange : Bool
  info0 : Nat
  info1 : Nat := 0
  info2 : Nat := 0
deriving DecidableEq, Repr

/-- An ILLBUNDLE of a subcode at a position and field (R42): SUB 1 OPC, 2 RSV, 3 WEIGHT, 4 CAP, 5 DELAY, 6 SLOT. -/
def illBundle (sub pos fld : Nat) : DecTrap := { regRange := false, info0 := fld * 4096 + pos * 256 + sub }

/-- A decoded syllable: its slot, its instruction, and what the issue of its bundle asks of it. -/
structure Syl where
  slot : Slot
  instr : Instr
  reads : List RegRef
  writes : List RegRef
  weight : Nat
  range : Nat
  fl : Nat
  waits : Bool
  esc : Bool
deriving DecidableEq, Repr

/-- What decode asks of the seat: its allocations in registers, its M claim, whether the bundle is a delay bundle, the
array's operand formats (R31, R41, R78), and the service level (R388). -/
structure DecCtx where
  vu : Nat
  wu : Nat
  claim : Bool
  delay : Bool
  fa : Nat
  fb : Nat
  lvl1 : Bool := false
deriving DecidableEq, Repr

/-- Whether a format code is one that service level 1 serves: FP32, BF16 or an integer (R388). -/
def lvl1Code (c : Nat) : Bool := c == 0 || c == 2 || (8 ≤ c && c ≤ 11)

/-- Whether service level 1 serves a syllable (R388): no .H form, no other format in a conversion or an MCFG. -/
def lvl1Form (slot : Slot) (f : Fields) : Bool :=
  let op := f.op.toNat
  let conv := lvl1Code (f.c.toNat % 16) && lvl1Code (f.c.toNat / 16 % 16)
  match slot with
  | .f => if op < 0x34 then op % 4 != 1 else if op = 0x40 then conv else true
  | .v => if op < 0x50 then op % 4 != 1 else if op = 0x50 then conv else true
  | .w => if op < 0x50 then op % 4 != 1 else if op = 0x50 then conv else true
  | .m => if op = 0 then f.b.toNat % 16 == 2 && f.b.toNat / 16 % 16 == 2 else true
  | .c => true | .i => true | .j => true | .x => true | .s => true | .e => true | .k => true

/-- Steps 4a to 4c for one syllable (R41). -/
def decodeSyl (ctx : DecCtx) (slot : Slot) (w : Word) (ext : Option (BitVec 63)) : Except DecTrap Syl :=
  let f := Fields.of w
  match formOf ctx.fa ctx.fb slot f ext with
  | none => .error (illBundle 1 slot.pos 0)
  | some m =>
    if ctx.lvl1 && !lvl1Form slot f then .error (illBundle 1 slot.pos 0)
    else match rsvCode m f ext.isSome with
    | 0 =>
      if m.claim && !ctx.claim then .error (illBundle 6 slot.pos 0)
      else match mkInstr slot f ext with
        | none => .error (illBundle 1 slot.pos 0)
        | some i => .ok {
            slot := slot, instr := i, reads := synReads m f, writes := synWrites m f, weight := synWeight m f
            range := rangeCode ctx.vu ctx.wu m f, fl := flField m f, waits := m.waits
            esc := m.layI && f.imm29 == Imm.escape }
    | k + 1 => .error (illBundle 2 slot.pos (k + 1))

/-! ## Bundles -/

/-- The BCW's fields (R35). -/
structure Bcw where
  presence : Nat
  weight : Nat
  stall : Nat
  waitSem : Nat
  waitThr : Nat
  sigSem : Nat
  sigInc : Nat
  sp : Bool
  hint : Bool
  ext : Bool
  low : Nat
deriving DecidableEq, Repr

/-- The fields of a BCW (R35). The weight is in embers, twice the field (R79). -/
def Bcw.of (w : Word) : Bcw where
  presence := field w.toNat 52 11
  weight := 2 * field w.toNat 40 12
  stall := field w.toNat 36 4
  waitSem := field w.toNat 28 8
  waitThr := field w.toNat 22 6
  sigSem := field w.toNat 14 8
  sigInc := field w.toNat 10 4
  sp := bitAt w.toNat 9
  hint := bitAt w.toNat 8
  ext := bitAt w.toNat 7
  low := field w.toNat 0 7

/-- The slots present, in slot order: presence bit 10 is C, bit 0 is K (R35). -/
def Bcw.slots (b : Bcw) : List Slot := Slot.all.filter (fun s => bitAt b.presence (10 - s.pos))

/-- The bundle's length in words (R34). -/
def Bcw.words (b : Bcw) : Nat := 1 + b.slots.length + b2n b.ext

/-- A decoded bundle. -/
structure Bundle where
  bcw : Bcw
  syls : List Syl
deriving DecidableEq, Repr

/-- The position of the first word after the BCW that has bit 63 set: its slot, or 14 for the extension word (R42). -/
def markedPos : List Slot → List Word → Option Nat
  | _, [] => none
  | [], w :: _ => if w.getLsbD 63 then some 14 else none
  | s :: ss, w :: ws => if w.getLsbD 63 then some s.pos else markedPos ss ws

/-- Steps 4a to 4c for every syllable in slot order. -/
def decodeSyls (ctx : DecCtx) (ext : Option (BitVec 63)) : List Slot → List Word → Except DecTrap (List Syl)
  | [], _ => .ok []
  | s :: ss, ws =>
    match decodeSyl ctx s (ws.headD 0) ext with
    | .error e => .error e
    | .ok x => match decodeSyls ctx ext ss ws.tail with
      | .error e => .error e
      | .ok xs => .ok (x :: xs)

/-- Whether an instruction is MDRAIN. -/
def Instr.isMdrain : Instr → Bool
  | .mdrain _ _ _ => true
  | _ => false

/-- Whether an instruction is SUSPEND or YIELD (R174). -/
def Instr.isSuspend : Instr → Bool
  | .suspend _ _ _ => true
  | .yield _ => true
  | _ => false

/-- The first syllable whose check gives a code, with that code. -/
def firstCode (f : Syl → Nat) : List Syl → Option (Nat × Nat)
  | [] => none
  | x :: xs => if f x = 0 then firstCode f xs else some (x.slot.pos, f x)

/-- The bundle base and the static weights (R79). -/
def staticSum (syls : List Syl) : Nat := 24 + (syls.map Syl.weight).sum

/-- The three checks of step 4b that concern the bundle, then steps 5, 6 and 7 (R41). -/
def checkBundle (ctx : DecCtx) (b : Bcw) (syls : List Syl) : Except DecTrap Bundle :=
  match (if syls.any (fun x => x.instr.isMdrain) then none else firstCode Syl.fl syls) with
  | some (pos, fld) => .error (illBundle 2 pos fld)
  | none =>
    if syls.any (fun x => x.instr.isSuspend) && syls.any Syl.waits then .error (illBundle 2 0 15)
    else if b.ext && !syls.any Syl.esc then .error (illBundle 2 15 15)
    else if ctx.delay && syls.any (fun x => x.slot == .c) then .error (illBundle 5 0 15)
    else match firstCode Syl.range syls with
      | some (pos, fld) => .error { regRange := true, info0 := fld * 4096 + pos * 256 }
      | none =>
        let sum := staticSum syls
        if b.weight < sum then .error { illBundle 3 15 15 with info1 := sum, info2 := b.weight }
        else .ok ⟨b, syls⟩

/-- Decode of a whole bundle, the checks in the order of R41. The words are the bundle's own, by its BCW's length; a missing
word reads as zero. -/
def decodeBundle (ctx : DecCtx) (ws : List Word) : Except DecTrap Bundle :=
  let b := Bcw.of (ws.headD 0)
  let body := (ws.tail).take (b.words - 1)
  let slots := b.slots
  let ext := if b.ext then some ((body.getD slots.length 0).extractLsb' 0 63) else none
  if b.low ≠ 0 || b.presence = 0 then .error (illBundle 2 15 15)
  else match markedPos slots body with
    | some pos => .error (illBundle 2 pos 15)
    | none =>
      if 2560 < b.weight then .error (illBundle 4 15 15)
      else match decodeSyls ctx ext slots body with
        | .error e => .error e
        | .ok syls => checkBundle ctx b syls

/-- The instruction of a bundle of one syllable. -/
def soleInstr (ctx : DecCtx) (ws : List Word) : Option Instr :=
  match decodeBundle ctx ws with
  | .error _ => none
  | .ok b => match b.syls with
    | [x] => some x.instr
    | _ => none

/-- A seat with every register and the M claim, the array configured as at its creation (R264). -/
def DecCtx.full : DecCtx := { vu := 2048, wu := 2048, claim := true, delay := false, fa := 2, fb := 2 }

/-- The words of a number, least significant first. -/
def wordsOf : Nat → Nat → List Word
  | 0, _ => []
  | n + 1, w => BitVec.ofNat 64 w :: wordsOf n (w / 2 ^ 64)

/-- The instruction the decoder reads from the bundle whose words are w, the BCW in the lowest 64 bits: the one syllable of
that bundle. The longest bundle has 13 words. -/
def decodeTableWord (nbits w : Nat) : Option Instr := soleInstr .full (wordsOf 13 (w % 2 ^ nbits))

/-! ## The encoder -/

/-- The slot, the syllable word and the extension value of an instruction, from the encoding tables of the entries; none for
a step of the part that no syllable encodes. -/
def encode : Instr → Option (Slot × Word × Option (BitVec 63))
  | .br g imm => some (.c, packI 0x00 g 0 0 imm.field 0, imm.extension)
  | .brq g z a imm => some (.c, packI 0x01 g 0 a imm.field (bit z), imm.extension)
  | .jmp g a => some (.c, packR 0x02 g 0 a 0 0 0 0 0 0, none)
  | .call g d imm => some (.c, packI 0x03 g d 0 imm.field 0, imm.extension)
  | .calli g d a => some (.c, packR 0x04 g d a 0 0 0 0 0 0, none)
  | .ret g a => some (.c, packR 0x05 g 0 a 0 0 0 0 0 0, none)
  | .suspend g a b => some (.c, packR 0x06 g 0 a b 0 0 0 0 0, none)
  | .yield g => some (.c, packR 0x07 g 0 0 0 0 0 0 0 0, none)
  | .halt g => some (.c, packR 0x08 g 0 0 0 0 0 0 0 0, none)
  | .trap g imm => some (.c, packI 0x09 g 0 0 imm.field 0, imm.extension)
  | .tret g => some (.c, packR 0x0A g 0 0 0 0 0 0 0 0, none)
  | .brk g => some (.c, packR 0x0B g 0 0 0 0 0 0 0 0, none)
  | .add g x d a b => some (x.slot, packR 0x00 g d a b 0 0 0 0 0, none)
  | .sub g x d a b => some (x.slot, packR 0x01 g d a b 0 0 0 0 0, none)
  | .addi g x d a imm => some (x.slot, packI 0x02 g d a imm.field 0, imm.extension)
  | .mul g x d a b => some (x.slot, packR 0x03 g d a b 0 0 0 0 0, none)
  | .mulh g x d a b => some (x.slot, packR 0x04 g d a b 0 0 0 0 0, none)
  | .mulhu g x d a b => some (x.slot, packR 0x05 g d a b 0 0 0 0 0, none)
  | .and g x d a b => some (x.slot, packR 0x06 g d a b 0 0 0 0 0, none)
  | .or g x d a b => some (x.slot, packR 0x07 g d a b 0 0 0 0 0, none)
  | .xor g x d a b => some (x.slot, packR 0x08 g d a b 0 0 0 0 0, none)
  | .andn g x d a b => some (x.slot, packR 0x09 g d a b 0 0 0 0 0, none)
  | .shl g x d a b => some (x.slot, packR 0x0A g d a b 0 0 0 0 0, none)
  | .shr g x d a b => some (x.slot, packR 0x0B g d a b 0 0 0 0 0, none)
  | .sar g x d a b => some (x.slot, packR 0x0C g d a b 0 0 0 0 0, none)
  | .rot g x d a b => some (x.slot, packR 0x0D g d a b 0 0 0 0 0, none)
  | .min g x d a b => some (x.slot, packR 0x0E g d a b 0 0 0 0 0, none)
  | .max g x d a b => some (x.slot, packR 0x0F g d a b 0 0 0 0 0, none)
  | .minu g x d a b => some (x.slot, packR 0x10 g d a b 0 0 0 0 0, none)
  | .maxu g x d a b => some (x.slot, packR 0x11 g d a b 0 0 0 0 0, none)
  | .clz g x d a => some (x.slot, packR 0x12 g d a 0 0 0 0 0 0, none)
  | .popc g x d a => some (x.slot, packR 0x13 g d a 0 0 0 0 0 0, none)
  | .bfx g x d a pos len => some (x.slot, packR 0x14 g d a pos len 0 0 0 0, none)
  | .bfi g x d a pos len => some (x.slot, packR 0x15 g d a pos len 0 0 0 0, none)
  | .li g x d imm => some (x.slot, packI 0x16 g d 0 imm.field 0, imm.extension)
  | .cmp g x d a b cc => some (x.slot, packR 0x17 g d a b cc 0 0 0 0, none)
  | .sel g x d a b c => some (x.slot, packR 0x18 g d a b c 0 0 0 0, none)
  | .ldg g z sx d a imm => some (.i, packI (0x20 + z.code) g d a imm.field (bit sx), imm.extension)
  | .stg g z d a imm => some (.i, packI (0x24 + z.code) g d a imm.field 0, imm.extension)
  | .ldga g z sc d a b => some (.i, packR (0x28 + z.code) g d a b 0 0 0 0 sc.code, none)
  | .stgl g z sc d a b => some (.i, packR (0x2C + z.code) g d a b 0 0 0 0 sc.code, none)
  | .pref g wr a imm => some (.i, packI 0x46 g 0 a imm.field (bit wr), imm.extension)
  | .ldp g z sx d a imm => some (.j, packI (0x20 + z.code) g d a imm.field (bit sx), imm.extension)
  | .stp g z d a imm => some (.j, packI (0x24 + z.code) g d a imm.field 0, imm.extension)
  | .ldpa g z sc d a b => some (.j, packR (0x28 + z.code) g d a b 0 0 0 0 sc.code, none)
  | .stpl g z sc d a b => some (.j, packR (0x2C + z.code) g d a b 0 0 0 0 sc.code, none)
  | .sqld g d a imm => some (.j, packI 0x40 g d a imm.field 0, imm.extension)
  | .agadd g w o d a b => some (.i, packR (0x30 + w.code) g d a b 0 0 0 0 o.code, none)
  | .agincw g w o d a b => some (.i, packR (0x32 + w.code) g d a b 0 0 0 0 o.code, none)
  | .agaddb g w o d a b c => some (.i, packR (0x34 + w.code) g d a b c 0 0 0 o.code, none)
  | .agcas g w o d a b c => some (.i, packR (0x36 + w.code) g d a b c 0 0 0 o.code, none)
  | .agxch g w o d a b => some (.i, packR (0x38 + w.code) g d a b 0 0 0 0 o.code, none)
  | .agmin g w o d a b => some (.i, packR (0x3A + w.code) g d a b 0 0 0 0 o.code, none)
  | .agmax g w o d a b => some (.i, packR (0x3C + w.code) g d a b 0 0 0 0 o.code, none)
  | .agand g w o d a b => some (.i, packR (0x3E + w.code) g d a b 0 0 0 0 o.code, none)
  | .agor g w o d a b => some (.i, packR (0x40 + w.code) g d a b 0 0 0 0 o.code, none)
  | .agxor g w o d a b => some (.i, packR (0x42 + w.code) g d a b 0 0 0 0 o.code, none)
  | .agfadd g w o d a b => some (.i, packR (0x44 + w.code) g d a b 0 0 0 0 o.code, none)
  | .apadd g w o d a b => some (.j, packR (0x30 + w.code) g d a b 0 0 0 0 o.code, none)
  | .apincw g w o d a b => some (.j, packR (0x32 + w.code) g d a b 0 0 0 0 o.code, none)
  | .apaddb g w o d a b c => some (.j, packR (0x34 + w.code) g d a b c 0 0 0 o.code, none)
  | .apcas g w o d a b c => some (.j, packR (0x36 + w.code) g d a b c 0 0 0 o.code, none)
  | .apxch g w o d a b => some (.j, packR (0x38 + w.code) g d a b 0 0 0 0 o.code, none)
  | .apmin g w o d a b => some (.j, packR (0x3A + w.code) g d a b 0 0 0 0 o.code, none)
  | .apmax g w o d a b => some (.j, packR (0x3C + w.code) g d a b 0 0 0 0 o.code, none)
  | .apfadd g w o d a b => some (.j, packR (0x3E + w.code) g d a b 0 0 0 0 o.code, none)
  | .fadd g t rm d a b => some (.f, packR (0x00 + t.code) g d a b 0 0 0 0 rm.code, none)
  | .fsub g t rm d a b => some (.f, packR (0x04 + t.code) g d a b 0 0 0 0 rm.code, none)
  | .fmul g t rm d a b => some (.f, packR (0x08 + t.code) g d a b 0 0 0 0 rm.code, none)
  | .ffma g t rm d a b c => some (.f, packR (0x0C + t.code) g d a b c 0 0 0 rm.code, none)
  | .fdiv g t rm d a b => some (.f, packR (0x10 + t.code) g d a b 0 0 0 0 rm.code, none)
  | .fsqrt g t rm d a => some (.f, packR (0x14 + t.code) g d a 0 0 0 0 0 rm.code, none)
  | .frsq g t rm d a => some (.f, packR (0x18 + t.code) g d a 0 0 0 0 0 rm.code, none)
  | .fmin g t d a b => some (.f, packR (0x1C + t.code) g d a b 0 0 0 0 0, none)
  | .fmax g t d a b => some (.f, packR (0x20 + t.code) g d a b 0 0 0 0 0, none)
  | .fabs g t d a => some (.f, packR (0x24 + t.code) g d a 0 0 0 0 0 0, none)
  | .fneg g t d a => some (.f, packR (0x28 + t.code) g d a 0 0 0 0 0 0, none)
  | .fcmp g t d a b cc => some (.f, packR (0x2C + t.code) g d a b cc 0 0 0 0, none)
  | .fclass g t d a mask => some (.f, packR (0x30 + t.code) g d a mask 0 0 0 0 0, none)
  | .fcvt g rm d a b c => some (.f, packR 0x40 g d a b c 0 0 0 rm.code, none)
  | .fsel g d a b c => some (.f, packR 0x41 g d a b c 0 0 0 0, none)
  | .fli g d imm => some (.f, packI 0x42 g d 0 imm.field 0, imm.extension)
  | .fliHi g d imm => some (.f, packI 0x42 g d 0 imm.field 1, imm.extension)
  | .vadd g s t rm d a b => some (s.slot, packR (0x00 + t.code) g d a.field b.field 0 a.mode b.mode 0 rm.code, none)
  | .vsub g s t rm d a b => some (s.slot, packR (0x04 + t.code) g d a.field b.field 0 a.mode b.mode 0 rm.code, none)
  | .vmul g s t rm d a b => some (s.slot, packR (0x08 + t.code) g d a.field b.field 0 a.mode b.mode 0 rm.code, none)
  | .vfma g s t rm d a b c => some (s.slot, packR (0x0C + t.code) g d a.field b.field c.field a.mode b.mode c.mode rm.code, none)
  | .vfms g s t rm d a b c => some (s.slot, packR (0x10 + t.code) g d a.field b.field c.field a.mode b.mode c.mode rm.code, none)
  | .vmulZg g s t rm d a b => some (s.slot, packR (0x1C + t.code) g d a.field b.field 0 a.mode b.mode 0 rm.code, none)
  | .vfmaZg g s t rm d a b c => some (s.slot, packR (0x20 + t.code) g d a.field b.field c.field a.mode b.mode c.mode rm.code, none)
  | .vfmsZg g s t rm d a b c => some (s.slot, packR (0x24 + t.code) g d a.field b.field c.field a.mode b.mode c.mode rm.code, none)
  | .vmin g s t d a b => some (s.slot, packR (0x14 + t.code) g d a.field b.field 0 a.mode b.mode 0 0, none)
  | .vmax g s t d a b => some (s.slot, packR (0x18 + t.code) g d a.field b.field 0 a.mode b.mode 0 0, none)
  | .vabs g s t d a => some (s.slot, packR (0x28 + t.code) g d a.field 0 0 a.mode 0 0 0, none)
  | .vneg g s t d a => some (s.slot, packR (0x2C + t.code) g d a.field 0 0 a.mode 0 0 0, none)
  | .vcmp g s t d a b cc => some (s.slot, packR (0x30 + t.code) g d a.field b.field cc a.mode b.mode 0 0, none)
  | .vcmpAny g s t d a b cc => some (s.slot, packR (0x30 + t.code) g d a.field b.field cc a.mode b.mode 0 1, none)
  | .vcmpAll g s t d a b cc => some (s.slot, packR (0x30 + t.code) g d a.field b.field cc a.mode b.mode 0 2, none)
  | .vsel g s w d a b c => some (s.slot, packR 0x51 g d a.field b.field c.field a.mode b.mode c.mode w.code, none)
  | .vdot g s t rm d a b c => some (s.slot, packR (0x34 + t.code) g d a.field b.field c.field a.mode b.mode c.mode rm.code, none)
  | .vred g s t rm d a => some (s.slot, packR (0x38 + t.code) g d a.field 0 0 a.mode 0 0 rm.code, none)
  | .vscan g s t rm d a => some (s.slot, packR (0x3C + t.code) g d a.field 0 0 a.mode 0 0 rm.code, none)
  | .vexp2 g s t d a => some (s.slot, packR (0x40 + t.code) g d a.field 0 0 a.mode 0 0 0, none)
  | .vlog2 g s t d a => some (s.slot, packR (0x44 + t.code) g d a.field 0 0 a.mode 0 0 0, none)
  | .vrcp g s t d a => some (s.slot, packR (0x48 + t.code) g d a.field 0 0 a.mode 0 0 0, none)
  | .vrsq g s t d a => some (s.slot, packR (0x4C + t.code) g d a.field 0 0 a.mode 0 0 0, none)
  | .vcvt g s rm d a b c => some (s.slot, packR 0x50 g d a.field b c a.mode 0 0 rm.code, none)
  | .vperm g s d a b c => some (s.slot, packR 0x52 g d a.field b.field c.field a.mode b.mode c.mode 0, none)
  | .vbcast g s w d a b => some (s.slot, packR 0x53 g d a.field b 0 a.mode 0 0 w.code, none)
  | .vrotl g s d a b => some (s.slot, packR 0x54 g d a.field b 0 a.mode 0 0 0, none)
  | .viadd g s w d a b => some (s.slot, packR 0x55 g d a.field b.field 0 a.mode b.mode 0 w.code, none)
  | .vimul g s w d a b => some (s.slot, packR 0x56 g d a.field b.field 0 a.mode b.mode 0 w.code, none)
  | .vand g s d a b => some (s.slot, packR 0x57 g d a.field b.field 0 a.mode b.mode 0 0, none)
  | .vor g s d a b => some (s.slot, packR 0x58 g d a.field b.field 0 a.mode b.mode 0 0, none)
  | .vxor g s d a b => some (s.slot, packR 0x59 g d a.field b.field 0 a.mode b.mode 0 0, none)
  | .vshl g s w d a b => some (s.slot, packR 0x5A g d a.field b.field 0 a.mode b.mode 0 w.code, none)
  | .vshr g s w d a b => some (s.slot, packR 0x5B g d a.field b.field 0 a.mode b.mode 0 w.code, none)
  | .vidx g s d b c => some (s.slot, packR 0x5C g d 0 b c 0 0 0 0, none)
  | .vsetx g s d a b => some (s.slot, packR 0x5D g d a.field b 0 a.mode 0 0 0, none)
  | .vsetxAdd g s d a b => some (s.slot, packR 0x5D g d a b 0 0 0 0 1, none)
  | .vsetxLi g s d b => some (s.slot, packR 0x5D g d 0 b 0 0 0 0 2, none)
  | .vpopq g s d => some (s.slot, packR 0x5E g d 0 0 0 0 0 0 0, none)
  | .vldp g s s4 d a imm => some (s.slot, packI 0x60 g d a imm.field (bit s4), imm.extension)
  | .vstp g s s4 d a imm => some (s.slot, packI 0x61 g d a imm.field (bit s4), imm.extension)
  | .vldps g s s4 d a imm => some (s.slot, packI 0x62 g d a imm.field (bit s4), imm.extension)
  | .kmov g df sf d a => some (.k, packR 0x00 g d a 0 (kfiles df sf) 0 0 0 0, none)
  | .kvec g df sf d a => some (.k, packR 0x01 g d a 0 (kfiles df sf) 0 0 0 0, none)
  | .kext g df sf d a b => some (.k, packR 0x02 g d a b (kfiles df sf) 0 0 0 0, none)
  | .kins g df sf d a b => some (.k, packR 0x03 g d a b (kfiles df sf) 0 0 0 0, none)
  | .kbc g df sf d a => some (.k, packR 0x04 g d a 0 (kfiles df sf) 0 0 0 0, none)
  | .eli g d imm => some (.e, packI 0x00 g d 0 imm.field 0, imm.extension)
  | .eadd g d a b => some (.e, packR 0x01 g d a b 0 0 0 0 0, none)
  | .emov g d a => some (.e, packR 0x02 g d a 0 0 0 0 0 0, none)
  | .csrrd g d imm => some (.e, packI 0x14 g d 0 imm.field 0, imm.extension)
  | .csrwr g a imm => some (.e, packI 0x15 g 0 a imm.field 0, imm.extension)
  | .semsig g ret d a imm => some (.e, packI 0x07 g d a imm.field (bit ret), imm.extension)
  | .semwait g a imm => some (.e, packI 0x08 g 0 a imm.field 0, imm.extension)
  | .fence g sc k => some (.e, packR (0x10 + sc.code7) g 0 0 0 0 0 0 0 k.code, none)
  | .phase g d => some (.e, packR 0x0E g d 0 0 0 0 0 0 0, none)
  | .launch g d a b => some (.e, packR 0x0F g d a b 0 0 0 0 0, none)
  | .copy g d a b => some (.e, packR 0x03 g d a b 0 0 0 0 0, none)
  | .copyp g d a b => some (.e, packR 0x04 g d a b 0 0 0 0 0, none)
  | .cwait g a b c => some (.e, packR 0x05 g 0 a b c 0 0 0 0, none)
  | .tlrd g d b c => some (.e, packR 0x06 g d 0 b c 0 0 0 0, none)
  | .tlrdErr g d b c => some (.e, packR 0x06 g d 0 b c 0 0 0 1, none)
  | .tlrdErrc g d b c => some (.e, packR 0x06 g d 0 b c 0 0 0 2, none)
  | .bpost g d a b c => some (.e, packR 0x09 g d a b c 0 0 0 0, none)
  | .bview g d a => some (.e, packR 0x0A g d a 0 0 0 0 0 0, none)
  | .bviewWord g d a b => some (.e, packR 0x0A g d a b 0 0 0 0 1, none)
  | .bread g d a b c => some (.e, packR 0x0B g d a b c 0 0 0 0, none)
  | .badv g d a b => some (.e, packR 0x0C g d a b 0 0 0 0 0, none)
  | .barr g d a => some (.e, packR 0x0D g d a 0 0 0 0 0 0, none)
  | .strset g a b c => some (.e, packR 0x16 g 0 a b c 0 0 0 0, none)
  | .strtap g a b c => some (.e, packR 0x17 g 0 a b c 0 0 0 0, none)
  | .ringsetGeom g a b => some (.e, packR 0x18 g 0 a b 0 0 0 0 0, none)
  | .ringsetAdvance g a b => some (.e, packR 0x18 g 0 a b 1 0 0 0 0, none)
  | .ringsetRd g d b => some (.e, packR 0x18 g d 0 b 2 0 0 0 0, none)
  | .tlbinv g a b => some (.e, packR 0x19 g 0 a b 0 0 0 0 0, none)
  | .icflush g a b => some (.e, packR 0x1A g 0 a b 0 0 0 0 0, none)
  | .mcfg g b c => some (.m, packR 0x00 g 0 0 b c 0 0 0 0, none)
  | .mzero g d => some (.m, packR 0x01 g d 0 0 0 0 0 0 0, none)
  | .macc g a b => some (.m, packR 0x02 g 0 a b 0 0 0 0 0, none)
  | .maccZg g a b => some (.m, packR 0x03 g 0 a b 0 0 0 0 0, none)
  | .maccs g a b => some (.m, packR 0x04 g 0 a b 0 0 0 0 0, none)
  | .mpush g d a b c => some (.m, packR 0x05 g d a b c 0 0 0 0, none)
  | .mshift g d => some (.m, packR 0x06 g d 0 0 0 0 0 0 0, none)
  | .mdrain g d a => some (.m, packR 0x07 g d a 0 0 0 0 0 0, none)
  | .sprune g a b c => some (.s, packR 0x00 g 0 a b c 0 0 0 0, none)
  | .sprunet g a b c => some (.s, packR 0x01 g 0 a b c 0 0 0 0, none)
  | .sregrow g a b c => some (.s, packR 0x02 g 0 a b c 0 0 0 0, none)
  | .shdr g d a => some (.s, packR 0x03 g d a 0 0 0 0 0 0, none)
  | .shdrW g a c => some (.s, packR 0x03 g 0 a 0 c 0 0 0 1, none)
  | .shdrCk g a => some (.s, packR 0x03 g 0 a 0 0 0 0 0 2, none)
  | .scheck g d a => some (.s, packR 0x04 g d a 0 0 0 0 0 0, none)
  | .sexpand g a b => some (.s, packR 0x05 g 0 a b 0 0 0 0 0, none)
  | .xadd g d a b => some (.x, packR 0x00 g d a b.field 0 0 0 0 b.code, none)
  | .xmul g d a b => some (.x, packR 0x01 g d a b.field 0 0 0 0 b.code, none)
  | .xand g d a b => some (.x, packR 0x02 g d a b.field 0 0 0 0 b.code, none)
  | .xshl g d a b => some (.x, packR 0x03 g d a b.field 0 0 0 0 b.code, none)
  | .xshr g d a b => some (.x, packR 0x04 g d a b.field 0 0 0 0 b.code, none)
  | .xldp g d a imm => some (.x, packI 0x05 g d a imm.field 0, imm.extension)
  | .xpush g gr a c => some (.x, packR 0x06 g 0 a 0 c 0 0 0 gr.code, none)
  | .xpushNb g gr d a c => some (.x, packR 0x07 g d a 0 c 0 0 0 gr.code, none)
  | .xscat g gr a b c => some (.x, packR 0x08 g 0 a b c 0 0 0 gr.code, none)
  | .xscatNb g gr d a b c => some (.x, packR 0x09 g d a b c 0 0 0 gr.code, none)
  | .xscata g gr a b c => some (.x, packR 0x0A g 0 a b c 0 0 0 gr.code, none)
  | .xscataNb g gr d a b c => some (.x, packR 0x0B g d a b c 0 0 0 gr.code, none)
  | .xhash g d a c => some (.x, packR 0x0C g d a 0 c 0 0 0 0, none)
  | .xins g d a b c => some (.x, packR 0x0D g d a b c 0 0 0 0, none)
  | .xwalk g csr d a c => some (.x, packR 0x0E g d a 0 c 0 0 0 (bit csr), none)
  | .bundleIssue _ _ => none
  | .bundleComplete _ _ => none
  | .loadDataReturn _ _ _ => none
  | .seatSwitch _ => none
  | .quantumExpiry _ => none
  | .gearPoint _ => none
  | .walk _ _ _ => none
  | .walkComplete _ _ _ => none
  | .atomicApply _ _ _ => none
  | .atomicReply _ _ _ => none
  | .requestResend _ _ _ => none
  | .phaseRelease _ _ _ => none
  | .boardSerialise _ _ => none
  | .boardReply _ _ => none
  | .barrierArrival _ _ => none
  | .barrierRelease _ => none
  | .scaleArrive _ _ _ => none
  | .ringTileFill _ _ => none
  | .sparsityCmdComplete _ => none
  | .gatherArrive _ _ => none
  | .scatterComplete _ _ _ => none
  | .copyComplete _ _ => none
  | .checkedCheck _ _ => none
  | .trapEntry _ _ => none
  | .suspendSpill _ _ => none
  | .wakeReady _ _ => none
  | .resume _ _ => none
  | .seatRecord _ _ => none
  | .preemptRequest _ _ => none
  | .preemptTimeout _ _ => none
  | .preemptSpill _ _ => none
  | .strandKill _ _ => none
  | .launchPacket _ _ => none
  | .copyPacket _ _ => none
  | .copyxPacket _ _ => none
  | .signalPacket _ _ => none
  | .waitallPacket _ _ => none
  | .launchStart _ _ => none
  | .recordCreate _ _ _ _ _ => none
  | .priorityAgeing _ _ => none
  | .budgetExpiry _ _ => none
  | .launchComplete _ _ => none
  | .crossDieTimeout _ _ _ => none
  | .podPhaseRelease _ _ _ => none
  | .tenancyKill _ => none
  | .fumarolePass _ => none
  | .fumaroleAbandon _ => none
  | .eventSend _ => none
  | .storeApply _ _ _ => none
  | .pairReturnToService _ _ => none
  | .scanSelfTestComplete _ _ _ => none
  | .semWaitComplete _ _ => none
  | .resultWriteback _ => none
  | .gearWrite _ _ => none
  | .bankOpComplete _ => none
  | .deferredTrap _ _ => none
  | .debugHalt _ _ => none
  | .debugResume _ _ => none
  | .debugStep _ _ => none
  | .debugAccess _ _ _ _ _ _ => none
  | .cancel _ _ => none
  | .tcbResetKill _ => none
  | .tcbResetUnfreeze _ => none
  | .pageRelease _ _ => none
  | .queueEnable _ _ _ => none
  | .notifyWrite _ _ _ _ => none
  | .tueWrite => none
  | .flushva => none
  | .flushten => none
  | .tueRbaseWrite _ => none
  | .brdcfgCreate _ _ _ => none
  | .brdcfgFree _ _ => none
  | .brdcfgGrant _ _ _ => none
  | .barcfgWrite _ _ => none
  | .recareaWrite _ _ => none
  | .tablebaseWrite _ _ => none
  | .xdtoWrite _ => none
  | .keydatWrite _ => none
  | .regWrite _ _ _ => none
  | .peerLoss _ => none
  | .laneFault _ _ => none
  | .linkRetrain _ => none
  | .retrainTimeout _ => none
  | .flitReplay _ => none
  | .fabricRequestIn _ _ => none
  | .hostAccess _ _ _ _ _ => none
  | .atsInvalidate _ _ => none
  | .pcieLinkDegrade => none
  | .ueConsume _ _ _ _ _ _ => none
  | .ce _ _ => none
  | .scrub _ _ _ => none
  | .pairCheckpoint _ _ => none
  | .pairMismatch _ _ => none
  | .eventPost _ _ _ _ => none
  | .eventRetry _ => none
  | .packageReset => none
  | .bringupLevel => none
  | .bringupFail => none
  | .measuredBoot _ _ _ => none
  | .spdmKeyBind _ _ => none
  | .peerRemoveDeclare _ => none
  | .lineWriteBack _ => none
  | .linkUp _ => none
  | .linkRetrainComplete _ => none
  | .pcieRetrainComplete => none
  | .hostLinkReturn => none
  | .dieDebugHalt _ => none
  | .dieDebugResume _ => none
  | .routeTableWrite _ _ => none

/-- The bundle that holds one instruction alone, with the weight its syllable needs: a BCW, the syllable, and the extension
word where it uses one (R34, R35). -/
def bundleOf (i : Instr) : List Word :=
  match encode i with
  | none => []
  | some (slot, w, ext) =>
    let f := Fields.of w
    let weight := match formOf 2 2 slot f ext with
      | none => 0
      | some m => (24 + synWeight m f + 1) / 2
    let bcw := BitVec.ofNat 64 (2 ^ 63 + 2 ^ (62 - slot.pos) + weight * 2 ^ 40 + b2n ext.isSome * 128)
    match ext with
    | none => [bcw, w]
    | some e => [bcw, w, e.zeroExtend 64]

end Sys2Proof
end

