-- ==== Sys2Proof/Machine/Flags.lean ====
section
/-! DEFINITION. Numbers and flags: the floating-point formats (R53, R54), one rounding with its flags (R61, R62, R66), exact
sums and products (R64, R65, R71), integer conversions (R63), the block formats (R56 to R59), SC16 (R60), the tree and the
prefix sums (R72), the array's accumulation (R73, R74) and the approximate forms (R135). -/

namespace Sys2Proof.Machine

open Sys2Proof

/-- A result and the FSTAT flags it raises: bit 0 NX, 1 UF, 2 OF, 3 DZ, 4 NV (R67). -/
structure FRes where
  bits : Nat
  fl : Nat
deriving DecidableEq, Repr

def flNX : Nat := 1
def flUF : Nat := 2
def flOF : Nat := 4
def flDZ : Nat := 8
def flNV : Nat := 16

/-- A floating-point format: exponent bits, fraction bits, and whether it is E4M3, which has no infinities (R53, R54). -/
structure FFmt where
  ew : Nat
  fw : Nat
  e4 : Bool
deriving DecidableEq, Repr

def fp32 : FFmt := ⟨8, 23, false⟩
def fp16 : FFmt := ⟨5, 10, false⟩
def bf16 : FFmt := ⟨8, 7, false⟩
def e4m3 : FFmt := ⟨4, 3, true⟩
def e5m2 : FFmt := ⟨5, 2, false⟩

/-- The format of a typed form (R117). -/
def ftFmt : FT → FFmt
  | .f32 => fp32 | .h => fp16 | .bf => bf16

/-- The element width of a typed form (R117). -/
def ftWidth : FT → Nat
  | .f32 => 32 | .h => 16 | .bf => 16

/-- Bits of a format. -/
def FFmt.width (f : FFmt) : Nat := f.ew + f.fw + 1
/-- Exponent bias (R53). -/
def FFmt.bias (f : FFmt) : Nat := 2 ^ (f.ew - 1) - 1
/-- The exponent of one step of the subnormals (R53). -/
def FFmt.qmin (f : FFmt) : Int := 1 - (f.bias : Int) - f.fw
/-- The largest exponent field of a finite value (R53, R54). -/
def FFmt.topExp (f : FFmt) : Nat := if f.e4 then 2 ^ f.ew - 1 else 2 ^ f.ew - 2
/-- The exponent of one step of the largest finite value. -/
def FFmt.qmax (f : FFmt) : Int := f.qmin + (f.topExp - 1 : Nat)
/-- The significand of the largest finite value: all ones, but for E4M3's 448 (R53). -/
def FFmt.topMant (f : FFmt) : Nat := if f.e4 then 2 ^ (f.fw + 1) - 2 else 2 ^ (f.fw + 1) - 1
/-- The largest finite encoding, positive. -/
def FFmt.largest (f : FFmt) : Nat := f.topExp * 2 ^ f.fw + (f.topMant - 2 ^ f.fw)
/-- The canonical NaN (R54). -/
def FFmt.nan (f : FFmt) : Nat :=
  if f.e4 then 0x7F else (2 ^ f.ew - 1) * 2 ^ f.fw + 2 ^ (f.fw - 1)
/-- The positive infinity; not asked of E4M3. -/
def FFmt.inf (f : FFmt) : Nat := (2 ^ f.ew - 1) * 2 ^ f.fw
/-- The sign bit. -/
def FFmt.signBit (f : FFmt) (neg : Bool) : Nat := b2n neg * 2 ^ (f.ew + f.fw)
/-- Whether FTZ touches the format: FP32, FP16 and BF16, not the eight-bit formats (R66). -/
def FFmt.flushes (f : FFmt) : Bool := 8 < f.width

/-- An exact value: NaN, an infinity, or (−1)^neg × m × 2^e, a signed zero when m = 0. -/
inductive FVal where
  | nan
  | inf (neg : Bool)
  | fin (neg : Bool) (m : Nat) (e : Int)
deriving DecidableEq, Repr

/-- The value with its sign inverted. -/
def FVal.neg : FVal → FVal
  | .nan => .nan
  | .inf n => .inf (!n)
  | .fin n m e => .fin (!n) m e

/-- The value without its sign. -/
def FVal.abs : FVal → FVal
  | .nan => .nan
  | .inf _ => .inf false
  | .fin _ m e => .fin false m e

/-- Whether the value is a NaN. -/
def FVal.isNan : FVal → Bool
  | .nan => true
  | .inf _ => false
  | .fin _ _ _ => false

/-- The value an encoding stands for; with ftz a subnormal of FP32, FP16 or BF16 reads as a zero (R53, R54, R66). -/
def unpack (f : FFmt) (ftz : Bool) (x : Nat) : FVal :=
  let neg := bitAt x (f.ew + f.fw)
  let ex := field x f.fw f.ew
  let fr := field x 0 f.fw
  if f.e4 && ex == 15 && fr == 7 then .nan
  else if !f.e4 && ex == 2 ^ f.ew - 1 then (if fr == 0 then .inf neg else .nan)
  else if ex == 0 then
    (if ftz && f.flushes then .fin neg 0 0 else .fin neg fr f.qmin)
  else .fin neg (2 ^ f.fw + fr) (f.qmin + (ex - 1 : Nat))

/-- Whether a magnitude with this remainder is rounded up (R61). -/
def roundsUp (rm : RM) (neg : Bool) (quo rem half : Nat) : Bool :=
  match rm with
  | .rne => decide (half < rem) || (rem == half && quo % 2 == 1 && decide (0 < rem))
  | .rz => false
  | .ru => !neg && decide (0 < rem)
  | .rd => neg && decide (0 < rem)

/-- m / 2^sh rounded to an integer, and whether it was inexact (R61). A negative sh multiplies. -/
def roundShift (rm : RM) (neg : Bool) (m : Nat) (sh : Int) : Nat × Bool :=
  if sh ≤ 0 then (m * 2 ^ (-sh).toNat, false)
  else
    let k := sh.toNat
    let quo := m / 2 ^ k
    let rem := m % 2 ^ k
    (quo + b2n (roundsUp rm neg quo rem (2 ^ (k - 1))), rem != 0)

/-- The encoding of an overflowing result (R62). -/
def overflowBits (f : FFmt) (rm : RM) (sat neg : Bool) : Nat :=
  let big := f.signBit neg + f.largest
  if !f.flushes && sat then big
  else
    let toInf := match rm with
      | .rne => true
      | .rz => false
      | .ru => !neg
      | .rd => neg
    if !toInf then big else if f.e4 then f.nan else f.signBit neg + f.inf

/-- Round the exact value (−1)^neg × m × 2^e, m not zero, into a format: the value chosen with the exponent unbounded above
(R61), overflow (R62), underflow and flushing (R66). -/
def roundFin (f : FFmt) (rm : RM) (ftz sat neg : Bool) (m : Nat) (e : Int) : FRes :=
  let q := max ((Nat.log2 m : Int) + e - f.fw) f.qmin
  let (n, inexact) := roundShift rm neg m (q - e)
  let nx := if inexact then flNX else 0
  if f.qmax < q || (q == f.qmax && decide (f.topMant < n)) then ⟨overflowBits f rm sat neg, flOF + flNX⟩
  else if n < 2 ^ f.fw then
    if ftz && f.flushes then ⟨f.signBit neg, flUF + flNX⟩
    else ⟨f.signBit neg + n, if inexact then flUF + flNX else 0⟩
  else ⟨f.signBit neg + (q - f.qmin).toNat * 2 ^ f.fw + n, nx⟩

/-- Round an exact value into a format. An infinity meets E4M3 as R62 says. -/
def roundVal (f : FFmt) (rm : RM) (ftz sat : Bool) : FVal → FRes
  | .nan => ⟨f.nan, 0⟩
  | .inf neg =>
    if f.e4 then (if sat then ⟨f.signBit neg + f.largest, flNV⟩ else ⟨f.nan, flNV⟩)
    else ⟨f.signBit neg + f.inf, 0⟩
  | .fin neg m e => if m = 0 then ⟨f.signBit neg, 0⟩ else roundFin f rm ftz sat neg m e

/-- An exact value and the flags found on the way to it. -/
structure FExact where
  val : FVal
  fl : Nat
deriving DecidableEq, Repr

/-- An exact product; 0 × ∞ is invalid (R64, R65). -/
def mulVal : FVal → FVal → FExact
  | .nan, _ => ⟨.nan, 0⟩
  | .inf _, .nan => ⟨.nan, 0⟩
  | .inf a, .inf b => ⟨.inf (a != b), 0⟩
  | .inf a, .fin b m _ => if m = 0 then ⟨.nan, flNV⟩ else ⟨.inf (a != b), 0⟩
  | .fin _ _ _, .nan => ⟨.nan, 0⟩
  | .fin a m _, .inf b => if m = 0 then ⟨.nan, flNV⟩ else ⟨.inf (a != b), 0⟩
  | .fin a m e, .fin b n k => ⟨.fin (a != b) (m * n) (e + k), 0⟩

/-- The least exponent of the terms that are not zero. -/
def minExp : List FVal → Option Int
  | [] => none
  | .fin _ m e :: r =>
    if m = 0 then minExp r
    else match minExp r with
      | none => some e
      | some k => some (min e k)
  | .nan :: r => minExp r
  | .inf _ :: r => minExp r

/-- The sum of the finite terms in steps of 2^lo. -/
def sumAt (lo : Int) : List FVal → Int
  | [] => 0
  | .fin n m e :: r => (if n then -1 else 1) * ((m * 2 ^ (e - lo).toNat : Nat) : Int) + sumAt lo r
  | .nan :: r => sumAt lo r
  | .inf _ :: r => sumAt lo r

/-- Whether a term is an infinity of the sign. -/
def FVal.isInf (neg : Bool) : FVal → Bool
  | .inf n => n == neg
  | .nan => false
  | .fin _ _ _ => false

/-- Whether a term is −0. -/
def FVal.isNegZero : FVal → Bool
  | .fin n m _ => n && m == 0
  | .nan => false
  | .inf _ => false

/-- An exact sum: NaN terms, which come before all else (log 143), infinities of both signs (R64) and the sign of an exact zero (R65). -/
def sumVal (rm : RM) (ts : List FVal) : FExact :=
  if ts.any FVal.isNan then ⟨.nan, 0⟩
  else if ts.any (FVal.isInf false) then
    (if ts.any (FVal.isInf true) then ⟨.nan, flNV⟩ else ⟨.inf false, 0⟩)
  else if ts.any (FVal.isInf true) then ⟨.inf true, 0⟩
  else
    let lo := (minExp ts).getD 0
    let t := sumAt lo ts
    if t = 0 then ⟨.fin (ts.all FVal.isNegZero || rm == .rd) 0 0, 0⟩
    else ⟨.fin (decide (t < 0)) t.natAbs lo, 0⟩

/-- Round an exact result and add the flags already found. -/
def finish (f : FFmt) (rm : RM) (ftz : Bool) (x : FExact) : FRes :=
  let r := roundVal f rm ftz true x.val
  ⟨r.bits, r.fl ||| x.fl⟩

/-- a + b (R119). -/
def fAdd (f : FFmt) (rm : RM) (ftz : Bool) (a b : Nat) : FRes :=
  finish f rm ftz (sumVal rm [unpack f ftz a, unpack f ftz b])

/-- a − b (R119). -/
def fSub (f : FFmt) (rm : RM) (ftz : Bool) (a b : Nat) : FRes :=
  finish f rm ftz (sumVal rm [unpack f ftz a, (unpack f ftz b).neg])

/-- a × b (R119). -/
def fMul (f : FFmt) (rm : RM) (ftz : Bool) (a b : Nat) : FRes :=
  finish f rm ftz (mulVal (unpack f ftz a) (unpack f ftz b))

/-- The products of a fused form and an addend, summed exactly and rounded once (R71). -/
def fused (f : FFmt) (rm : RM) (ftz : Bool) (ps : List FExact) (c : FVal) : FRes :=
  let s := sumVal rm (c :: ps.map FExact.val)
  finish f rm ftz ⟨s.val, ps.foldl (fun a p => a ||| p.fl) s.fl⟩

/-- a × b + c, or a × b − c (R119, R128). -/
def fFma (f : FFmt) (rm : RM) (ftz sub : Bool) (a b c : Nat) : FRes :=
  let cv := unpack f ftz c
  fused f rm ftz [mulVal (unpack f ftz a) (unpack f ftz b)] (if sub then cv.neg else cv)

/-- The quotient of two non-zero numbers with a sticky last bit, 64 bits and more. -/
def quoVal (neg : Bool) (m : Nat) (e : Int) (n : Nat) (k : Int) : FVal :=
  let sh := 66 + Nat.log2 n
  .fin neg (2 * (m * 2 ^ sh / n) + b2n (m * 2 ^ sh % n != 0)) (e - k - sh - 1)

/-- a / b (R64). -/
def divVal : FVal → FVal → FExact
  | .nan, _ => ⟨.nan, 0⟩
  | .inf _, .nan => ⟨.nan, 0⟩
  | .inf _, .inf _ => ⟨.nan, flNV⟩
  | .inf a, .fin b _ _ => ⟨.inf (a != b), 0⟩
  | .fin _ _ _, .nan => ⟨.nan, 0⟩
  | .fin a _ _, .inf b => ⟨.fin (a != b) 0 0, 0⟩
  | .fin a m e, .fin b n k =>
    if n = 0 then (if m = 0 then ⟨.nan, flNV⟩ else ⟨.inf (a != b), flDZ⟩)
    else if m = 0 then ⟨.fin (a != b) 0 0, 0⟩
    else ⟨quoVal (a != b) m e n k, 0⟩

/-- The integer square root, bit by bit from bit n − 1 down. -/
def isqrtFrom (x : Nat) : Nat → Nat → Nat
  | 0, r => r
  | n + 1, r => if (r + 2 ^ n) * (r + 2 ^ n) ≤ x then isqrtFrom x n (r + 2 ^ n) else isqrtFrom x n r

/-- ⌊√x⌋. -/
def isqrt (x : Nat) : Nat := isqrtFrom x (Nat.log2 x / 2 + 1) 0

/-- √a (R64). -/
def sqrtVal : FVal → FExact
  | .nan => ⟨.nan, 0⟩
  | .inf n => if n then ⟨.nan, flNV⟩ else ⟨.inf false, 0⟩
  | .fin n m e =>
    if m = 0 then ⟨.fin n 0 0, 0⟩
    else if n then ⟨.nan, flNV⟩
    else
      let par := (e % 2).toNat
      let big := m * 2 ^ (par + 128)
      let r := isqrt big
      ⟨.fin false (2 * r + b2n (r * r != big)) ((e - par - 128) / 2 - 1), 0⟩

/-- 1 / √a (R64, R119). -/
def rsqVal : FVal → FExact
  | .nan => ⟨.nan, 0⟩
  | .inf n => if n then ⟨.nan, flNV⟩ else ⟨.fin false 0 0, 0⟩
  | .fin n m e =>
    if m = 0 then ⟨.inf n, flDZ⟩
    else if n then ⟨.nan, flNV⟩
    else
      let k := 256 + (e % 2).toNat
      let r := isqrt (2 ^ k / m)
      ⟨.fin false (2 * r + b2n (m * r * r != 2 ^ k)) ((-e - k) / 2 - 1), 0⟩

/-- a / b in a format. -/
def fDiv (f : FFmt) (rm : RM) (ftz : Bool) (a b : Nat) : FRes :=
  finish f rm ftz (divVal (unpack f ftz a) (unpack f ftz b))
/-- √a in a format. -/
def fSqrt (f : FFmt) (rm : RM) (ftz : Bool) (a : Nat) : FRes := finish f rm ftz (sqrtVal (unpack f ftz a))
/-- 1/√a in a format. -/
def fRsq (f : FFmt) (rm : RM) (ftz : Bool) (a : Nat) : FRes := finish f rm ftz (rsqVal (unpack f ftz a))

/-- Whether |m × 2^e| < |n × 2^k|. -/
def magLt (m : Nat) (e : Int) (n : Nat) (k : Int) : Bool :=
  let lo := min e k
  m * 2 ^ (e - lo).toNat < n * 2 ^ (k - lo).toNat

/-- a < b on values that are not NaN; −0 equals +0 (R65). -/
def valLt : FVal → FVal → Bool
  | .nan, _ => false
  | .inf _, .nan => false
  | .fin _ _ _, .nan => false
  | .inf a, .inf b => a && !b
  | .inf a, .fin _ _ _ => a
  | .fin _ _ _, .inf b => !b
  | .fin a m e, .fin b n k =>
    if m = 0 && n = 0 then false
    else if m = 0 then !b
    else if n = 0 then a
    else if a != b then a
    else if a then magLt n k m e else magLt m e n k

/-- Whether a is taken as the lesser of two values that are not NaN, −0 below +0 (R65). -/
def valBelow (a b : FVal) : Bool :=
  valLt a b || (!valLt b a && (match a with
    | .nan => false
    | .inf n => n
    | .fin n _ _ => n))

/-- The minimum or the maximum of two values (R65). -/
def minMaxVal (mx : Bool) (a b : FVal) : FVal :=
  if a.isNan then b else if b.isNan then a
  else if valBelow a b != mx then a else b

/-- FMIN and FMAX on encodings (R120). -/
def fMinMax (f : FFmt) (ftz mx : Bool) (a b : Nat) : FRes :=
  roundVal f .rne ftz true (minMaxVal mx (unpack f ftz a) (unpack f ftz b))

/-- FABS (R120). -/
def fAbs (f : FFmt) (ftz : Bool) (a : Nat) : FRes := roundVal f .rne ftz true (unpack f ftz a).abs
/-- FNEG (R120). -/
def fNeg (f : FFmt) (ftz : Bool) (a : Nat) : FRes := roundVal f .rne ftz true (unpack f ftz a).neg

/-- The condition codes of FCMP and VCMP (R121). -/
def cmpVal (cc : Nat) (a b : FVal) : Bool :=
  let un := a.isNan || b.isNan
  if cc = 0 then !un && !valLt a b && !valLt b a
  else if cc = 1 then un || valLt a b || valLt b a
  else if cc = 2 then !un && valLt a b
  else if cc = 3 then !un && !valLt b a
  else if cc = 4 then un
  else !un

/-- A compare of encodings (R121, R66). -/
def fCmp (f : FFmt) (ftz : Bool) (cc a b : Nat) : Bool := cmpVal cc (unpack f ftz a) (unpack f ftz b)

/-- The class bit number of the stored bits; FTZ does not apply (R122). -/
def classOf (f : FFmt) (a : Nat) : Nat :=
  match unpack f false a with
  | .nan => 8
  | .inf n => if n then 0 else 7
  | .fin n m _ =>
    if m = 0 then (if n then 3 else 4)
    else if m < 2 ^ f.fw then (if n then 2 else 5)
    else (if n then 1 else 6)

/-- A floating-point value rounded to an n-bit integer, two's complement (R63). -/
def toInt (n : Nat) (rm : RM) : FVal → FRes
  | .nan => ⟨0, flNV⟩
  | .inf neg => ⟨if neg then 2 ^ (n - 1) else 2 ^ (n - 1) - 1, flNV⟩
  | .fin neg m e =>
    let (k, inexact) := roundShift rm neg m (-e)
    if neg then
      if 2 ^ (n - 1) < k then ⟨2 ^ (n - 1), flNV⟩ else ⟨wrapN n (-(k : Int)), if inexact then flNX else 0⟩
    else if 2 ^ (n - 1) ≤ k then ⟨2 ^ (n - 1) - 1, flNV⟩
    else ⟨k, if inexact then flNX else 0⟩

/-- An integer as an exact value. -/
def intVal (x : Int) : FVal := .fin (decide (x < 0)) x.natAbs 0

/-- An integer saturated to n bits, no flag (R63). -/
def satInt (n : Nat) (x : Int) : Nat :=
  if x < -(2 ^ (n - 1) : Nat) then 2 ^ (n - 1)
  else if ((2 ^ (n - 1) - 1 : Nat) : Int) < x then 2 ^ (n - 1) - 1
  else wrapN n x

/-- The floating-point format of a code of R50, FP32 where the code is not one. -/
def codeFmt (c : Nat) : FFmt :=
  if c = 1 then fp16 else if c = 2 then bf16 else if c = 3 then e4m3 else if c = 4 then e5m2 else fp32

/-- The width of an integer format's code (R50). -/
def intWidth (c : Nat) : Nat := if c = 8 then 8 else if c = 9 then 16 else if c = 10 then 32 else 64

/-- Bits of one element of a format that is not a block format (R50). -/
def codeWidth (c : Nat) : Nat := if 8 ≤ c then intWidth c else (codeFmt c).width

/-- The magnitude bits of a block format (R56). -/
def kbMag (c : Nat) : Nat := if c = 5 then 7 else if c = 6 then 4 else 2

/-- The bits of a block (R56). -/
def kbBits (c : Nat) : Nat := 24 + 32 * (kbMag c + 1)

/-- Elements of a format that fit a register (R136). -/
def codeCount (c : Nat) : Nat :=
  if 5 ≤ c && c ≤ 7 then 32 * (2048 / kbBits c) else 2048 / codeWidth c

/-- Whether a code is a block format's. -/
def isKb (c : Nat) : Bool := 5 ≤ c && c ≤ 7

/-- The value of element i of a block (R57). -/
def kbElem (c : Nat) (blk i : Nat) : FVal :=
  let b := kbMag c
  let e := field blk 0 8
  if e = 0 then .fin false 0 0
  else if e = 255 then .nan
  else
    let x := field blk (24 + (b + 1) * i) (b + 1)
    .fin (bitAt x b) (field x 0 b) ((e : Int) - 127 - field blk (8 + 2 * (i / 4)) 2 - b)

/-- The larger magnitude of two values that are not NaN, an infinity above every number. -/
def maxMag : FVal → FVal → FVal
  | .nan, y => y
  | .inf _, _ => .inf false
  | .fin _ m e, .nan => .fin false m e
  | .fin _ _ _, .inf _ => .inf false
  | .fin _ m e, .fin _ n k => if magLt m e n k then .fin false n k else .fin false m e

/-- The shift of a quad (R59): the finest of the four steps at which none of its values saturates. -/
def kbShift (b : Nat) (e : Nat) (qmax : FVal) : Nat :=
  let fits (k : Nat) : Bool := match qmax with
    | .nan => false
    | .inf _ => false
    | .fin _ m x => magLt m x (2 ^ (b + 1) - 1) ((e : Int) - 128 - k - b)
  if fits 3 then 3 else if fits 2 then 2 else if fits 1 then 1 else 0

/-- Sign and magnitude of one element, and its flags (R59). -/
def kbPut (b e sg : Nat) (x : FVal) : FRes :=
  let top := 2 ^ b - 1
  match x with
  | .nan => ⟨0, 0⟩
  | .inf n => ⟨b2n n * 2 ^ b + top, flOF + flNX⟩
  | .fin n m k =>
    let (r, inexact) := roundShift .rne n m ((e : Int) - 127 - sg - b - k)
    if top < r then ⟨b2n n * 2 ^ b + top, flOF + flNX⟩ else ⟨b2n n * 2 ^ b + r, if inexact then flNX else 0⟩

/-- Conversion of 32 values into a block: its bits, and the flags of each element (R59). -/
def kbEncode (c : Nat) (x : Nat → FVal) : Nat × (Nat → Nat) :=
  let b := kbMag c
  let xs := (List.range 32).map x
  if xs.any FVal.isNan then (255, fun _ => 0)
  else
    match xs.foldl maxMag (.fin false 0 0) with
    | .nan => (0, fun _ => 0)
    | .fin _ 0 _ => (0, fun _ => 0)
    | amax =>
      let e : Nat := match amax with
        | .fin _ m k => (min 254 (max 1 ((Nat.log2 m : Int) + k + 128))).toNat
        | .inf _ => 254
        | .nan => 254
      let sg (q : Nat) : Nat := kbShift b e ((List.range 4).foldl (fun a j => maxMag a (x (4 * q + j))) (.fin false 0 0))
      let sgs := (List.range 8).map sg
      let put (i : Nat) : FRes := kbPut b e (sgs.getD (i / 4) 0) (x i)
      (e + packElems 2 sg 8 * 256 + packElems (b + 1) (fun i => (put i).bits) 32 * 2 ^ 24, fun i => (put i).fl)

/-- The value of an SC16 scale (R60). -/
def sc16 (x : Nat) : FVal :=
  let e := field x 8 8
  if e = 0 then .fin false 0 0 else if e = 255 then .nan else .fin false (256 + field x 0 8) ((e : Int) - 135)

/-- The exact value a source element of a conversion has, with the flushing R66 keeps. -/
def convSource (ftz : Bool) (s d x : Nat) : FVal :=
  if 8 ≤ s then intVal (sextN (intWidth s) x)
  else
    let fz := ftz && d != 0 && d != 3 && d != 4
    unpack (codeFmt s) fz x

/-- One value converted into a format that is not a block format (R62, R63, R124). sat is false under .NS. -/
def convVal (ftz sat : Bool) (rm : RM) (d : Nat) (v : FVal) : FRes :=
  if 8 ≤ d then toInt (intWidth d) rm v
  else roundVal (codeFmt d) rm (ftz && d != 0) sat v

/-- One element converted (R124). -/
def convElem (ftz sat : Bool) (rm : RM) (s d x : Nat) : FRes :=
  if 8 ≤ s && 8 ≤ d then ⟨satInt (intWidth d) (sextN (intWidth s) x), 0⟩
  else convVal ftz sat rm d (convSource ftz s d x)

/-- One level of the summation tree: neighbours added and rounded in FP32 (R72). -/
def treeLevel (rm : RM) (ftz : Bool) : List FVal → List FVal × Nat
  | a :: b :: r =>
    let x := finish fp32 rm ftz (sumVal rm [a, b])
    let (t, fl) := treeLevel rm ftz r
    (unpack fp32 ftz x.bits :: t, fl ||| x.fl)
  | [a] => ([a], 0)
  | [] => ([], 0)

/-- The levels of the tree. -/
def treeSum (rm : RM) (ftz : Bool) : Nat → List FVal → Nat → FVal × Nat
  | 0, xs, fl => (xs.headD (.fin false 0 0), fl)
  | n + 1, xs, fl =>
    let (ys, f) := treeLevel rm ftz xs
    treeSum rm ftz n ys (fl ||| f)

/-- VRED: the tree in FP32, then one rounding into the format of the type (R72, R134). -/
def vRed (t : FT) (rm : RM) (ftz : Bool) (x : Vec) : FRes :=
  let n := 2048 / ftWidth t
  let xs := (List.range n).map (fun i => unpack (ftFmt t) ftz (elem x (ftWidth t) i))
  let (v, fl) := treeSum rm ftz (Nat.log2 n) xs 0
  let r := roundVal (ftFmt t) rm ftz true v
  ⟨r.bits, r.fl ||| fl⟩

/-- The prefix sums of a list of values after the prefix a, each rounded in FP32 and then into the format (R72). -/
def scanFrom (f : FFmt) (rm : RM) (ftz : Bool) (a : FVal) : List FVal → List FRes
  | [] => []
  | x :: r =>
    let s := finish fp32 rm ftz (sumVal rm [a, x])
    let v := unpack fp32 ftz s.bits
    let o := roundVal f rm ftz true v
    ⟨o.bits, o.fl ||| s.fl⟩ :: scanFrom f rm ftz v r

/-- VSCAN: the elements of the result with their flags (R72, R134). Element 0 is a[0]. -/
def vScan (t : FT) (rm : RM) (ftz : Bool) (x : Vec) : List FRes :=
  let n := 2048 / ftWidth t
  match (List.range n).map (fun i => unpack (ftFmt t) ftz (elem x (ftWidth t) i)) with
  | [] => []
  | a :: r => roundVal (ftFmt t) rm ftz true a :: scanFrom (ftFmt t) rm ftz a r

/-- One accumulation of the array: RNE into FP32, no FTZ, only NV and OF kept (R69, R73). -/
def maccSum (c : FVal) (ps : List FExact) : FRes :=
  let r := fused fp32 .rne false ps c
  ⟨r.bits, r.fl &&& (flNV + flOF)⟩

/-- The product of a shadow accumulator and two scales, rounded once; then its sum with the accumulator (R74). -/
def scaleUpdate (c h : Nat) (sa sb : FVal) : FRes :=
  let s := mulVal sa sb
  let t := mulVal (unpack fp32 false h) s.val
  let p := finish fp32 .rne false ⟨t.val, t.fl ||| s.fl⟩
  let r := finish fp32 .rne false (sumVal .rne [unpack fp32 false c, unpack fp32 false p.bits])
  ⟨r.bits, (p.fl ||| r.fl) &&& (flNV + flOF)⟩

/-! The approximate forms (R135). A form computes a reference with a hundred bits, and takes the value of the free function
Config.special where that lies within the bound the table gives, the rounded reference elsewhere. -/

/-- ⌊2^64 × log2 y⌋ − bits taken so far, for y in [1, 2) in steps of 2^−80: n more bits by repeated squaring. -/
def log2Bits : Nat → Nat → Nat → Nat
  | 0, _, acc => acc
  | n + 1, y, acc =>
    let z := y * y / 2 ^ 80
    if 2 ^ 81 ≤ z then log2Bits n (z / 2) (2 * acc + 1) else log2Bits n z (2 * acc)

/-- 2^f in steps of 2^−100 for the fraction f of 64 bits; r is 2^(2^−k) for the next bit, highest first. -/
def exp2Bits (f : Nat) : Nat → Nat → Nat → Nat
  | 0, _, acc => acc
  | n + 1, r, acc =>
    let r' := isqrt (r * 2 ^ 100)
    exp2Bits f n r' (if bitAt f n then acc * r' / 2 ^ 100 else acc)

/-- The reference of one approximate form: an exact value, or one with a sticky last bit and whether it is inexact. -/
structure ARef where
  val : FVal
  fl : Nat
  inexact : Bool
deriving DecidableEq, Repr

/-- 2^x (R135). -/
def exp2Ref : FVal → ARef
  | .nan => ⟨.nan, 0, false⟩
  | .inf n => if n then ⟨.fin false 0 0, 0, false⟩ else ⟨.inf false, 0, false⟩
  | .fin n m e =>
    if m = 0 then ⟨.fin false 1 0, 0, false⟩
    else if !magLt m e 1 10 then ⟨.fin false 1 (if n then -1024 else 1024), 0, true⟩
    else
      let fx : Int := (if n then -1 else 1) * (m * 2 ^ (e + 64).toNat / 2 ^ (-(e + 64)).toNat : Nat)
      let cut := m % 2 ^ (-(e + 64)).toNat != 0
      let fx := if n && cut then fx - 1 else fx
      let i := fx / (2 ^ 64 : Nat)
      let f := (fx % (2 ^ 64 : Nat)).toNat
      if f = 0 && !cut then ⟨.fin false 1 i, 0, false⟩
      else ⟨.fin false (2 * exp2Bits f 64 (2 * 2 ^ 100) (2 ^ 100) + 1) (i - 101), 0, true⟩

/-- log2 x (R135). -/
def log2Ref : FVal → ARef
  | .nan => ⟨.nan, 0, false⟩
  | .inf n => if n then ⟨.nan, flNV, false⟩ else ⟨.inf false, 0, false⟩
  | .fin n m e =>
    if m = 0 then ⟨.inf true, flDZ, false⟩
    else if n then ⟨.nan, flNV, false⟩
    else
      let k := Nat.log2 m
      let i : Int := (k : Int) + e
      if m = 2 ^ k then ⟨intVal i, 0, false⟩
      else
        let t : Int := i * (2 ^ 64 : Nat) + log2Bits 64 (m * 2 ^ 80 / 2 ^ k) 0
        ⟨.fin (decide (t < 0)) (2 * t.natAbs + 1) (-65), 0, true⟩

/-- 1/x (R135). -/
def rcpRef (x : FVal) : ARef :=
  match divVal (.fin false 1 0) x with
  | ⟨v, fl⟩ => ⟨v, fl, match x with
    | .nan => false
    | .inf _ => false
    | .fin _ m _ => m != 0 && m != 2 ^ Nat.log2 m⟩

/-- 1/√x (R135). -/
def rsqRef (x : FVal) : ARef :=
  match rsqVal x with
  | ⟨v, fl⟩ => ⟨v, fl, match v with
    | .nan => false
    | .inf _ => false
    | .fin _ m _ => m % 2 == 1 && m != 0⟩

/-- Whether a candidate is a number within k steps of the format at the reference and of its sign, or, where there is one, within the
absolute bound, which reaches across 0 (R135). -/
def withinBound (f : FFmt) (k : Nat) (absBound : Option Int) (v : FVal) (c : FVal) : Bool :=
  match v, c with
  | .fin n m e, .fin n' m' e' =>
    let q := max ((Nat.log2 m : Int) + e - f.fw) f.qmin
    let lo := min (min e e') (min q (absBound.getD q))
    let x : Int := (if n then -1 else 1) * (m * 2 ^ (e - lo).toNat : Nat)
    let y : Int := (if n' then -1 else 1) * (m' * 2 ^ (e' - lo).toNat : Nat)
    let bound := k * 2 ^ (q - lo).toNat + 4 * 2 ^ (e - lo).toNat
    let bound := match absBound with
      | none => bound
      | some b => max bound (2 ^ (b - lo).toNat)
    decide ((x - y).natAbs ≤ bound) && (absBound.isSome || n == n')
  | .fin _ _ _, .nan => false
  | .fin _ _ _, .inf _ => false
  | .nan, _ => false
  | .inf _, _ => false

/-- Whether a number is zero. -/
def FVal.isZero : FVal → Bool
  | .fin _ m _ => m == 0
  | .nan => false
  | .inf _ => false

/-- The element an approximate form gives: form 0 VEXP2, 1 VLOG2, 2 VRCP, 3 VRSQ (R135, log 5). One that rounds to zero is that zero
(R66). -/
def approx (form : Nat) (t : FT) (ftz : Bool) (x : Nat) : FRes :=
  let f := ftFmt t
  let v := unpack f ftz x
  let r := if form = 0 then exp2Ref v else if form = 1 then log2Ref v else if form = 2 then rcpRef v else rsqRef v
  let ref := roundVal f .rne ftz true r.val
  let near := (roundVal f .rne false true r.val).bits
  if !r.inexact || ref.fl &&& flOF != 0 || (unpack f false near).isZero then ⟨ref.bits, ref.fl ||| r.fl⟩
  else
    let k := if t = .f32 && form < 2 then 2 else 1
    let c := Config.special form t.code (x % 2 ^ f.width) % 2 ^ f.width
    let ab := if t = .f32 && form = 1 then some (-22) else none
    let b := if withinBound f k ab r.val (unpack f false c) then c else near
    let tiny := field b f.fw f.ew == 0
    if tiny && ftz then ⟨f.signBit (bitAt b (f.width - 1)), flUF + flNX⟩
    else ⟨b, if tiny then flUF + flNX else flNX⟩

end Sys2Proof.Machine
end

