-- ==== Sys2Proof/Machine/State.lean ====
section
/-! DEFINITION. The state of the part as plain data: seats, cores, dies, tenancies, launches and records, the package's
registers and memory; what a step may end in; and the state after reset. -/

namespace Sys2Proof.Machine

open Sys2Proof

/-! ## A seat -/

/-- One register of a seat. In the I file numbers 64 to 71 are the trap bank i56 to i63, and predicate 8 is the trap bank's
q7 (R149). -/
structure Reg where
  file : File
  n : Nat
deriving DecidableEq, Repr

/-- The register files of a seat (R8). -/
structure Regs where
  /-- q1 to q7 at keys 1 to 7 (R11); q0 is not held. -/
  q : Tab Bool := []
  i : Tab Word := []
  j : Tab Word := []
  f : Tab Word := []
  e : Tab Word := []
  v : Tab Vec := []
  w : Tab Vec := []
  xv : Tab Vec := []
  vm : Tab Vec := []
  vx : Tab (BitVec 16) := []
  wx : Tab (BitVec 16) := []
  /-- HLA, HLB, HLC of V at 0 to 2, of W at 3 to 5 (R24). -/
  hl : Tab Vec := []
  /-- The trap bank's i56 to i63 at 0 to 7, and its q7 (R149). -/
  tb : Tab Word := []
  tq : Bool := false
deriving DecidableEq, Repr

/-- The trap registers (R153). -/
structure TrapRegs where
  cause : Word := 0
  pc : Word := 0
  dly : Word := 0
  info0 : Word := 0
  info1 : Word := 0
  info2 : Word := 0
  info3 : Word := 0
  vec : Word := 0
  /-- The model's own: TDLY stands for the fall-through of a branch not taken, whose address could not be known (log 103). -/
  fall : Bool := false
deriving DecidableEq, Repr

/-- The seat's status and mode registers (R67, R68, R90, R177, R383). -/
structure Modes where
  fstat : Word := 0
  fctl : Word := 0
  emode : Word := 0
  modectl : Word := 0
  srlost : Word := 0
deriving DecidableEq, Repr

/-- The delay state (R26, R30): delay bundles still to execute, the pending target (none: fall through), whether its low bits
were lost (R153), the branch bundle's address and whether a resumption came since it issued (R29). -/
structure Delay where
  count : Nat := 0
  target : Option Word := none
  mis : Bool := false
  branch : Word := 0
  resumed : Bool := false
deriving DecidableEq, Repr

/-- A target still to be checked before its bundle issues (R29): the address TPC gets if the check fails, and whether a
resumption came between. -/
structure TargetCheck where
  tpc : Word
  mis : Bool
  resumed : Bool
deriving DecidableEq, Repr

/-- A result on its way to its register (R16): the cycle it is readable in, the bundle and slot that made it, its
destination (none for flags alone), the value, the FSTAT flags it raises (R69), whether its latency is fixed, and whether it is
one that a CSRRD of FSTAT waits for. -/
structure Flight where
  ready : Nat
  seq : Nat
  pos : Nat
  dst : Option Reg
  val : Nat
  fl : Nat
  fixed : Bool
  fpu : Bool
deriving DecidableEq, Repr

/-- What an access does: a scalar load with or without sign extension, a store, an atomic, a vector load or store of 64 lanes
(R142), an SQLD (R111), an XLDP (R316), the probe of XHASH or XINS (R321, R322), an XWALK (R323), the append of LAUNCH (R202). -/
inductive AccKind where
  | load (sx : Bool)
  | store
  | atom (op : AtOp)
  | vload
  | vstore
  | sqld
  | xldp
  | xhash
  | xins
  | xwalk (csr : Bool)
  | launch
deriving DecidableEq, Repr

/-- How far the probes of an XHASH or XINS have come (R322): the lane, the probe of that lane, whether its slot has been seen empty and is
to be filled, and the results of the lanes before. -/
structure Probe where
  lane : Nat := 0
  slot : Nat := 0
  seen : Bool := false
  got : List Nat := []
deriving DecidableEq, Repr

/-- One access of a strand that has not yet had its whole effect. -/
structure Acc where
  /-- Names the access in events; rises with program order. -/
  id : Nat
  seq : Nat
  pos : Nat
  kind : AccKind
  /-- Whether the address is a pool offset. -/
  pool : Bool
  /-- The virtual address or the offset, as written in TINFO1. -/
  va : Nat
  /-- The bundle's address, for TINFO2 of a deferred trap. -/
  bundle : Word
  /-- Bytes of each part. -/
  n : Nat
  /-- The physical addresses of its parts; none while its translation is missing. -/
  pas : Option (List Nat)
  /-- The encryption key ID of its translation (R213). -/
  key : Nat
  data : Nat
  data2 : Nat
  dst : Option Reg
  dst2 : Option Reg
  acq : Bool
  rel : Bool
  /-- Whether what its release covers must have performed at SYS scope (R226, R227). -/
  sys : Bool := true
  /-- A store or an atomic that the port of the host or of the fabric has accepted and not sent yet: its place in the order of
  acceptance (R226). -/
  accepted : Option Nat := none
  /-- On an ORDERED page (R241). -/
  ordered : Bool
  /-- The cycle before which it does not perform or return: its minimum latency (R209, R247, R362); while its translation is
  missing, the cycle it issued in. -/
  due : Nat
  /-- The old value an atomic's home returned, once applied. -/
  result : Option Nat
  /-- The home a request that left its die went to, with its sequence number and the tick it was sent (R249). -/
  home : Option (Nat × Nat × Nat)
  /-- The tick from which its cross-die timeout counts: none before it is first sent (R364). -/
  sent : Option Nat := none
  probe : Probe := {}
  /-- The module that was lost while it was outstanding to it (R382). -/
  lost : Option Nat := none
deriving DecidableEq, Repr

/-- A trap with what its record holds (R154). -/
structure TrapRec where
  cause : Nat
  info0 : Nat
  info1 : Nat
  info2 : Nat
  info3 : Nat
  /-- Deferred: then seq and pos give the faulting bundle's place in program order (R156). -/
  defer : Bool
  seq : Nat
deriving DecidableEq, Repr

/-- A trap whose entry waits for the seat's loads (R151): the record, TPC and the delay state, and, for a trap whose bundle is judged
again after TRET, the TPC of a deferred trap that goes before it (log 104). -/
structure PendingTrap where
  rcd : TrapRec
  tpc : Word
  dly : Delay
  redo : Option Word
deriving DecidableEq, Repr

/-- A signal not yet applied (R194): semaphore, increment, the bundle, the first slot position of that bundle it does not
cover, whether it also waits for every result of its bundle (SP = 1), and SEMSIG's destination. -/
structure Sig where
  sem : Nat
  inc : Nat
  seq : Nat
  pos : Nat
  all : Bool
  dst : Option Reg
  bundle : Word
deriving DecidableEq, Repr

/-- A wait that holds back the seat's next bundle: the pending waits of R174 and the waits of TLBINV and ICFLUSH (R223). -/
inductive PWait where
  /-- SEMWAIT: semaphore and threshold. -/
  | sem (s t : Nat)
  /-- CWAIT: timeline and value, of another core (cluster, core) under CWAIT.R. -/
  | tl (line : Nat) (n : Word) (other : Option (Nat × Nat))
  /-- PHASE: the e register and the phase number awaited; whether the arrival has been made. -/
  | phase (d num : Nat) (arrived : Bool)
  /-- BARR: the e register, the barrier, the generation and the reset count at arrival; whether the arrival has been made. -/
  | barr (d id gen rst : Nat) (arrived : Bool)
  /-- TLBINV: the range and how many table-update commands to await. -/
  | tlbinv (base n cmds : Nat)
  /-- ICFLUSH: the range to drop once earlier stores have performed. -/
  | icflush (base n seq : Nat)
deriving DecidableEq, Repr

/-- The BCW wait of the bundle that is next (R192). -/
inductive BcwWait where
  | none
  | pending (s t : Nat)
  | taken (s t : Nat)
deriving DecidableEq, Repr

/-- Why a seat is leaving (R99, R173, R186): a SUSPEND with its wake condition and live ranges, a YIELD, a HALT, a pre-emption
or drain, a page wake. -/
inductive Leave where
  | suspend (wake live : Word)
  | yield
  | halt
  | preempt
  | page (va kind : Nat)
deriving DecidableEq, Repr

/-- What a C syllable asks for at the end of its bundle (R26, R98 to R101). -/
inductive Ctl where
  | none
  /-- A branch-class form: the target, none when it is not taken. -/
  | branch (target : Option Word)
  | leave (l : Leave)
  | trap (code : Nat)
  | brk
  | tret
deriving DecidableEq, Repr

/-- A bundle being issued: its place, its own address and the next bundle's, its number, its instructions, its stall count and
declared weight, what its zero-gated forms save (R88), its signals (semaphore, increment) at issue and at completion (R194), its
switch hint, what its C syllable asked for, the reply of a board request (R254), whether a CHECKED page's home has passed
its access (R239), whether every check of its syllables has been made (R15, R107), the cycle it issued in, and what its E syllable
read then of registers that others change (R95, R239, R254). -/
structure Issue where
  core : Nat
  seat : Nat
  pc : Word
  next : Word
  seq : Nat
  syls : List Instr
  stall : Nat := 0
  decl : Nat := 0
  saved : Nat := 0
  sig0 : Option (Nat × Nat) := .none
  sig1 : Option (Nat × Nat) := .none
  hint : Bool := false
  ctl : Ctl := .none
  reply : Option (List Nat) := .none
  passed : Bool := false
  checked : Bool := false
  cycle : Nat := 0
  eval : Option Nat := .none
deriving DecidableEq, Repr

/-- A bundle that waits for a board's reply or for the check of a CHECKED access (R239, R254). -/
structure Held where
  iss : Issue
  /-- The board request: 0 BPOST, 1 BVIEW, 2 BREAD, 3 BADV; handle, participant and value. -/
  board : Option (Nat × Word × Word × Word)
  /-- The CHECKED accesses not yet passed: virtual address, physical address, bytes, and the access's mode: 0 plain read, 1 acquire
  load, 2 plain write, 3 release store, 4 atomic (R235). -/
  check : List (Nat × Nat × Nat × Nat)
  due : Nat
  /-- The board unit's answer: a reason of R262 (0 for success) and the values to return. -/
  answer : Option (Nat × List Nat)
  /-- The home of a board request that has left its die, its sequence number and the tick it was sent (R249, R261). -/
  home : Option (Nat × Nat × Nat) := none
  /-- The tick from which the cross-die timeout of its check or its board request counts (R364). -/
  sent : Option Nat := none
deriving DecidableEq, Repr

/-- What the strand on a seat is (R167, R169, R175): its record's fixed fields, its linear index, and the expert enables
captured with its launch. -/
structure Strand where
  ten : Nat
  lid : Nat
  prio : Nat
  floor : Nat
  mode : Nat
  spill : Nat
  vu : Nat
  wu : Nat
  mclaim : Bool
  pin : Nat
  core : Nat
  dom : Nat
  x : Nat
  y : Nat
  z : Nat
  idx : Nat
  expert : Nat
deriving DecidableEq, Repr

/-- What an access does, for the permissions it needs (R219). -/
inductive Need where
  | read | write | atomic | fetch
deriving DecidableEq, Repr

/-- The outcome of a translation: a physical address with its key and consistency attribute, a failure with its reason code
(R219), no present entry (R220), or no cached translation. -/
inductive Xlate where
  | ok (pa key cons : Nat)
  | fail (reason : Nat)
  | absent
  | miss
deriving DecidableEq, Repr

/-- A translation that the TLBs did not hold, asked for by a fetch, by a bundle that cannot issue without it, or by an engine (R218): the address,
the permission it needs, and, once its walk has ended without a leaf to use, what that found. -/
structure Ask where
  va : Nat
  need : Need
  found : Option Xlate := none
deriving DecidableEq, Repr

/-- A command of the index engine that has not yet returned its data or completed (R314): its number, the strand and seat that
issued it, the id below which that seat's accesses precede it (R299), its kind and operands. -/
structure IdxCmd where
  num : Nat
  ten : Nat
  lid : Nat
  idx : Nat
  seat : Nat
  mark : Nat
  /-- 0 XPUSH, 1 XSCAT, 2 XSCATA. -/
  op : Nat
  gran : Nat
  /-- Global space. -/
  glob : Bool
  /-- One entry per lane: address or offset, and whether the lane takes part. -/
  lanes : List (Nat × Bool)
  data : Vec
  fmt : Nat
  bundle : Word
  seq : Nat
  /-- A page it waits for (R310, R321). -/
  stuck : Option Nat := none
  /-- The cycle it was pushed in (R362). -/
  pushed : Nat := 0
  /-- How far it has come: the lanes (for an XSCATA the elements) done, what has been gathered, the first failure's status, and the granules
  lost (address and module). -/
  did : List Nat := []
  got : List (Nat × Nat) := []
  status : Nat := 0
  lost : List (Nat × Nat) := []
  /-- A physical address whose home does not answer, and the tick from which its timeout counts (R364). -/
  waits : Option (Nat × Nat) := none
  /-- It has consumed an error and never completes (R338). -/
  dead : Bool := false
  /-- The modules lost while a request of it was outstanding to them (R382). -/
  gone : List Nat := []
  /-- The translation it waits for (R218). -/
  ask : Option Ask := none
deriving DecidableEq, Repr

/-- A seat (R8, R25, R170, R178). -/
structure Seat where
  strand : Option Strand := none
  regs : Regs := {}
  trap : TrapRegs := {}
  mode : Modes := {}
  tm : Bool := false
  pc : Word := 0
  delay : Delay := {}
  target : Option TargetCheck := none
  flights : List Flight := []
  accs : List Acc := []
  sigs : List Sig := []
  deferred : List TrapRec := []
  pend : Option PendingTrap := none
  wait : Option PWait := none
  bcw : BcwWait := .none
  /-- Extra cycles for read-port excess already spent on the next bundle (R23), and DEFICIT already counted for it (R19). -/
  ported : Bool := false
  counted : Bool := false
  /-- The next bundle has been held, so that this is no bundle boundary (R178). -/
  holding : Bool := false
  held : Option Held := none
  leave : Option Leave := none
  /-- What a strand that leaves for a page had still to do at the end of its last bundle (R98, R220). -/
  after : Option Leave := none
  /-- The strand has been killed, with this status, and its seat is not yet freed (R333). -/
  killed : Option Nat := none
  /-- Seated, and its state not yet restored (R173). -/
  restore : Bool := false
  /-- Blocked in place because an access missed a present page while a tile was in progress (R290). -/
  stuck : Option Nat := none
  /-- The index data queue (R140). -/
  dataq : List Vec := []
  /-- The tick of a pre-emption request (R186). -/
  preempt : Option Nat := none
  /-- The record whose claim the request serves, by its entry (R186). -/
  askedFor : Option Nat := none
  /-- Halted for the debugger, and stepping (R157, R159). -/
  halted : Bool := false
  step : Bool := false
  /-- To be halted for the debugger once its pending results have returned (R157). -/
  halting : Bool := false
  /-- Bundles issued since the seat last became running (R178), and the tick at which it was seated (R186). -/
  run : Nat := 0
  since : Nat := 0
  /-- The strand's phase number (R201). -/
  phase : Nat := 0
  /-- FSTAT flags that completed in a cycle, and that cycle (R69). -/
  nowFlags : Nat := 0
  nowAt : Nat := 0
  /-- A floating-point bundle whose results the core's hold line waits for, under enabled traps (R70). -/
  fpWait : Option Nat := none
  /-- The cycle before which the stall of a bundle that trapped keeps the next from issuing (R17, R164). -/
  stalled : Nat := 0
  /-- The number of the last bundle issued (R194). -/
  lastSeq : Nat := 0
  /-- The page it leaves for has been released since (R221). -/
  paged : Bool := false
  /-- Which write of TCB_TVEC its TVEC is a copy of (R169). -/
  vecn : Option Nat := none
  /-- Seated at service level 1, whose formats it keeps (R388). -/
  lvl1 : Bool := false
  /-- Its spill has consumed an error and never ends (R338). -/
  spoiled : Bool := false
  /-- The translation that its next bundle waits for (R218). -/
  ask : Option Ask := none
deriving DecidableEq, Repr

/-! ## The matrix state, engines of a core -/

/-- An operation on an accumulator bank that has not completed (R267): the cycle it completes in, the bank, and the bank after
it. -/
structure BankOp where
  done : Nat
  bank : Nat
  after : Tab Vec
deriving DecidableEq, Repr

/-- A stream register (R274, R275): words 0 to 5, taps 0 to 3, loop indices at 1 to 4, tap steps at 0 to 3, scale counter. -/
structure Stream where
  w : Tab Word := []
  tap : Tab Word := []
  i : Tab Nat := []
  k : Tab Nat := []
  sc : Nat := 0
deriving DecidableEq, Repr

/-- A ring register (R278, R280), with the reserved tiles not yet counted, oldest first: the copy that fills each (channel and
command number) and whether that copy has finished. -/
structure Ring where
  geom : Word := 0
  head : Nat := 0
  tail : Nat := 0
  fill : Nat := 0
  free : Nat := 1
  resv : List ((Nat × Nat) × Bool) := []
deriving DecidableEq, Repr

/-- A sparse tile in progress (R286, R290): its stream, offset, header and beat; the mask and kept values of the current group
for each row; the rows of B delivered for the group so far. -/
structure Tile where
  stream : Nat
  t : Int
  hdr : Word
  beta : Nat
  grp : List (Nat × List FVal) := []
  rows : List (List FVal) := []
deriving DecidableEq, Repr

/-- The matrix state of a core (R264): a bank is its rows at 0 to 63; configuration formats as R50 codes. -/
structure Matrix where
  a0 : Tab Vec := []
  a1 : Tab Vec := []
  h : Tab Vec := []
  fl : Vec := 0
  fa : Nat := 2
  fb : Nat := 2
  bank : Nat := 0
  scl : Bool := false
  ops : List BankOp := []
  streams : Tab Stream := []
  rings : Tab Ring := []
  scales : List Nat := []
  tile : Option Tile := none
deriving DecidableEq, Repr

/-- A copy command that has not completed (R304, R313): its number on its channel (0 for a packet's), the words of its packet, its
strand and seat, the id below which that seat's accesses precede it (R299), a failure known at its issue, the ring whose tile it
reserved with that tile's offset (R307), its queue (for packets), its number on its COMPL timeline, and a page it waits for
(R310). -/
structure CopyCmd where
  num : Nat
  words : List Word
  ten : Nat
  lid : Nat := 0
  idx : Nat := 0
  seat : Nat := 0
  mark : Nat := 0
  status : Nat := 0
  ring : Option (Nat × Nat) := none
  queue : Option Nat := none
  compl : Nat := 0
  stuck : Option Nat := none
  /-- How far it has come (R301): the units moved of one that reduces nothing, the units of one that reduces, the units read and not yet
  written with what was read, and a physical address whose home does not answer, with the tick from which its timeout counts (R364). -/
  next : Nat := 0
  did : List Nat := []
  got : List (Nat × Nat) := []
  waits : Option (Nat × Nat) := none
  dead : Bool := false
  /-- The modules lost while a request of it was outstanding to them (R382). -/
  gone : List Nat := []
  /-- Its status once every read and write has performed, while its ring tile waits for earlier reservations to be counted (R280, R309). -/
  ended : Option Nat := none
  /-- The translation it waits for (R218). -/
  ask : Option Ask := none
deriving DecidableEq, Repr

/-- Commands of the sparsity unit (R291). -/
inductive UnitOp where
  | sprune | sprunet | sregrow | sexpand | scheck | shdrCk
deriving DecidableEq, Repr

/-- A command of the sparsity unit that has not completed: its number, operation and operand words, its strand and seat, the id
below which that seat's accesses precede it, SCHECK's predicate, and the number of its bundle. -/
structure UnitCmd where
  num : Nat
  op : UnitOp
  a : Word
  b : Word
  c : Word
  ten : Nat
  lid : Nat
  idx : Nat
  seat : Nat
  mark : Nat
  dst : Option Reg
  seq : Nat := 0
  dead : Bool := false
deriving DecidableEq, Repr

/-- A timeline (R182, R295, R296): commands issued, its value, the commands past its value that have completed, and its error
word. -/
structure TLine where
  issued : Nat := 0
  value : Nat := 0
  done : List Nat := []
  err : Word := 0
deriving DecidableEq, Repr

/-! ## A core -/

/-- A cached translation (R218): tenancy, the page's virtual base and size in bytes, the physical base, the leaf's key,
consistency attribute (0 PLAIN, 1 CHECKED, 2 ORDERED) and permissions. -/
structure Tlb where
  ten : Nat
  base : Nat
  size : Nat
  pa : Nat
  key : Nat
  cons : Nat
  r : Bool
  w : Bool
  x : Bool
deriving DecidableEq, Repr

/-- A word in an instruction buffer (R224): tenancy, virtual address, the word, and the first byte and the bytes of its bundle. -/
structure Code where
  ten : Nat
  va : Nat
  word : Word
  from_ : Nat
  bytes : Nat
deriving DecidableEq, Repr

/-- A core (R176, R178, R190). -/
structure Core where
  /-- Core cycles run. -/
  now : Nat := 0
  /-- Declared and resolved weight of the cycles before now, latest first (R80). -/
  win : List (Nat × Nat) := List.replicate 16 (8, 8)
  /-- The gear in force, the one before the latest change, and the cycle of that change (R86, R91). -/
  gear : Nat := 0
  pgear : Nat := 0
  changed : Option Nat := none
  /-- pgear and changed as they stood before the gear point of the latest change (R91). -/
  oldChange : Nat × Option Nat := (0, none)
  /-- Writes of the die's gear register that have arrived (R91). -/
  gearSeen : Nat := 0
  ectrDecl : Word := 0
  ectrRes : Word := 0
  ehold : Word := 0
  deficit : Word := 0
  bconf : Word := 0
  sem : Tab (BitVec 16) := []
  /-- The seat that last completed a wait on a semaphore (R191), one more than its number. -/
  semLast : Tab Nat := []
  /-- The tenancy the core runs (R176). -/
  ten : Option Nat := none
  seats : Tab Seat := []
  running : Option Nat := none
  last : Nat := 3
  /-- The bubble of a seat switch has been spent and the next seat not yet chosen (R178). -/
  bubbled : Bool := false
  /-- The seat that ran last gave up its width without being blocked (R178 steps 2 and 3). -/
  gaveUp : Bool := false
  /-- Words in its instruction buffer (R224). -/
  ibuf : List Code := []
  tlb : List Tlb := []
  /-- Number of the next bundle, and of the next access. -/
  seq : Nat := 0
  nextId : Nat := 0
  /-- A retired core that no spare replaced (R350, R352). -/
  absent : Bool := false
  mx : Matrix := {}
  /-- Incomplete commands of the copy channels, oldest first (R304). -/
  chans : Tab (List CopyCmd) := []
  /-- Incomplete commands of the sparsity unit and of the index engine, oldest first (R291, R314). -/
  unit : List UnitCmd := []
  idx : List IdxCmd := []
deriving DecidableEq, Repr

/-! ## A die -/

/-- A sinter board (R251): its configuration, its level, its slots (those posted), and the post order. -/
structure Board where
  en : Bool := false
  fab : Bool := false
  ten : Nat := 0
  parts : Nat := 1
  level : BitVec 32 := 0
  slots : Tab Word := []
  order : List Nat := []
deriving DecidableEq, Repr

/-- A continuation record (R167, R171): its entry of the record area, its strand, the state its seat held (R170), its matrix
block, wake condition and live ranges, whether it is ready, a core its wake restricts it to (R171), whether it has never been
seated, its cluster, its effective priority, the timeline value its wake awaits (R171), and whether it goes to the head of its
ready list (R186). The list that holds records keeps their age and places (R183). -/
structure Rec where
  entry : Nat
  img : Seat
  strand : Strand
  mx : Option Matrix := none
  wake : Word := 0
  live : Word := 0
  ready : Bool := false
  only : Option Nat := none
  fresh : Bool := false
  cluster : Nat := 0
  goal : Nat := 0
  front : Bool := false
  /-- Its place in the order of suspensions on its die (R191). -/
  order : Nat := 0
deriving DecidableEq, Repr

/-- An event record (R354): type, tenancy, place, the tick of the event, and bytes 16 to 63. -/
structure EvRec where
  ty : Nat
  ten : Nat
  cluster : Nat := 0
  core : Nat := 0
  tick : Nat := 0
  words : List Word := []
deriving DecidableEq, Repr

/-- Summary counts of CE, SCRUBUE, PAIRRETRY and TABLEFIX, with the ticks of the first and last event counted (R356). -/
structure Summary where
  ce : Nat := 0
  scrubue : Nat := 0
  pairretry : Nat := 0
  tablefix : Nat := 0
  first : Nat := 0
  last : Nat := 0
deriving DecidableEq, Repr

/-- What a cluster is being drained for (R346, R348). -/
inductive Drain where
  | none
  | pass (since : Nat)
  | scan (since : Nat)
  | pair (since : Nat)
deriving DecidableEq, Repr

/-- A cluster (R345 to R350): split mode in force, the checkpoints its control-core pair has taken, its recent mismatches, the
tick from which it must run without one, whether the pair is retired, whether the spare is used, what the cluster is drained for, the
physical cores found to have failed outside a pass, the control core whose turn it is in split mode, the saved state of its cores, and the physical core of each logical core. -/
structure Cluster where
  split : Bool := false
  ckpt : Nat := 0
  mism : List Nat := []
  retry : Option Nat := none
  pairOut : Bool := false
  spareUsed : Bool := false
  drain : Drain := .none
  pending : List Nat := []
  turn : Nat := 0
  saved : Tab (Tab (BitVec 16)) := []
  phys : Tab Nat := []
deriving DecidableEq, Repr

/-- A walk outstanding (R216 to R218): tenancy and 64 KiB page, and TCB_ROOT and the table bases of the four dies as they stood when it
began. -/
structure Walk where
  ten : Nat
  page : Nat
  root : Word
  bases : List Word
deriving DecidableEq, Repr

/-- A die (R183, R208, R212, R216, R251, R344, R354). -/
structure Die where
  gear : Nat := 0
  /-- Every write of the gear register with the cycle it was made in, oldest first (R91). -/
  gears : List (Nat × Nat) := []
  tablebase : Word := 0
  recarea : Word := 0x0FFF0001
  clTlb : Tab (List Tlb) := []
  /-- The instruction buffer of each cluster (R223, R224). -/
  clBuf : Tab (List Code) := []
  tlb : List Tlb := []
  /-- Walks outstanding, and the prefetches whose translation is missing: core, tenancy and address (R108, R218). -/
  walks : List Walk := []
  prefs : List (Nat × Nat × Nat) := []
  /-- Dies whose replicas the walkers wait for, with the tick their timeout counts from (R364). -/
  walkWait : Tab Nat := []
  /-- Pages whose PAGE record has been posted and not released (R220). -/
  posted : List (Nat × Nat) := []
  boards : Tab Board := []
  /-- Replay caches: source port × 64 + entry, with sequence number and result (R250); the ports of peers follow the local ones. -/
  replay : Tab (Nat × List Nat) := []
  recs : List Rec := []
  /-- Suspensions so far (R191). -/
  orders : Nat := 0
  /-- The fault buffer, kept records that wait for an entry, the summaries, and the next SEQ (R354 to R356). -/
  faultBuf : List EvRec := []
  waiting : List EvRec := []
  summary : Summary := {}
  seq : Nat := 0
  retired : List Nat := []
  /-- Pool units poisoned again after a zero-fill, and 4 KiB row ranges withdrawn (R338). -/
  refilled : List Nat := []
  again : List Nat := []
  withdrawn : List Nat := []
  /-- Spare rows used in each slice of the pool. -/
  rowsUsed : Tab Nat := []
  clusters : Tab Cluster := []
  /-- Debug-halted since a tick (R365). -/
  halted : Option Nat := none
  /-- Dies an XDSLOW record has been posted for (R364). -/
  slow : List Nat := []
  /-- Tick of the last scrub (R339). -/
  scrubbed : Nat := 0
  /-- The cluster from which the next to be drained by a fumarole pass is looked for (R348). -/
  fumNext : Nat := 0
deriving DecidableEq, Repr

/-! ## The package -/

/-- A queue descriptor (R375): its registers, the base, LOG2, DEV, write-index and read-index addresses taken when EN went
from 0 to 1, and, for its next packet, the tick from which it has waited with its dependences met and the levels it has risen
(R183). -/
structure Queue where
  base : Word := 0
  ctl : Word := 0
  widx : Word := 0
  ridx : Word := 0
  served : Option (Nat × Nat × Bool × Nat × Nat) := none
  since : Option Nat := none
  rise : Nat := 0
deriving DecidableEq, Repr

/-- A tenancy (R169, R217, R298, R375, R377): its control block, its engine timelines (core × 16 + timeline), its queue timelines,
and its run state (R341, R385). -/
structure Tenancy where
  expert : Word := 0
  tvec : Word := 0
  /-- Writes of TCB_TVEC (R169). -/
  vecn : Nat := 0
  debug : Word := 0
  spill : Word := 0
  spillsz : Word := 0
  poolva : Word := 0
  pgrel : Word := 0
  root : Word := 0
  tlva : Word := 0
  qtl : Word := 0
  podkey : Word := 0
  lctl : Word := 0
  queues : Tab Queue := []
  tls : Tab TLine := []
  qlines : Tab TLine := []
  /-- Queue timelines whose entries of the table in memory wait for their home to answer. -/
  unwritten : List Nat := []
  /-- Launches started so far, for the next LID (R183), and packets taken, which name launches in events. -/
  lids : Nat := 0
  keys : Nat := 0
  killed : Bool := false
  frozen : Bool := false
  /-- An error consumed and the kill still to come (R341): class, agent, launch, physical and virtual address (R343); further
  consumptions counted (R342); the frames to retire (R344). -/
  doom : Option (Nat × Nat × Nat × Nat × Nat) := none
  /-- The tick of that consumption (R341). -/
  doomAt : Nat := 0
  more : Nat := 0
  frames : List Nat := []
deriving DecidableEq, Repr

/-- The state of a phase group (R201): phases released, and the strands that have arrived at the next. -/
structure Phase where
  rel : Nat := 0
  arrived : List Nat := []
  /-- The tick of the last arrival (R380). -/
  last : Nat := 0
  /-- Bit 63 of the result: a module was lost (R382). -/
  lost : Bool := false
deriving DecidableEq, Repr

/-- A launch (R179, R181, R183, R188): the fields of its packet, and what has become of its strands. -/
structure Launch where
  ten : Nat
  /-- Names the launch in events; its LID once started (0 before). -/
  key : Nat
  lid : Nat := 0
  queue : Nat
  code : Nat
  arg : Word
  dom : Nat
  gx : Nat
  gy : Nat
  gz : Nat
  /-- Pool window bytes. -/
  pool : Nat
  vu : Nat
  wu : Nat
  mclaim : Bool
  spc : Nat
  floor : Nat
  svc : Nat
  diemask : Nat
  mode : Nat
  compl : Nat
  /-- Dependences: handle and value. -/
  deps : List (Nat × Nat)
  budget : Nat
  rerun : Bool
  parent : Nat
  prio : Nat
  /-- TCB_EXPERT.EN as captured (R169). -/
  expert : Nat
  hint : Nat
  /-- The command's number on its COMPL timeline. -/
  num : Nat
  /-- Whether this run is the rerun of an earlier one (R188). -/
  again : Bool := false
  started : Bool := false
  /-- The tick from which it has waited with its dependences met (R183). -/
  met : Option Nat := none
  /-- The switch point (R187), in ticks. -/
  switch : Option Nat := none
  overrun : Bool := false
  /-- Window base in each die's pool (R210). -/
  window : Tab Nat := []
  /-- Strands created on each die; the linear indices of those that have ended (R184, R201). -/
  created : Tab Nat := []
  ended : List Nat := []
  /-- The core of each core-domain group, the cluster of each cluster group (R179). -/
  groupCore : Tab Nat := []
  groupClus : Tab Nat := []
  phases : Tab Phase := []
  /-- The status found so far (R184), children not complete, and whether a child failed (R185). -/
  status : Nat := 0
  kids : Nat := 0
  child : Bool := false
deriving DecidableEq, Repr

/-- One entry of a CHECKED line's tracking state (R235): the strand and its four granule masks. -/
structure LineEntry where
  ten : Nat
  lid : Nat
  idx : Nat
  pr : Nat
  sr : Nat
  pw : Nat
  sw : Nat
  /-- The engine command whose accesses it notes; 0 for the strand's own (R324). -/
  cmd : Nat := 0
deriving DecidableEq, Repr

/-- A line of a memory-side cache (R212, R213, R235 to R237, R336): the key ID of the write that made it dirty, and its tracking state:
entries in fine state; in coarse state the counters (signature × 64 + h) and the strands counted with the signatures they
touched. -/
structure Line where
  dirty : Option Nat := none
  /-- Its data is poisoned (R336). -/
  bad : Bool := false
  entries : List LineEntry := []
  coarse : Bool := false
  counters : Tab Nat := []
  touched : List LineEntry := []
deriving DecidableEq, Repr

/-- A sideband barrier (R366, R368): the register, arrivals counted, resets modulo 2^16, and the ticks at which closed
generations are released. -/
structure Bar where
  en : Bool := false
  ten : Nat := 0
  count : Nat := 0
  gen : Nat := 0
  arr : Nat := 0
  rst : Nat := 0
  due : List Nat := []
deriving DecidableEq, Repr

/-- Registers and state of the I/O die: table-update ring (R222), event queue (R373), cross-die timeout (R364), fabric (R377, R378,
R380), reliability (R353), host link (R372, R381), security controller (R386). -/
structure Pkg where
  tueRbase : Word := 0
  tueRsize : Word := 0
  tueWidx : Word := 0
  tueDone : Word := 0
  tueErr : Word := 0
  tueNext : Nat := 1
  /-- The ranges of the translations that the flush under way has removed: base and bytes (R222). -/
  flushed : List (Nat × Nat) := []
  evqBase : Word := 0
  evqSize : Word := 0
  evqWidx : Word := 0
  evqRidx : Word := 0
  xdto : Nat := 20
  lsd : Word := 0
  route : Tab Word := []
  keyidx : Word := 0
  keymap : Tab Word := []
  /-- LANEMAP of the ports, where not at reset (R378), and the tick from which a port's traffic is held. -/
  lanes : Tab Word := []
  portHeld : Tab Nat := []
  /-- Words 0 and 1 of pod channel c at 2c and 2c + 1 (R380). -/
  pod : Tab Word := []
  bars : Tab Bar := []
  fumint : Word := 0x927C0
  fumDie : Nat := 0
  fumen : Word := 1
  split : Word := 0
  scrubint : Word := 0x15180
  /-- Stores that the host and fabric ports have accepted (R226). -/
  accepts : Nat := 0
  /-- The next sequence number of each source port's requests to each home: 128 × port + home, a die or 64 and a peer's module (R249). -/
  reqSeq : Tab Nat := []
  /-- The model's own: the boards of fabric peers as requests of this package last left them, by 1024 × module + 256 × die + board. -/
  peerBoards : Tab Board := []
  /-- Tick of the last fumarole pass. -/
  fumLast : Nat := 0
  hostUp : Bool := true
  hostNarrow : Bool := false
  hostHeld : Option Nat := none
  /-- Stores dropped for each lost module, 64 for the host (R381). -/
  dropped : Tab Nat := []
  /-- Generation of the encryption keys (R213), images accepted, and whether one was rejected (R386). -/
  keygen : Nat := 0
  images : List (Nat × BitVec 512) := []
  rejected : Bool := false
  /-- Flits replayed at each port (R377). -/
  replayed : Tab Nat := []
  /-- The queue last served at each priority, 16 × tenancy + queue (R183). -/
  turn : Tab Nat := []
  /-- Pod channels, one bit each, whose next phase reports a lost module (R382). -/
  podLost : Nat := 0
  /-- The latest completions sent out: to the host (whether Unsupported Request, poisoned, and the data of a read), and to a fabric
  peer (a refusal's reason or 0, and the values returned); ATS invalidations completed for each function (R373, R374, R377). -/
  hostReply : Option (Bool × Bool × Nat) := none
  peerReply : Option (Nat × List Nat) := none
  ats : Tab Nat := []
deriving DecidableEq, Repr

/-- The state of the part. -/
structure State where
  cores : Tab Core := []
  dies : Tab Die := []
  tens : Tab Tenancy := []
  launches : List Launch := []
  /-- Queue copies not complete (R313). -/
  qcopies : List CopyCmd := []
  pkg : Pkg := {}
  mem : Tab Byte := []
  /-- Lines held by the memory-side caches, by physical address div 64 (R212). -/
  lines : Tab Line := []
  /-- Key of the last write-back of a sector, by physical address div 64: generation × 256 + key ID (R213, log 12). -/
  keys : Tab Nat := []
  /-- Poisoned sectors of HBM and units of the pools, by physical address div 64 (R336). -/
  poison : List Nat := []
  /-- Key IDs bound to a tenancy: (key, tenancy) (R213, R386). -/
  bound : List (Nat × Nat) := []
  /-- Ticks of the time base, and twenty-firsts of a tick beyond them (R363). -/
  tbase : Nat := 0
  subTick : Nat := 0
  /-- The latest cycle any core has run (log 4). -/
  cyc : Nat := 0
  /-- SVCLVL.LEVEL and SVCLVL.FAIL (R388). -/
  svclvl : Nat := 0
  svcFail : Bool := false
  /-- The bundle being issued. -/
  iss : Option Issue := none
  /-- The model's own: the events the environment still makes happen, in order (log 3). -/
  agenda : List Instr := []
  /-- The model's own: how many free values have been used (log 9). -/
  free : Nat := 0
deriving DecidableEq, Repr

/-- Reasons to stop with a fault. No meaning of this model raises one: every behaviour the manual gives is a next state. -/
inductive Fault where
  /-- Raised by nobody: kept so that the type is a closed inductive with a value. Safe. -/
  | none
deriving DecidableEq, Repr

/-- Reasons to refuse an instruction. -/
inductive Refusal where
  /-- An instruction whose meaning is not written yet; raised by its arm of exec alone. Safe. -/
  | notModelled (mnemonic : String)
deriving DecidableEq, Repr

/-- The part right after reset (R92, R190, R216, R392; logs 1, 2, 10, 13). -/
def State.reset : State := {}

end Sys2Proof.Machine
end

