-- ==== Sys2Proof/Machine/Base.lean ====
section
/-! DEFINITION. Access to cores, seats, dies, launches and registers; time and the energy window; results in flight;
semaphore values. -/

namespace Sys2Proof.Machine

open Sys2Proof

/-! ## Access to cores, seats, dies and tenancies. Core c is core c mod 8 of cluster (c div 8) mod 16 of die c div 128. -/

def State.core (s : State) (c : Nat) : Core := tget s.cores {} c
def State.setCore (s : State) (c : Nat) (k : Core) : State := { s with cores := tput s.cores c k }
def State.modCore (s : State) (c : Nat) (f : Core → Core) : State := s.setCore c (f (s.core c))
def State.seat (s : State) (c i : Nat) : Seat := tget (s.core c).seats {} i
def State.setSeat (s : State) (c i : Nat) (t : Seat) : State := s.modCore c (fun k => { k with seats := tput k.seats i t })
def State.modSeat (s : State) (c i : Nat) (f : Seat → Seat) : State := s.setSeat c i (f (s.seat c i))
def State.die (s : State) (d : Nat) : Die := tget s.dies {} d
def State.setDie (s : State) (d : Nat) (x : Die) : State := { s with dies := tput s.dies d x }
def State.modDie (s : State) (d : Nat) (f : Die → Die) : State := s.setDie d (f (s.die d))
def State.tenancy (s : State) (t : Nat) : Tenancy := tget s.tens {} t
def State.setTenancy (s : State) (t : Nat) (x : Tenancy) : State := { s with tens := tput s.tens t x }
def State.modTenancy (s : State) (t : Nat) (f : Tenancy → Tenancy) : State := s.setTenancy t (f (s.tenancy t))

/-- The die of a core. -/
def dieOf (c : Nat) : Nat := c / 128
/-- The cluster of a core within its die. -/
def clusterOf (c : Nat) : Nat := c / 8 % 16

/-- The tenancy and launch of a seat's strand. -/
def State.ownerOf (s : State) (c i : Nat) : Nat × Nat :=
  match (s.seat c i).strand with
  | none => (0, 0)
  | some x => (x.ten, x.lid)

/-- A die that has replied to another is no longer reported slow by it (R364). -/
def State.heard (s : State) (me d : Nat) : State := s.modDie me (fun x => { x with slow := x.slow.filter (fun k => k != d) })

/-- The next sequence number of a source port's requests to a home, used (R249). -/
def State.nextSeq (s : State) (port h : Nat) : Nat × State :=
  let n := tget s.pkg.reqSeq 0 (128 * port + h)
  (n, { s with pkg := { s.pkg with reqSeq := tset s.pkg.reqSeq 0 (128 * port + h) ((n + 1) % 2 ^ 16) } })

/-- An entry of a die's replay cache for a source port (R250). -/
def State.keepReply (s : State) (d port n : Nat) (vals : List Nat) : State :=
  s.modDie d (fun x => { x with replay := tput x.replay (port * 64 + n % 64) (n, vals) })

/-- The result that a die's replay cache holds for a source port's request (R250). -/
def State.keptReply (s : State) (d port n : Nat) : Option (List Nat) :=
  match tfind (s.die d).replay (port * 64 + n % 64) with
  | none => none
  | some (q, vals) => if q = n then some vals else none

/-- The launch of a tenancy with a launch ID. -/
def State.launch (s : State) (ten lid : Nat) : Option Launch := s.launches.find? (fun l => l.ten == ten && l.lid == lid)

/-- A change to one launch. -/
def State.modLaunch (s : State) (ten lid : Nat) (f : Launch → Launch) : State :=
  { s with launches := modifyFirst (fun l => l.ten == ten && l.lid == lid) f s.launches }

/-! ## Registers -/

/-- The register a number names: in trap mode i56 to i63 and q7 name the trap bank (R149). -/
def bank (tm : Bool) (f : File) (n : Nat) : Reg :=
  if tm && f == .i && 56 ≤ n then ⟨.i, n + 8⟩ else if tm && f == .q && n == 7 then ⟨.q, 8⟩ else ⟨f, n⟩

/-- A register's value (R8, R11). -/
def readReg (r : Regs) (g : Reg) : Nat :=
  match g.file with
  | .q => b2n (if g.n = 0 then true else if g.n = 8 then r.tq else tget r.q false g.n)
  | .i => if g.n < 64 then (tget r.i 0 g.n).toNat else (tget r.tb 0 (g.n - 64)).toNat
  | .j => (tget r.j 0 g.n).toNat
  | .fr => (tget r.f 0 g.n).toNat
  | .e => (tget r.e 0 g.n).toNat
  | .v => (tget r.v 0 g.n).toNat
  | .w => (tget r.w 0 g.n).toNat
  | .xv => (tget r.xv 0 g.n).toNat
  | .vm => (tget r.vm 0 g.n).toNat
  | .vx => (tget r.vx 0 g.n).toNat
  | .wx => (tget r.wx 0 g.n).toNat

/-- The files with one register written; a write to q0 is discarded (R11). -/
def writeReg (r : Regs) (g : Reg) (x : Nat) : Regs :=
  match g.file with
  | .q => if g.n = 0 then r else if g.n = 8 then { r with tq := x % 2 == 1 } else { r with q := tset r.q false g.n (x % 2 == 1) }
  | .i => if g.n < 64 then { r with i := tset r.i 0 g.n (BitVec.ofNat 64 x) }
    else { r with tb := tset r.tb 0 (g.n - 64) (BitVec.ofNat 64 x) }
  | .j => { r with j := tset r.j 0 g.n (BitVec.ofNat 64 x) }
  | .fr => { r with f := tset r.f 0 g.n (BitVec.ofNat 64 x) }
  | .e => { r with e := tset r.e 0 g.n (BitVec.ofNat 64 x) }
  | .v => { r with v := tset r.v 0 g.n (BitVec.ofNat 2048 x) }
  | .w => { r with w := tset r.w 0 g.n (BitVec.ofNat 2048 x) }
  | .xv => { r with xv := tset r.xv 0 g.n (BitVec.ofNat 2048 x) }
  | .vm => { r with vm := tset r.vm 0 g.n (BitVec.ofNat 2048 x) }
  | .vx => { r with vx := tset r.vx 0 g.n (BitVec.ofNat 16 x) }
  | .wx => { r with wx := tset r.wx 0 g.n (BitVec.ofNat 16 x) }

/-- The register of an optional destination written. -/
def writeOpt (r : Regs) (g : Option Reg) (x : Nat) : Regs :=
  match g with
  | none => r
  | some g => writeReg r g x

/-- A register as a seat in its mode reads it. -/
def Seat.get (t : Seat) (f : File) (n : Nat) : Nat := readReg t.regs (bank t.tm f n)

/-- A seat with one register written. -/
def Seat.put (t : Seat) (g : Reg) (x : Nat) : Seat := { t with regs := writeReg t.regs g x }

/-! ## Time and the energy window -/

/-- Twenty-firsts of a tick that a core cycle takes: the core clock runs at 2.1 GHz, at service level 2 at 1.4 GHz and at
service level 1 at 1.0 GHz (R363, R388; log 4). -/
def tickRate (svc : Nat) : Nat := if svc = 2 then 15 else if svc = 1 then 21 else 10

/-- The time base brought up to a cycle some core has reached. -/
def State.reach (s : State) (now : Nat) : State :=
  if now ≤ s.cyc then s
  else
    let t := s.subTick + (now - s.cyc) * tickRate s.svclvl
    { s with cyc := now, tbase := s.tbase + t / 21, subTick := t % 21 }

/-- A core with one entry placed in its window (R80) and its counters advanced (R93). -/
def Core.place (k : Core) (decl res : Nat) : Core :=
  { k with now := k.now + 1, win := ((decl, res) :: k.win).take 16
           ectrDecl := k.ectrDecl + BitVec.ofNat 64 decl, ectrRes := k.ectrRes + BitVec.ofNat 64 res }

/-- n cycles with an entry of 8 each (R80). -/
def Core.idle (k : Core) : Nat → Core
  | 0 => k
  | n + 1 => Core.idle (k.place 8 8) n

/-- n cycles of a core in which no bundle issues. -/
def State.idle (s : State) (c n : Nat) : State :=
  let k := (s.core c).idle n
  (s.setCore c k).reach k.now

/-- A hold-line cycle (R22): the bundle does not issue in it. -/
def State.hold (s : State) (c : Nat) : State := s.idle c 1

/-- The window sum of a bundle that would issue now (R82, R84, R89): in resolved mode entries from two cycles ago on count at
their resolved weight. -/
def windowSum (k : Core) (resolved : Bool) (decl : Nat) : Nat :=
  match k.win.take 15 with
  | [] => decl
  | a :: r => decl + a.1 + (r.map (fun p => if resolved then p.2 else p.1)).sum

/-- Embers per cycle at a gear (R81). -/
def allowance (g : Nat) : Nat := 640 + 80 * g

/-! ## Results in flight (R16, R20, R21) -/

/-- Whether a flight comes before another in the order in which results reach the registers (R12, R21). -/
def Flight.before (a b : Flight) : Bool :=
  a.ready < b.ready || (a.ready == b.ready && (a.seq < b.seq || (a.seq == b.seq && a.pos ≤ b.pos)))

/-- A flight put into an ordered list. -/
def insertFlight (x : Flight) : List Flight → List Flight
  | [] => [x]
  | y :: r => if y.before x then y :: insertFlight x r else x :: y :: r

/-- One result written: its register and its flags (R69). -/
def Seat.land (t : Seat) (x : Flight) : Seat :=
  { t with regs := writeOpt t.regs x.dst x.val, mode := { t.mode with fstat := t.mode.fstat ||| BitVec.ofNat 64 x.fl } }

/-- Every result readable by a cycle written, in the order of R12 and R21; a held bundle's sources stay as they were at its
issue (R239, R254), and nothing reaches a seat halted for the debugger (R157). -/
def Seat.commit (t : Seat) (now : Nat) : Seat :=
  if t.held.isSome || t.halted then t
  else
    let due := t.flights.filter (fun x => x.ready ≤ now)
    let t' := due.foldl Seat.land { t with flights := t.flights.filter (fun x => now < x.ready) }
    let fresh := due.foldl (fun a x => if x.ready = now then a ||| x.fl else a) 0
    { t' with nowFlags := (if t.nowAt = now then t.nowFlags else 0) ||| fresh, nowAt := now }

/-- The last cycle in which a result of fixed latency of the seat becomes readable (R148, R164). -/
def Seat.lastReady (t : Seat) : Nat := (t.flights.filter Flight.fixed).foldl (fun a x => max a x.ready) 0

/-- The last cycle in which any result of the seat that is on its way becomes readable. -/
def Seat.lastAny (t : Seat) : Nat := t.flights.foldl (fun a x => max a x.ready) 0

/-! ## Accumulator banks (R264, R267) -/

def Matrix.bankRows (m : Matrix) (b : Nat) : Tab Vec := if b = 0 then m.a0 else m.a1
def Matrix.setBank (m : Matrix) (b : Nat) (r : Tab Vec) : Matrix := if b = 0 then { m with a0 := r } else { m with a1 := r }

/-- A bank as its latest operation leaves it, completed or not. -/
def Matrix.latest (m : Matrix) (b : Nat) : Tab Vec :=
  match (m.ops.filter (fun o => o.bank == b)).getLast? with
  | none => m.bankRows b
  | some o => o.after

/-- The cycle the last operation on a bank completes in, 0 where none is under way. -/
def Matrix.lastDone (m : Matrix) (b : Nat) : Nat := (m.ops.filter (fun o => o.bank == b)).foldl (fun a o => max a o.done) 0

/-- The operations on the banks that complete by a cycle (R267). -/
def Matrix.commit (m : Matrix) (now : Nat) : Matrix :=
  let due := m.ops.filter (fun o => o.done ≤ now)
  due.foldl (fun m o => m.setBank o.bank o.after) { m with ops := m.ops.filter (fun o => now < o.done) }

/-- A bank operation issued at cycle now with a latency of its own (R267). -/
def Matrix.push (m : Matrix) (now lat b : Nat) (rows : Tab Vec) : Matrix :=
  { m with ops := m.ops ++ [⟨max (now + lat) (m.lastDone b), b, rows⟩] }

/-- The operations on the banks of a core that complete by its cycle. -/
def Core.settleBanks (k : Core) : Core := { k with mx := k.mx.commit k.now }

/-- Whether the seat holds the M claim. -/
def Seat.claims (t : Seat) : Bool :=
  match t.strand with
  | none => false
  | some x => x.mclaim

/-- The seat of a core whose strand holds the M claim. -/
def Core.claimSeat (k : Core) : Option Nat := (k.seats.find? (fun p => p.2.claims)).map Prod.fst

/-- The operations on the banks of a core that have completed by its cycle; while the bundle of the seat with the M claim is held they stay as
they were at its issue (R239, R254, R267). -/
def State.settleBanks (s : State) (c : Nat) : State :=
  if (s.core c).seats.any (fun p => p.2.claims && p.2.held.isSome) then s else s.modCore c Core.settleBanks

/-- The last cycle in which a result of fixed latency of a seat, or an operation on its banks, completes. -/
def State.lastOf (s : State) (c i : Nat) : Nat :=
  let t := s.seat c i
  if t.claims then max t.lastReady (max ((s.core c).mx.lastDone 0) ((s.core c).mx.lastDone 1)) else t.lastReady

/-- A core idle until a cycle, if that is still to come, and what has completed by then taken into a seat and its banks. -/
def State.settleBy (s : State) (c i last : Nat) : State :=
  let now := (s.core c).now
  let s' := if now < last then s.idle c (last - now) else s
  (s'.modSeat c i (fun t => t.commit (max now last))).settleBanks c

/-- Every in-flight result of fixed latency of a seat drained, with an entry of 8 for every cycle this takes (R20, R148, R164, R267). -/
def State.drain (s : State) (c i : Nat) : State := s.settleBy c i (s.lastOf c i)

/-- Every result of a seat that is on its way drained, those of variable latency whose value is known included (R157, R186). -/
def State.drainAll (s : State) (c i : Nat) : State := s.settleBy c i (max (s.lastOf c i) (s.seat c i).lastAny)

/-- A result of a syllable put in flight. -/
def State.fly (s : State) (u : Issue) (pos lat : Nat) (dst : Option Reg) (val fl : Nat) (fixed fpu : Bool) : State :=
  s.modSeat u.core u.seat (fun t =>
    { t with flights := insertFlight ⟨(s.core u.core).now + lat, u.seq, pos, dst, val, fl, fixed, fpu⟩ t.flights })

/-- A result without a fixed latency that reaches its register in a cycle, or in the core's present one if that is later, with the place
in program order of the bundle and the slot it came from, so that R12 and R21 order it among the results in flight. -/
def State.deliverBy (s : State) (c i due seq pos : Nat) (dst : Option Reg) (val : Nat) : State :=
  s.modSeat c i (fun t => { t with
    flights := insertFlight ⟨max (s.core c).now due, seq, pos, dst, val, 0, false, false⟩ t.flights })

/-- A result without a fixed latency that reaches its register in the core's present cycle. -/
def State.deliver (s : State) (c i seq pos : Nat) (dst : Option Reg) (val : Nat) : State := s.deliverBy c i 0 seq pos dst val

/-- A result delivered to a seat whose bundle still waits for it. -/
def State.deliverLast (s : State) (c i : Nat) (dst : Reg) (val : Nat) : State := s.deliver c i (s.core c).seq 0 (some dst) val

/-- A register of a seat with every result that has reached it by a cycle. -/
def Seat.settled (t : Seat) (now : Nat) (g : Reg) : Nat := readReg ({ t with held := none }.commit now).regs g

/-- The destination register of a syllable, in the mode the seat is in. -/
def State.dst (s : State) (u : Issue) (f : File) (n : Nat) : Reg := bank (s.seat u.core u.seat).tm f n

/-- A fixed-latency result into a register (R16). -/
def State.result (s : State) (u : Issue) (pos lat : Nat) (f : File) (n val : Nat) : State :=
  s.fly u pos lat (some (s.dst u f n)) val 0 true false

/-- A variable-latency result whose value is known at issue, readable no earlier than lat cycles later (R16). -/
def State.resultVar (s : State) (u : Issue) (pos lat : Nat) (f : File) (n val : Nat) : State :=
  s.fly u pos lat (some (s.dst u f n)) val 0 false false

/-- The value of a register at the bundle's issue (R95). -/
def State.rd (s : State) (u : Issue) (f : File) (n : Nat) : Nat := (s.seat u.core u.seat).get f n

/-- A syllable's guard: q[pred] XOR pn (R11). -/
def State.guard (s : State) (u : Issue) (g : Guard) : Bool := (s.rd u .q g.pred.toNat == 1) != g.pn

/-- A free value and the state that has used it (log 9). -/
def State.takeFree (s : State) : Nat × State := (Config.freeValue s.free, { s with free := s.free + 1 })

/-! ## Semaphores (R190 to R195) -/

def Core.semVal (k : Core) (n : Nat) : Nat := (tget k.sem 0 n).toNat
def Core.setSem (k : Core) (n v : Nat) : Core := { k with sem := tset k.sem 0 n (BitVec.ofNat 16 v) }

/-- The BCW wait of a bundle that leaves the seat without issuing returned to its semaphore (R193). -/
def State.returnWait (s : State) (c i : Nat) : State :=
  match (s.seat c i).bcw with
  | .none => s
  | .pending _ _ => s.modSeat c i (fun t => { t with bcw := .none })
  | .taken n v =>
    (s.modCore c (fun k => k.setSem n (min 65535 (k.semVal n + v)))).modSeat c i (fun t => { t with bcw := .none })

end Sys2Proof.Machine
end

