-- ==== Sys2Proof/Machine/Events.lean ====
section
/-! DEFINITION. Event records: a die's fault buffer and summaries (R354 to R356), and the PAGE record (R220). -/

namespace Sys2Proof.Machine

open Sys2Proof

/-- Record types (R354, R364, R381). -/
def evPage : Nat := 0x01
def evCtxlost : Nat := 0x02
def evSecalert : Nat := 0x03
def evOverflow : Nat := 0x04
def evCoreret : Nat := 0x05
def evPairfail : Nat := 0x06
def evRepair : Nat := 0x07
def evXdslow : Nat := 0x08
def evPeerlost : Nat := 0x09
def evCe : Nat := 0x10
def evScrubue : Nat := 0x11
def evPairretry : Nat := 0x12
def evTablefix : Nat := 0x13

/-- Whether records of a type are counted in a summary when the host queue has no space (R354, R355). -/
def coalesces (ty : Nat) : Bool := 0x10 ≤ ty

/-- One event counted (R356). -/
def Summary.count (x : Summary) (ty tick : Nat) : Summary :=
  let first := if x.ce + x.scrubue + x.pairretry + x.tablefix = 0 then tick else x.first
  let y := { x with first := first, last := tick }
  if ty = evCe then { y with ce := y.ce + 1 }
  else if ty = evScrubue then { y with scrubue := y.scrubue + 1 }
  else if ty = evPairretry then { y with pairretry := y.pairretry + 1 }
  else { y with tablefix := y.tablefix + 1 }

/-- Whether a summary counts anything. -/
def Summary.any (x : Summary) : Bool := x.ce + x.scrubue + x.pairretry + x.tablefix != 0

/-- Whether the host event queue has space (R355, R373); while the host is lost, and until every tenancy that its loss froze has been reset, it
takes no record (R385, log 141). -/
def State.hostSpace (s : State) : Bool :=
  s.pkg.hostUp && s.tens.all (fun p => !p.2.frozen) && decide ((s.pkg.evqWidx - s.pkg.evqRidx).toNat < s.pkg.evqSize.toNat)

/-- Records that wait moved into free entries of the buffer (R355). -/
def Die.admitEvent (d : Die) : Die :=
  let n := 32 - d.faultBuf.length
  { d with faultBuf := d.faultBuf ++ d.waiting.take n, waiting := d.waiting.drop n }

/-- A record posted at a die (R355): it takes a buffer entry; a coalescing one that finds no space is counted; a kept one may move
the oldest coalescing entry into its summary, or wait. -/
def Die.post (d : Die) (space : Bool) (r : EvRec) : Die :=
  if coalesces r.ty then
    if space && d.faultBuf.length < 32 then { d with faultBuf := d.faultBuf ++ [r] }
    else { d with summary := d.summary.count r.ty r.tick }
  else if d.faultBuf.length < 32 then { d with faultBuf := d.faultBuf ++ [r] }
  else match d.faultBuf.find? (fun x => coalesces x.ty) with
    | none => { d with waiting := d.waiting ++ [r] }
    | some x => { d with
        faultBuf := dropFirst (fun y => coalesces y.ty) d.faultBuf ++ [r]
        summary := d.summary.count x.ty x.tick }

/-- An event of a die: type, tenancy (0xFF for none), cluster and core, and the words from byte 16 on. -/
def State.post (s : State) (die ty ten cluster core : Nat) (words : List Word) : State :=
  s.modDie die (fun d => d.post s.hostSpace
    { ty := ty, ten := ten, cluster := cluster, core := core, tick := s.tbase, words := words })

/-- An event with a place of its own in bytes 16 to 23. -/
def State.postAt (s : State) (die ty ten place : Nat) : State := s.post die ty ten 0 0 [BitVec.ofNat 64 place]

/-- A PAGE record for a page of a tenancy, once until the page is released (R220): kind 0 read, 1 write, 2 atomic, 3 fetch. -/
def State.postPage (s : State) (die ten lid va kind : Nat) : State :=
  let page := va / 2 ^ 16
  if (s.die die).posted.contains (ten, page) then s
  else
    (s.modDie die (fun d => { d with posted := (ten, page) :: d.posted })).post die evPage ten 0 0
      [BitVec.ofNat 64 (page * 2 ^ 16), BitVec.ofNat 64 lid, BitVec.ofNat 64 kind, BitVec.ofNat 64 die]

end Sys2Proof.Machine
end

