-- ==== Sys2Proof/Machine/Translate.lean ====
section
/-! DEFINITION. Physical addresses, page tables, translation caches and the pool aperture (R207 to R219). -/

namespace Sys2Proof.Machine

open Sys2Proof

/-- Bytes of HBM populated on each die (R207). -/
def hbmBytes : Nat := 160000000000

/-- Base of a die's HBM range (R207). -/
def hbmBase (d : Nat) : Nat := 2 ^ 38 * d

/-- Base of a die's pool in the physical map (R207). -/
def poolBase (d : Nat) : Nat := 0x8000000000000 + 2 ^ 28 * d

/-- The number from which the model counts the bytes of the timeline apertures, 2^20 for each tenancy. -/
def tlBase : Nat := 2 ^ 60

/-- What a physical address names (R207): HBM or pool of a die, host memory, a fabric peer's memory. -/
inductive Place where
  | hbm (die : Nat)
  | pool (die : Nat)
  | host
  | peer (m : Nat)
  /-- The timeline apertures (R298), numbered above every physical address. -/
  | tl
  | none
deriving DecidableEq, Repr

/-- The place of a physical address (R207). -/
def placeOf (pa : Nat) : Place :=
  if tlBase ≤ pa then .tl
  else if pa < 0x10000000000 then (if pa % 2 ^ 38 < hbmBytes then .hbm (pa / 2 ^ 38) else .none)
  else if pa < 0x8000000000000 then .none
  else if pa < 0x8000040000000 then .pool (pa / 2 ^ 28 % 4)
  else if pa < 0x9000000000000 then .none
  else if pa < 0xA000000000000 then .host
  else if pa < 0xC000000000000 then .none
  else if bitAt pa 43 then (if field pa 30 13 = 0 then .peer (field pa 44 6) else .none)
  else if field pa 40 3 = 0 then .peer (field pa 44 6)
  else .none

/-- Whether the memory-side cache holds the line of an address (R212). -/
def State.cached (s : State) (pa : Nat) : Bool := (tfind s.lines (pa / 64)).isSome

/-- Whether a read of an address finds poison: that of the cached line, or, where none is cached, that of the unit (R336). -/
def State.poisoned (s : State) (pa : Nat) : Bool :=
  match tfind s.lines (pa / 64) with
  | some l => l.bad
  | none => s.poison.contains (pa / 64)

/-- Whether a physical address lies in HBM. -/
def isHbm (pa : Nat) : Bool :=
  match placeOf pa with
  | .hbm _ => true
  | .pool _ => false
  | .host => false
  | .peer _ => false
  | .tl => false
  | .none => false

/-- The levels of a walk: first index bit, index bits, level (R214). -/
def levels : List (Nat × Nat × Nat) := [(48, 8, 0), (39, 9, 1), (30, 9, 2), (21, 9, 3), (16, 5, 4)]

/-- Alignment of the table a pointer of a level names, as a power of two (R214, R215). -/
def tableAlign (lvl : Nat) : Nat := if lvl = 3 then 8 else 12

/-- Whether a present entry breaks R215. -/
def reservedEntry (e lvl shift : Nat) : Bool :=
  field e 52 4 != 0 || bitAt e 7
    || (if bitAt e 1 then lvl == 4 || field e 56 8 != 0 || field e 2 5 != 0 || e % 2 ^ tableAlign lvl / 256 != 0
        else lvl < 2 || field e 5 2 == 3 || e % 2 ^ shift / 256 != 0)

/-- A page-table entry at an offset of the table region as a die's walker reads it: from its own replica, or, where that sector is
poisoned, from the next die's in DIDR order (R216, R340); the error is a reason code. -/
def State.tableEntry (s : State) (d off : Nat) : Nat → Except Nat Nat
  | 0 => .error 11
  | n + 1 =>
    let a := (field (s.die d).tablebase.toNat 16 22) * 2 ^ 16 + off
    if hbmBytes ≤ a then .error 5
    else if s.poisoned (hbmBase d + a) then s.tableEntry ((d + 1) % 4) off n
    else .ok (leRead s.mem (hbmBase d + a) 8)

/-- The leaf a walk from an entry on finds: none where no entry is present (R214 to R216, R220); the error is a reason code. -/
def walkFrom (s : State) (d ten va : Nat) : List (Nat × Nat × Nat) → Nat → Except Nat (Option Tlb)
  | [], _ => .error 4
  | (shift, n, lvl) :: r, off =>
    match s.tableEntry d (off + 8 * field va shift n) 4 with
    | .error r => .error r
    | .ok e =>
      if !bitAt e 0 then .ok none
      else if reservedEntry e lvl shift then .error 4
      else
        let adr := field e 8 44 * 256
        if bitAt e 1 then walkFrom s d ten va r adr
        else .ok (some ⟨ten, va / 2 ^ shift * 2 ^ shift, 2 ^ shift, adr, field e 56 8, field e 5 2, bitAt e 2, bitAt e 3, bitAt e 4⟩)

/-- A walk by a die's walkers, on the tables as they stand (R216, R217). -/
def State.walk (s : State) (d ten va : Nat) : Except Nat (Option Tlb) :=
  let root := (s.tenancy ten).root.toNat
  if !bitAt root 0 then .error 8 else walkFrom s d ten va levels (field root 11 41 * 2048)

/-- A walk that begins now (R216, R217). -/
def State.beginWalk (s : State) (ten page : Nat) : Walk :=
  { ten := ten, page := page, root := (s.tenancy ten).root, bases := [0, 1, 2, 3].map (fun d => (s.die d).tablebase) }

/-- A state with TCB_ROOT and the table bases that a walk began with. -/
def State.rooted (s : State) (w : Walk) : State :=
  (w.bases.zipIdx).foldl (fun (s : State) p => s.modDie p.2 (fun d => { d with tablebase := p.1 }))
    (s.modTenancy w.ten (fun x => { x with root := w.root }))

/-- Whether the security controller has bound a key ID to a tenancy; key 0 always is (R213). -/
def State.keyBound (s : State) (key ten : Nat) : Bool := key == 0 || s.bound.contains (key, ten)

/-- Whether a physical address can be reached: assigned, populated, and for a peer's memory a module this one admits (R207, R377). -/
def State.reachable (s : State) (pa : Nat) : Bool :=
  match placeOf pa with
  | .hbm _ => true
  | .pool _ => true
  | .host => true
  | .tl => true
  | .none => false
  | .peer m => bitAt s.pkg.lsd.toNat 6 && field s.pkg.lsd.toNat 0 6 != m && bitAt (tget s.pkg.route 0 m).toNat 63

/-- The permission of a leaf for an access: 0, or the reason it is refused (R219). -/
def Tlb.refuses (t : Tlb) (need : Need) : Nat :=
  match need with
  | .read => if t.r then 0 else 1
  | .write => if t.w then 0 else 2
  | .atomic => if !t.r then 1 else if !t.w then 2 else 0
  | .fetch => if t.x then 0 else 3

/-- A cached translation used for an access: its permissions are checked (R218, R219). -/
def Tlb.use (t : Tlb) (va : Nat) (need : Need) : Xlate :=
  if t.refuses need ≠ 0 then .fail (t.refuses need) else .ok (t.pa + (va - t.base)) t.key t.cons

/-- A cached translation used, where the address it gives exists: a leaf may reach past the HBM that is populated (R207). -/
def Tlb.reach (t : Tlb) (va : Nat) (need : Need) : Xlate :=
  match t.use va need with
  | .ok pa key cons => if placeOf pa = .none then .fail 5 else .ok pa key cons
  | x => x

/-- The leaf a walk found checked against the access it was made for (R219): permission, then address, then key (log 135). -/
def State.checkLeaf (s : State) (t : Tlb) (va : Nat) (need : Need) : Xlate :=
  match t.use va need with
  | .ok pa key cons => if !s.reachable pa then .fail 5 else if !s.keyBound key t.ten then .fail 6 else .ok pa key cons
  | .fail r => .fail r
  | .absent => .absent
  | .miss => .miss

/-- Whether a cached translation is one for the address. -/
def Tlb.covers (t : Tlb) (ten va : Nat) : Bool := t.ten == ten && t.base ≤ va && va < t.base + t.size

/-- The cached translation for an address: core, cluster, die, in that order (R218). -/
def State.tlbFind (s : State) (c ten va : Nat) : Option Tlb :=
  let d := s.die (dieOf c)
  match (s.core c).tlb.find? (fun t => t.covers ten va) with
  | some t => some t
  | none => match (tget d.clTlb [] (clusterOf c)).find? (fun t => t.covers ten va) with
    | some t => some t
    | none => d.tlb.find? (fun t => t.covers ten va)

/-- A translation entered into the TLBs of a die, of a cluster and of a core, each within its size (R218). -/
def State.tlbFill (s : State) (c : Nat) (t : Tlb) : State :=
  let s := s.modDie (dieOf c) (fun d => { d with
    tlb := (t :: d.tlb).take Config.dieTlb
    clTlb := tput d.clTlb (clusterOf c) ((t :: tget d.clTlb [] (clusterOf c)).take Config.clusterTlb) })
  s.modCore c (fun k => { k with tlb := (t :: k.tlb).take Config.coreTlb })

/-- The bytes of a launch's pool window on a die, and its base in the pool (R175, R210). -/
def State.window (s : State) (ten lid d : Nat) : Option (Nat × Nat) :=
  match s.launch ten lid with
  | none => none
  | some l => match tfind l.window d with
    | none => none
    | some b => some (b, l.pool)

/-- The size of the window, 0 where there is none. -/
def State.windowSize (s : State) (ten lid d : Nat) : Nat :=
  match s.window ten lid d with
  | none => 0
  | some w => w.2

/-- The physical address of a window offset. -/
def State.windowPa (s : State) (ten lid d off : Nat) : Nat :=
  match s.window ten lid d with
  | none => poolBase d + off
  | some w => poolBase d + w.1 + off

/-- Whether an address lies in the tenancy's pool aperture (R211). -/
def State.inAperture (s : State) (ten va : Nat) : Bool :=
  let r := (s.tenancy ten).poolva.toNat
  bitAt r 0 && va / 2 ^ 30 == field r 30 26

/-- An aperture access of a strand (R211). -/
def State.aperture (s : State) (ten lid va : Nat) (need : Need) : Xlate :=
  let d := va / 2 ^ 28 % 4
  let off := va % 2 ^ 28
  if need = .fetch then .fail 3
  else match s.window ten lid d with
    | none => .fail 7
    | some w => if off < w.2 then .ok (poolBase d + w.1 + off) 0 0 else .fail 7

/-- Whether an address lies in the tenancy's timeline aperture (R298). -/
def State.inTimelines (s : State) (ten va : Nat) : Bool :=
  let r := (s.tenancy ten).tlva.toNat
  bitAt r 0 && va / 2 ^ 17 == field r 17 39

/-- An access to the timeline aperture (R298). -/
def timelineXlate (ten va : Nat) (need : Need) : Xlate :=
  match need with
  | .read => .ok (tlBase + 2 ^ 20 * ten + va % 2 ^ 17) 0 0
  | .write => .fail 2
  | .atomic => .fail 2
  | .fetch => .fail 3

/-- Translation of a strand's access through the apertures or the TLBs (R211, R218, R298). -/
def State.translate (s : State) (c ten lid va : Nat) (need : Need) : Xlate :=
  if s.inTimelines ten va then timelineXlate ten va need
  else if s.inAperture ten va then s.aperture ten lid va need
  else match s.tlbFind c ten va with
    | some t => t.reach va need
    | none => .miss

/-- What the tables give for an address as they stand, cached translations first: the attribute of the page is known before
its walk ends (log 20). -/
def State.foresee (s : State) (c ten lid va : Nat) (need : Need) : Xlate :=
  match s.translate c ten lid va need with
  | .miss => match s.walk (dieOf c) ten va with
    | .error r => .fail r
    | .ok none => .absent
    | .ok (some t) => s.checkLeaf t va need
  | x => x

/-- Whether a translation that is asked for is that of an access. -/
def Ask.asks (a : Ask) (va : Nat) (need : Need) : Bool := a.va / 2 ^ 16 == va / 2 ^ 16 && a.need == need

/-- What the walk that an asker made for an access has found, where it found no leaf to use. -/
def answerOf (a : Option Ask) (va : Nat) (need : Need) : Option Xlate :=
  match a with
  | none => none
  | some x => if x.asks va need then x.found else none

/-- Whether an access at a core has no cached translation, and its asker has not made the walk (R218). -/
def State.unwalked (s : State) (c ten lid : Nat) (a : Option Ask) (va : Nat) (need : Need) : Bool :=
  s.translate c ten lid va need == .miss && (answerOf a va need).isNone

/-- A translation asked for, unless it has been. -/
def askFor (a : Option Ask) (va : Nat) (need : Need) : Option Ask :=
  match a with
  | none => some { va := va, need := need }
  | some x => if x.asks va need then a else some { va := va, need := need }

/-! ## Homes -/

/-- The KIND of a PAGE record (R220). -/
def needKind : Need → Nat
  | .read => 0
  | .write => 1
  | .atomic => 2
  | .fetch => 3

/-- Whether a sector missing from the cache passes its tag check under a key (R213, log 12). -/
def State.tagPasses (s : State) (pa key : Nat) : Bool :=
  match tfind s.keys (pa / 64) with
  | none => true
  | some k => k == s.pkg.keygen * 256 + key

/-- LANEMAP of a port (R378): FAULT resets to 15. -/
def Pkg.lane (p : Pkg) (port : Nat) : Nat := (tget p.lanes 15 port).toNat

/-- The port that carries the traffic of a peer (R377). -/
def Pkg.portOf (p : Pkg) (m : Nat) : Nat := field (tget p.route 0 m).toNat 0 4

/-- Ticks for which the sparing of a lane stalls the traffic of a link: 1.5 microseconds (R379). -/
def spareLimit : Nat := 1500

/-- Whether a port's traffic is held: while its link retrains, or for the sparing of a lane (R379). -/
def State.portStalled (s : State) (port : Nat) : Bool :=
  match tfind s.pkg.portHeld port with
  | none => false
  | some t => bitAt (s.pkg.lane port) 6 || decide (s.tbase ≤ t + spareLimit)

/-- Whether traffic to a module does not go on: its link carries none, or holds it (R378, R379). -/
def State.peerHeld (s : State) (m : Nat) : Bool := !bitAt (s.pkg.lane (s.pkg.portOf m)) 7 || s.portStalled (s.pkg.portOf m)

/-- What a home does with an access: serves it, refuses a retired frame, finds poison (class of R343) or a failed tag, refuses a pod
key, is lost, or answers nothing yet. -/
inductive Home where
  | ok
  | retired
  | poison (cls pa : Nat)
  | integrity (pa : Nat)
  | denied
  | lost (m : Nat)
  | silent
deriving DecidableEq, Repr

/-- The die whose timeline a byte of a timeline aperture belongs to (R298). -/
def timelineDie (pa : Nat) : Nat := (pa - tlBase) % 2 ^ 20 / 2 ^ 15 % 4

/-- Whether a port has accepted stores that it has still to send, those before a place in its order (R226). -/
def State.portQueue (s : State) (pa : Nat) (place : Option Nat) : Bool :=
  s.cores.any (fun p => p.2.seats.any (fun q => q.2.accs.any (fun a => match a.accepted, a.pas with
    | some k, some ps => ps.any (fun x => placeOf x == placeOf pa) && (match place with
      | none => true
      | some j => decide (k < j))
    | _, _ => false)))

/-- What the home of one byte range within a 64-byte unit answers, to a store the place it was accepted at: a port passes no later access
ahead of a store that it has accepted (R226). -/
def State.homeFor (s : State) (place : Option Nat) (pa key : Nat) : Home :=
  match placeOf pa with
  | .hbm d =>
    if (s.die d).halted.isSome then .silent
    else if (s.die d).retired.contains (pa / 2 ^ 16) then .retired
    else if s.poisoned pa then .poison (if s.cached pa then 5 else 1) (pa / 64 * 64)
    else if s.cached pa || s.tagPasses pa key then .ok else .integrity (pa / 64 * 64)
  | .pool d =>
    if (s.die d).halted.isSome then .silent
    else if s.poisoned pa then .poison 2 (pa / 64 * 64) else .ok
  | .host => if !s.pkg.hostUp then .lost 64 else if s.pkg.hostHeld.isSome || s.portQueue pa place then .silent else .ok
  | .peer m =>
    if !bitAt (tget s.pkg.route 0 m).toNat 63 then .lost m else if s.peerHeld m || s.portQueue pa place then .silent else .ok
  | .tl => if (s.die (timelineDie pa)).halted.isSome then .silent else .ok
  | .none => .ok

/-- The module a physical address belongs to: a peer, or 64 for the host. -/
def moduleOf (pa : Nat) : Option Nat :=
  match placeOf pa with
  | .peer m => some m
  | .host => some 64
  | .hbm _ => none
  | .pool _ => none
  | .tl => none
  | .none => none

/-- The die that is the home of a physical address has replied to another, which no longer reports it slow (R364). -/
def State.heardFrom (s : State) (me pa : Nat) : State :=
  match placeOf pa with
  | .hbm d => s.heard me d
  | .pool d => s.heard me d
  | .tl => s.heard me (timelineDie pa)
  | .host => s
  | .peer _ => s
  | .none => s

/-- What the home of one byte range within a 64-byte unit answers. -/
def State.homeOne (s : State) (pa key : Nat) : Home := s.homeFor none pa key

/-- The tenancy of a peer module that a local tenancy's requests are applied under there (R377). -/
def State.peerTen (s : State) (ten m : Nat) : Option Nat := Config.peerKeymap m (s.tenancy ten).podkey.toNat s.tbase

/-- What a home answers to an access of a tenancy: a peer refuses one whose pod key it does not bind (R377, log 40). -/
def State.homeTen (s : State) (place : Option Nat) (ten pa key : Nat) : Home :=
  match s.homeFor place pa key, placeOf pa with
  | .ok, .peer m => if (s.peerTen ten m).isSome then .ok else .denied
  | h, _ => h

/-- What the homes of several parts answer to an access of a tenancy: the first that does not serve its part. -/
def State.homesFor (s : State) (place : Option Nat) (ten key : Nat) : List Nat → Home
  | [] => .ok
  | pa :: r => match s.homeTen place ten pa key with
    | .ok => s.homesFor place ten key r
    | h => h

/-- What the homes of several parts answer to an access that no port has accepted. -/
def State.homeAll (s : State) (ten key : Nat) (pas : List Nat) : Home := s.homesFor none ten key pas

/-- What the homes of some parts of a tenancy's access answer: one outstanding to a module when that was lost stays lost (R382). -/
def State.homeAcc (s : State) (place : Option Nat) (ten : Nat) (a : Acc) (pas : List Nat) : Home :=
  match a.lost with
  | some m => .lost m
  | none => s.homesFor place ten a.key pas

end Sys2Proof.Machine
end

