-- ==== Sys2Proof/Machine/Ops.lean ====
section
/-! DEFINITION. The shared operations of the machine: the end of a strand, taking a trap and returning from one, the outcome of
the checks before a bundle issues, signals, results that raise flags, the accesses a strand has under way, and the end of a
bundle's issue. -/

namespace Sys2Proof.Machine

open Sys2Proof

/-! ## The end of a strand, and tracking entries of CHECKED lines -/

/-- The smaller non-zero status of two (R184). -/
def worseStatus (a b : Nat) : Nat := if a = 0 then b else if b = 0 then a else min a b

/-- The number of the strand in the counters of coarse lines (R237). -/
def strandHash (lid idx : Nat) : Nat := (lid + 13 * idx) % 64

/-- Whether an entry is a strand's. -/
def LineEntry.isOf (x : LineEntry) (ten lid idx : Nat) : Bool := x.ten == ten && x.lid == lid && x.idx == idx

/-- One signature's counter lowered for a strand that touched it; a counter at 15 is stuck (R237). -/
def lowerCounter (t : Tab Nat) (sig h mask : Nat) : Tab Nat :=
  let k := sig * 64 + h
  let v := tget t 0 k
  if mask = 0 || v = 15 then t else tset t 0 k (v - 1)

/-- A line without some entries; a coarse line whose counters are all 0 is fine again (R236, R237). -/
def Line.dropEntries (l : Line) (gone : LineEntry → Bool) : Line :=
  if l.coarse then
    let cs := (l.touched.filter gone).foldl (fun c x =>
      let h := strandHash x.lid x.idx
      lowerCounter (lowerCounter (lowerCounter (lowerCounter c 0 h x.pr) 1 h x.sr) 2 h x.pw) 3 h x.sw) l.counters
    { l with counters := cs, touched := l.touched.filter (fun x => !gone x), coarse := !cs.isEmpty }
  else { l with entries := l.entries.filter (fun x => !gone x) }

/-- A line without a strand's entries. -/
def Line.release (l : Line) (ten lid idx : Nat) : Line := l.dropEntries (fun x => x.isOf ten lid idx)

/-- A strand's release at every home: its entries cleared (R236). -/
def State.releaseLines (s : State) (ten lid idx : Nat) : State :=
  { s with lines := s.lines.map (fun p => (p.1, p.2.release ten lid idx)) }

/-- The entries of an engine command cleared at every home, as it completes (R236, R324). -/
def State.releaseCmd (s : State) (cmd : Nat) : State :=
  { s with lines := s.lines.map (fun p => (p.1, p.2.dropEntries (fun x => x.cmd == cmd))) }

/-- The entries of a seat's strand cleared. -/
def State.releaseSeat (s : State) (c i : Nat) : State :=
  match (s.seat c i).strand with
  | none => s
  | some x => s.releaseLines x.ten x.lid x.idx

/-- A seat freed: it holds no strand, and if it was running no seat runs. -/
def State.freeSeat (s : State) (c i : Nat) : State :=
  s.modCore c (fun k => { k with
    seats := tput k.seats i {}
    running := if k.running = some i then none else k.running
    last := if k.running = some i then i else k.last
    mx := if (tget k.seats {} i).claims then {} else k.mx })

/-- The bundle being issued, dropped if it is a seat's. -/
def State.dropIssue (s : State) (c i : Nat) : State :=
  { s with iss := match s.iss with
    | none => none
    | some u => if u.core = c && u.seat = i then none else some u }

/-- The strand on a seat ends with a status: it leaves its launch's count and every later phase of it (R99, R150, R179, R184). -/
def State.endStrand (s : State) (c i status : Nat) : State :=
  let s := s.releaseSeat c i
  let s := match (s.seat c i).strand with
    | none => s
    | some x => s.modLaunch x.ten x.lid (fun l => { l with ended := x.idx :: l.ended, status := worseStatus l.status status })
  (s.freeSeat c i).dropIssue c i

/-- Whether an access of a killed strand is still performed: those that change memory or a queue, since only the bundle at the point
of the kill does not issue (R333). What would return to the strand is lost with its seat state. -/
def AccKind.outlives : AccKind → Bool
  | .store => true | .vstore => true
  | .atom _ => true | .xins => true | .launch => true
  | .load _ => false | .vload => false | .sqld => false | .xldp => false | .xhash => false | .xwalk _ => false

/-- A strand killed with a launch status (R333): its bundle does not issue, a BCW wait consumed without issue is returned, what it
was owed is discarded; its seat is freed by STRAND_KILL once its signals and engine commands are done. -/
def State.killStrand (s : State) (c i status : Nat) : State :=
  ((s.returnWait c i).dropIssue c i).modSeat c i (fun t => { t with
    killed := some status
    flights := [], accs := t.accs.filter (fun a => a.kind.outlives), deferred := []
    pend := none, wait := none, held := none, leave := none, after := none, dataq := [], preempt := none, stuck := none, ask := none })

/-! ## Traps (R149 to R156) -/

/-- A load, for the waits of R151 and R200: everything that returns data to the strand (log 144). -/
def AccKind.loads : AccKind → Bool
  | .load _ => true | .atom _ => true | .vload => true | .sqld => true | .xldp => true | .xhash => true | .xins => true
  | .xwalk _ => true
  | .store => false | .vstore => false | .launch => false

/-- Whether the seat still has a load outstanding. -/
def Seat.loading (t : Seat) : Bool := t.accs.any (fun a => a.kind.loads)

/-- Whether the strand on a seat is the one named. -/
def Seat.runs (t : Seat) (ten lid idx : Nat) : Bool :=
  match t.strand with
  | none => false
  | some x => x.ten == ten && x.lid == lid && x.idx == idx

/-- Whether an SCHECK of a seat's strand has still to return its predicate, of one bundle or of any. -/
def State.checking (s : State) (c i : Nat) (seq : Option Nat) : Bool :=
  (s.core c).unit.any (fun x =>
    x.seat == i && x.dst.isSome && (s.seat c i).runs x.ten x.lid x.idx && seq.all (fun q => q == x.seq))

/-- Whether some result of a seat without a fixed latency has still to return to it: of an access, of a SEMSIG, of an SCHECK (R157). -/
def State.resultsOut (s : State) (c i : Nat) : Bool :=
  (s.seat c i).loading || (s.seat c i).accs.any (fun a => a.kind == .launch) || (s.seat c i).sigs.any (fun g => g.dst.isSome)
    || s.checking c i none

/-- A word with its low three bits clear. -/
def align8 (x : Word) : Word := x &&& ~~~(7 : Word)

/-- The delay state in the TDLY layout (R153). -/
def packDelay (count : Nat) (target : Word) (mis : Bool) : Word :=
  if count = 0 then 0
  else align8 target ||| (if mis || target &&& 7 ≠ 0 then 4 else 0) ||| BitVec.ofNat 64 count

/-- The delay state a TDLY image stands for, as a resumption takes it (R30, R152); fall says that it stands for a fall-through whose
address could not be known (log 103). -/
def unpackDelay (d pc : Word) (fall : Bool) : Delay :=
  let n := field d.toNat 0 2
  if n = 0 then {}
  else { count := n, target := if fall then none else some (align8 d), mis := bitAt d.toNat 2, branch := pc, resumed := true }

/-- Whether a delay state stands for a fall-through whose address is not known. -/
def Delay.falls (d : Delay) : Bool := d.count != 0 && d.target.isNone

/-- A delay state as TDLY holds it. -/
def Delay.word (d : Delay) : Word := packDelay d.count (d.target.getD 0) d.mis

/-- A delay state as a resumption at an address takes it. -/
def Delay.resume (d : Delay) (pc : Word) : Delay := unpackDelay d.word pc d.falls

/-- What a fetch of a word of code finds (R13, R219, R337, R365, R382). -/
inductive Fetch where
  | word (w : Word)
  | fail (reason : Nat)
  | page
  | lost (m : Nat)
  | poison (pa : Nat)
  /-- A sector that fails its tag check. -/
  | tag (pa : Nat)
  /-- Its home does not answer yet. -/
  | silent
deriving DecidableEq, Repr

/-- A word of code at a physical address, for a strand of a tenancy. -/
def State.codeAt (s : State) (ten pa key : Nat) : Fetch :=
  match placeOf pa, s.homeTen none ten pa key with
  | .tl, _ => .fail 3
  | .none, _ => .fail 5
  | _, .ok => .word (BitVec.ofNat 64 (leRead s.mem pa 8))
  | _, .retired => .fail 10
  | _, .denied => .fail 12
  | _, .poison _ _ => .poison pa
  | _, .integrity _ => .tag pa
  | _, .lost m => .lost m
  | _, .silent => .silent

/-- The word of an instruction buffer at an address: the core's, or else its cluster's (R224). -/
def State.buffered (s : State) (c ten va : Nat) : Option Code :=
  let here (x : Code) : Bool := x.ten == ten && x.va == va
  (s.core c).ibuf.find? here <|> (tget (s.die (dieOf c)).clBuf [] (clusterOf c)).find? here

/-- A word of code at an address of a strand. An instruction buffer supplies it unless the fetch is a fresh one (R224). -/
def State.codeFetch (s : State) (c ten lid va : Nat) (fresh : Bool) : Fetch :=
  if 2 ^ 56 ≤ va then .fail 0
  else match (if fresh then none else s.buffered c ten va) with
    | some x => .word x.word
    | none => match s.foresee c ten lid va .fetch with
      | .ok pa key _ => s.codeAt ten pa key
      | .fail r => .fail r
      | .absent => .page
      | .miss => .page

/-- The address after n bundles from an address on, by the lengths their BCWs give (R28); otherwise the address of the word
that could not be fetched, and why. -/
def State.afterBundles (s : State) (c ten lid : Nat) : Nat → Word → Except (Word × Fetch) Word
  | 0, va => .ok va
  | n + 1, va => match s.codeFetch c ten lid va.toNat false with
    | .word w => s.afterBundles c ten lid n (va + BitVec.ofNat 64 (8 * (Bcw.of w).words))
    | f => .error (va, f)

/-- Whether the fetch of a word has to wait for a walk: no buffer supplies it and its translation is missing (R218). -/
def State.fetchUnwalked (s : State) (c i ten lid va : Nat) (fresh : Bool) : Bool :=
  va < 2 ^ 56 && (fresh || (s.buffered c ten va).isNone) && s.unwalked c ten lid (s.seat c i).ask va .fetch

/-- The first of n bundles from an address on whose BCW cannot be fetched before a walk. -/
def State.bundlesUnwalked (s : State) (c i ten lid : Nat) : Nat → Word → Option Nat
  | 0, _ => none
  | n + 1, va =>
    if s.fetchUnwalked c i ten lid va.toNat false then some va.toNat
    else match s.codeFetch c ten lid va.toNat false with
      | .word w => s.bundlesUnwalked c i ten lid n (va + BitVec.ofNat 64 (8 * (Bcw.of w).words))
      | _ => none

/-- The fall-through address of a branch not taken, from the lengths of the delay bundles still to execute; none while one of their BCWs
cannot be fetched (R28, R30, log 103). -/
def State.fallThrough (s : State) (c i : Nat) : Option Word :=
  let t := s.seat c i
  match t.strand with
  | none => none
  | some x => match s.afterBundles c x.ten x.lid t.delay.count t.pc with
    | .ok a => some a
    | .error _ => none

/-- The delay state of the seat's next bundle as a trap, a pre-emption or a halt records it: the fall-through address is the target
where the branch was not taken (R30). -/
def State.delayOf (s : State) (c i : Nat) : Delay :=
  let d := (s.seat c i).delay
  if d.count = 0 then {} else { d with target := d.target <|> s.fallThrough c i }

/-- The earliest of some deferred traps in program order (R156). -/
def earliest : List TrapRec → Option TrapRec
  | [] => none
  | r :: rs => match earliest rs with
    | none => some r
    | some q => if q.seq < r.seq then some q else some r

/-- The trap that an entry reports, whether more than one deferred trap is pending, and the deferred traps that stay (R151, R156): of
the deferred ones the earliest; they also go before a trap whose bundle is judged again (log 104). -/
def Seat.reports (t : Seat) (p : PendingTrap) : PendingTrap × Bool × List TrapRec :=
  let all := if p.rcd.defer then p.rcd :: t.deferred else t.deferred
  match p.rcd.defer || p.redo.isSome, earliest all with
  | true, some r => ({ p with rcd := r, tpc := p.redo.getD p.tpc }, decide (1 < all.length), [])
  | _, _ => (p, false, t.deferred)

/-- TVEC.EN (R153). -/
def trapsOn (t : Seat) : Bool := t.trap.vec.getLsbD 0

/-- A seat halted for the debugger (R157): its pipelines are drained, what it has spent on its next bundle is forgotten, and its delay state
is recorded, which the resumption takes (R30, R158). While results are still to return it only stops issuing. -/
def State.debugStop (s : State) (c i : Nat) : State :=
  if s.resultsOut c i then s.modSeat c i (fun t => { t with halting := true })
  else
    let s := s.drainAll c i
    let d := s.delayOf c i
    s.modSeat c i (fun t => { t with
      halted := true, halting := false, step := false, ported := false, counted := false, holding := false, delay := d.resume t.pc })

/-- The end of trap entry (R151 steps 3 and 4), after the drain and the four cycles: the trap registers are written, and the seat continues at
TVEC.ADDR in trap mode; one that is being stepped, or is to be halted, halts there (R157, R159). -/
def State.enterTrap (s : State) (c i : Nat) (p : PendingTrap) : State :=
  let (p, multi, rest) := (s.seat c i).reports p
  let s := s.modSeat c i (fun t => { t with
    pend := none
    deferred := rest
    tm := true
    delay := {}
    pc := align8 t.trap.vec
    target := some { tpc := align8 t.trap.vec, mis := false, resumed := false }
    trap := { t.trap with
      cause := BitVec.ofNat 64 (p.rcd.cause + (if p.rcd.defer then 256 else 0) + (if multi then 512 else 0))
      pc := p.tpc
      dly := p.dly.word
      fall := p.dly.falls
      info0 := BitVec.ofNat 64 p.rcd.info0
      info1 := BitVec.ofNat 64 p.rcd.info1
      info2 := BitVec.ofNat 64 p.rcd.info2
      info3 := BitVec.ofNat 64 p.rcd.info3 } })
  if (s.seat c i).step || (s.seat c i).halting then s.debugStop c i else s

/-- A trap of a seat (R150, R151, R164). The bundle being issued leaves the seat and its BCW wait is returned (R193). In trap mode, or with
TVEC.EN at 0, it is unhandled and kills the strand; otherwise the results in flight are drained, the four cycles of entry pass, the first of
them the one in which the last result becomes readable, and entry ends once the seat's loads have returned (log 105). -/
def State.takeTrap (s : State) (c i : Nat) (r : TrapRec) (tpc : Word) (dly : Delay) (redo : Option Word) : State :=
  let s := { (s.returnWait c i).modSeat c i (fun t => { t with holding := false, ported := false, counted := false }) with iss := none }
  let t := s.seat c i
  let p : PendingTrap := ⟨r, tpc, dly, redo⟩
  if t.tm || !trapsOn t then s.killStrand c i 1
  else
    let s := (s.drain c i).idle c 4
    if t.loading then s.modSeat c i (fun t => { t with pend := some p }) else s.enterTrap c i p

/-- A precise trap at the bundle at a seat's pc (R154): the cycle places an entry of 8. -/
def State.preciseTrap (s : State) (c i : Nat) (r : TrapRec) : State :=
  let t := s.seat c i
  (s.idle c 1).takeTrap c i r t.pc (s.delayOf c i) (some t.pc)

/-- Return from a trap (R101, R152): trap mode left, the strand resumed at TPC with TDLY's delay state, its next bundle n cycles from
now or later. -/
def State.returnTrap (s : State) (c i n : Nat) : State :=
  let due := (s.core c).now + n
  let s := s.drain c i
  let s := s.idle c (due - (s.core c).now)
  s.modSeat c i (fun t => { t with
    tm := false
    pc := t.trap.pc
    delay := unpackDelay t.trap.dly t.trap.pc t.trap.fall
    target := none })

/-- A deferred trap noted for the seat's next issue (R154, R156). -/
def State.deferTrap (s : State) (c i : Nat) (r : TrapRec) : State :=
  s.modSeat c i (fun t => { t with deferred := t.deferred ++ [r] })

/-- Cause codes (R154). -/
def causeIll : Nat := 0x01
def causeBadtgt : Nat := 0x02
def causeEnergy : Nat := 0x03
def causeFpx : Nat := 0x04
def causeSpmeta : Nat := 0x05
def causeQimbal : Nat := 0x06
def causeXlate : Nat := 0x07
def causeMemrace : Nat := 0x08
def causeOob : Nat := 0x09
def causeRemlost : Nat := 0x0A
def causeBoard : Nat := 0x0B
def causeSemovf : Nat := 0x0C
def causeBreak : Nat := 0x0D
def causePriv : Nat := 0x0E
def causeAlign : Nat := 0x0F
def causeRegrange : Nat := 0x11
def causeSwtrap : Nat := 0x12

/-- A precise trap's record. -/
def trapRec (cause info0 info1 info2 info3 : Nat) : TrapRec := ⟨cause, info0, info1, info2, info3, false, 0⟩

/-! ## The checks before a bundle issues -/

/-- What stands against a syllable's issue: nothing, a hold-line condition (R22), a blocking condition (R178), or an issue-time
trap (R107); or a page that is not present, on which the strand suspends at the bundle (R13, R98). -/
inductive Pre where
  | ok
  | hold
  | block
  | page (va kind : Nat)
  /-- A translation it cannot do without is missing (R218). -/
  | walk (va : Nat) (need : Need)
  | trap (r : TrapRec)
deriving DecidableEq, Repr

/-- One check after another: the first that is not ok. -/
def Pre.and (a b : Pre) : Pre :=
  match a with
  | .ok => b
  | .hold => .hold
  | .block => .block
  | .page va k => .page va k
  | .walk va need => .walk va need
  | .trap r => .trap r

/-- A bundle that does not issue in this cycle: the core holds, with an entry of 8 (R22). -/
def State.holdBundle (s : State) (u : Issue) : State := { s with iss := none }.idle u.core 1

/-- A bundle whose seat is blocked (R178): the cycle places an entry of 8 and no seat runs until one is chosen. -/
def State.blockBundle (s : State) (u : Issue) : State :=
  ({ s with iss := none }.idle u.core 1).modCore u.core (fun k => { k with running := none, last := u.seat, bubbled := false })

/-- A strand that suspends at a bundle because a page is not present (R13, R220): a PAGE record is posted once, and the bundle
leaves the seat (R193). With a tile in progress the seat is blocked in place instead (R290). -/
def State.pageSuspend (s : State) (c i va kind : Nat) : State :=
  let t := s.seat c i
  match t.strand with
  | none => s
  | some x =>
    let s := (s.postPage (dieOf c) x.ten x.lid va kind).returnWait c i
    if t.claims && (s.core c).mx.tile.isSome then s.modSeat c i (fun t => { t with stuck := some va })
    else s.modSeat c i (fun t => { t with
      after := match t.leave with
        | some .preempt => t.after
        | some (.page _ _) => t.after
        | some l => some l
        | none => t.after
      paged := false
      leave := some (.page va kind) })

/-- The effect of a syllable under its checks; those of a bundle that issued have been made when it did (R107). -/
def gate (p : Pre) (s : State) (u : Issue) (k : State → State) : State :=
  match (if u.checked then .ok else p) with
  | .ok => k s
  | .hold => s.holdBundle u
  | .block => s.blockBundle u
  | .page va kind => (s.blockBundle u).pageSuspend u.core u.seat va kind
  | .walk _ _ => s.holdBundle u
  | .trap r => s.preciseTrap u.core u.seat r

/-- The bundle being issued, and what the part does for a syllable of it; with no bundle being issued nothing happens. -/
def onIssue (s : State) (k : Issue → State) : Host.Outcome State Fault Refusal :=
  match s.iss with
  | none => .next s
  | some u => .next (k u)

/-- A syllable whose guard must hold for it to act (R11), under its checks. -/
def guarded (s : State) (g : Guard) (pre : Issue → Pre) (k : Issue → State → State) : Host.Outcome State Fault Refusal :=
  onIssue s (fun u => if s.guard u g then gate (pre u) s u (k u) else s)

/-- A syllable with no checks of its own whose guard must hold for it to act (R11). -/
def simple (s : State) (g : Guard) (k : Issue → State) : Host.Outcome State Fault Refusal :=
  onIssue s (fun u => if s.guard u g then k u else s)

/-! ## Results that raise flags (R69, R70) -/

/-- The first element that raised an enabled flag, with the enabled flags its syllable raised (R70). -/
def fpxElem (en : Nat) (fls : List Nat) : Option (Nat × Nat) :=
  match findNat (fun k => (fls.getD k 0) &&& en != 0) fls.length with
  | none => none
  | some k => some (k, (fls.foldl (· ||| ·) 0) &&& en)

/-- A result with the flags of its elements: it lands with the flags, and an enabled one leaves an FPX pending, of the first
such syllable of the bundle (R69, R70). -/
def State.resultFp (s : State) (u : Issue) (pos lat : Nat) (dst : Option Reg) (val : Nat) (fls : List Nat) : State :=
  let s := s.fly u pos lat dst val (fls.foldl (· ||| ·) 0) true true
  let t := s.seat u.core u.seat
  match fpxElem (field t.mode.fctl.toNat 0 5) fls with
  | none => s
  | some (k, fl) =>
    if t.deferred.any (fun r => r.cause == causeFpx && r.seq == u.seq) then s
    else s.deferTrap u.core u.seat ⟨causeFpx, k * 2 ^ 16 + pos * 2 ^ 8 + fl, 0, u.pc.toNat, 0, true, u.seq⟩

/-- FCTL.FTZ of the seat (R68). -/
def State.ftz (s : State) (u : Issue) : Bool := bitAt (s.seat u.core u.seat).mode.fctl.toNat 5

/-! ## Accesses under way (R144 to R147, R227) -/

/-- Whether one access comes before another in program order (R144). -/
def Acc.before (a b : Acc) : Bool := a.id < b.id

/-- Whether an access has performed at every scope: an atomic once its home has applied it (R226); any other leaves the list when it
does. -/
def Acc.performed (a : Acc) : Bool := a.result.isSome

/-- Whether an access has performed at SYS scope, or at a narrower one: for that a port's acceptance is enough (R226). -/
def Acc.performedAt (a : Acc) (sys : Bool) : Bool := a.performed || (!sys && a.accepted.isSome)

/-- Whether an access returns data, whose value is fixed when it performs. -/
def AccKind.returns : AccKind → Bool
  | .store => false | .vstore => false
  | .load _ => true | .atom _ => true | .vload => true | .sqld => true | .xldp => true | .xhash => true | .xins => true
  | .xwalk _ => true | .launch => true

/-- Whether an access writes. -/
def AccKind.writes : AccKind → Bool
  | .store => true | .vstore => true | .atom _ => true | .xins => true | .launch => true
  | .load _ => false | .vload => false | .sqld => false | .xldp => false | .xhash => false | .xwalk _ => false

/-- Whether an access is an atomic; XINS makes relaxed ones (R322). -/
def AccKind.atomic : AccKind → Bool
  | .atom _ => true | .xins => true
  | .load _ => false | .store => false | .vload => false | .vstore => false | .sqld => false | .xldp => false | .xhash => false
  | .xwalk _ => false | .launch => false

/-- Whether an access is an atomic or a synchronising access, which never race with each other (R230). -/
def Acc.syncs (a : Acc) : Bool := a.acq || a.rel || a.kind.atomic

/-- Whether an access is a relaxed atomic (R248). -/
def Acc.relaxed (a : Acc) : Bool := a.kind.atomic && !a.acq && !a.rel

/-- Whether two accesses may share a byte; one whose translation is missing may share any (R145). -/
def Acc.meets (a b : Acc) : Bool :=
  match a.pas, b.pas with
  | some x, some y => x.any (fun p => y.any (fun q => overlaps p a.n q b.n))
  | none, _ => true
  | some _, none => true

/-- Whether an access must have performed before a later one of the strand acts, although the later one is no release: they may share a
byte (R145), they are pool accesses of one bundle (R143), both are atomics or synchronise (R230) or the later one writes what could depend
on the earlier one's value (R231), but for relaxed atomics, which pass each other (R248), both are ORDERED (R241), or both load scales
(R111). -/
def Acc.bars (b a : Acc) : Bool :=
  b.meets a || (b.seq == a.seq && b.pool && a.pool)
    || (((b.syncs && a.syncs) || (b.kind.returns && a.kind.writes)) && !(b.relaxed && a.relaxed))
    || (b.ordered && a.ordered) || (a.kind == .sqld && b.kind == .sqld)

/-- Whether an access holds a later one of the strand back (R145, R227): an acquire does until it has returned, one that bars it until it has
performed, and everything holds a release back until it has performed at the release's scope. -/
def Acc.holds (b a : Acc) : Bool := b.acq || (if b.bars a then !b.performed else a.rel && !b.performedAt a.sys)

/-- Whether an access may act at its home: its translation is known and no earlier access of the strand holds it back. -/
def Seat.mayAct (t : Seat) (a : Acc) : Bool :=
  a.pas.isSome && !a.performed && t.accs.all (fun b => !b.before a || !b.holds a)

/-- Whether an access may perform now: it may act, and its time has come. -/
def Seat.mayPerform (t : Seat) (now : Nat) (a : Acc) : Bool := t.mayAct a && decide (a.due ≤ now)

/-- The access of a seat with an id. -/
def Seat.findAcc (t : Seat) (id : Nat) : Option Acc := t.accs.find? (fun a => a.id == id)

/-- A seat without one access. -/
def Seat.dropAcc (t : Seat) (id : Nat) : Seat := { t with accs := t.accs.filter (fun a => a.id != id) }

/-- A seat with one access changed. -/
def Seat.modAcc (t : Seat) (id : Nat) (f : Acc → Acc) : Seat := { t with accs := modifyFirst (fun a => a.id == id) f t.accs }

/-- An access of a syllable put under way; its id is the core's next. -/
def State.pushAcc (s : State) (u : Issue) (a : Acc) : State :=
  let id := (s.core u.core).nextId
  (s.modCore u.core (fun k => { k with nextId := id + 1 })).modSeat u.core u.seat (fun t =>
    { t with accs := t.accs ++ [{ a with id := id, seq := u.seq, bundle := u.pc }] })

/-- Whether every access of a seat before a place in its program order has performed at CORE scope. -/
def Seat.performedBefore (t : Seat) (seq pos : Nat) : Bool :=
  t.accs.all (fun a => a.performedAt false || seq < a.seq || (seq == a.seq && pos ≤ a.pos))

/-! ## Signals (R194, R195) -/

/-- Whether every syllable of a bundle has completed (R194): its results and its data have reached their registers, and no wait that it
started still holds the seat. A seat that is pre-empted takes its wait along (R174). -/
def Seat.completed (t : Seat) (now seq : Nat) : Bool :=
  t.flights.all (fun x => x.seq != seq || decide (x.ready ≤ now)) && t.accs.all (fun a => a.seq != seq)
    && (t.wait.isNone || t.lastSeq != seq || t.leave == some .preempt)

/-- Whether everything a signal covers has performed (R194). -/
def Seat.covered (t : Seat) (now : Nat) (g : Sig) : Bool :=
  t.performedBefore g.seq (if g.all then 11 else g.pos) && (!g.all || t.completed now g.seq)

/-- A signal added to its semaphore, saturating with SEMOVF for the seat that sent it (R195); it releases the strand's tracking
entries (R236), and SEMSIG's old value returns. -/
def State.applySig (s : State) (c i : Nat) (g : Sig) : State :=
  let s := s.releaseSeat c i
  let old := (s.core c).semVal g.sem
  let s := s.modCore c (fun k => k.setSem g.sem (min 65535 (old + g.inc)))
  let now := (s.core c).now
  let s := match g.dst with
    | none => s
    | some r => s.modSeat c i (fun t => { t with
        flights := insertFlight ⟨now + 1, g.seq, 9, some r, old, 0, false, false⟩ t.flights })
  if 65535 < old + g.inc then s.deferTrap c i ⟨causeSemovf, g.sem, g.inc, g.bundle.toNat, old, true, g.seq⟩ else s

/-- The seat's pending signals applied in program order, as far as what they cover has performed; n is the most to try. -/
def State.drainSigs (s : State) (c i : Nat) : Nat → State
  | 0 => s
  | n + 1 =>
    match (s.seat c i).sigs with
    | [] => s
    | g :: r =>
      if (s.seat c i).covered (s.core c).now g then
        State.drainSigs ((s.modSeat c i (fun t => { t with sigs := r })).applySig c i g) c i n
      else s

/-- Every pending signal of a seat that can be applied. -/
def State.settle (s : State) (c i : Nat) : State := s.drainSigs c i (s.seat c i).sigs.length

/-- A signal made pending, and applied if it can be. -/
def State.signal (s : State) (u : Issue) (g : Sig) : State :=
  (s.modSeat u.core u.seat (fun t => { t with sigs := t.sigs ++ [g] })).settle u.core u.seat

/-! ## Memory bytes -/

/-- Lines that a die's memory-side cache holds (R2, R212): 96 MiB. -/
def cacheLines : Nat := 1572864

/-- The key of a sector after its cached line is gone. -/
def State.keyAfter (s : State) (line : Nat) (l : Line) : State :=
  match l.dirty with
  | none => s
  | some k => { s with keys := tput s.keys line (s.pkg.keygen * 256 + k) }

/-- A line that leaves its cache with its tracking state (R212, R213, R235): a dirty one is written to its sector, a poisoned one with a
poison marker (R336). -/
def State.writeBack (s : State) (line : Nat) (l : Line) : State :=
  let s := s.keyAfter line l
  let clean := s.poison.filter (fun u => u != line)
  { s with
    lines := terase s.lines line
    poison := match l.dirty with
      | none => s.poison
      | some _ => if l.bad then line :: clean else clean }

/-- Room for one more line in a die's cache: of a full one some line leaves (log 108). -/
def State.makeRoom (s : State) (d : Nat) : State :=
  let ls := s.lines.filter (fun p => p.1 / 2 ^ 32 == d)
  if ls.length < cacheLines then s
  else
    let (v, s) := s.takeFree
    match ls[v % ls.length]? with
    | none => s
    | some p => s.writeBack p.1 p.2

/-- A line of HBM brought into its home's cache by an access (R212); poison stays with its bytes (R336). -/
def State.fillLine (s : State) (pa : Nat) : State :=
  match placeOf pa with
  | .hbm d => if s.cached pa then s else
    let s := s.makeRoom d
    { s with lines := tput s.lines (pa / 64) { bad := s.poison.contains (pa / 64) } }
  | .pool _ => s
  | .host => s
  | .peer _ => s
  | .tl => s
  | .none => s

/-- A cache line touched by a write under a key (R213): it is dirty under that key. -/
def State.dirtyLine (s : State) (pa key : Nat) : State :=
  match placeOf pa with
  | .hbm _ =>
    let s := s.fillLine pa
    { s with lines := tput s.lines (pa / 64) { tget s.lines {} (pa / 64) with dirty := some key } }
  | .pool _ => s
  | .host => s
  | .peer _ => s
  | .tl => s
  | .none => s

/-- n bytes stored at a physical address under a key. -/
def State.store (s : State) (pa n key val : Nat) : State := { s with mem := leWrite s.mem pa n val }.dirtyLine pa key

/-- The word of a tenancy's timelines at an offset of its aperture: value at +0 of each entry, error word at +8 (R298). -/
def State.timelineWord (s : State) (off : Nat) : Nat :=
  let x := tget (s.tenancy (off / 2 ^ 20)).tls {} (off % 2 ^ 20 / 16)
  if off % 256 / 16 < 10 then (if bitAt off 3 then x.err.toNat else x.value % 2 ^ 64) else 0

/-- A byte of those timelines. -/
def State.timelineByte (s : State) (off : Nat) : Nat := field (s.timelineWord off) (8 * (off % 8)) 8

/-- n bytes loaded from a physical address, or from a timeline aperture. -/
def State.load (s : State) (pa n : Nat) : Nat :=
  if tlBase ≤ pa then packList 8 ((List.range n).map (fun k => s.timelineByte (pa - tlBase + k))) else leRead s.mem pa n

/-! ## Replicas (R340) -/

/-- The place in a die's HBM of an offset of the table region. -/
def State.tablePa (s : State) (d off : Nat) : Nat := hbmBase d + 2 ^ 16 * field (s.die d).tablebase.toNat 16 22 + off

/-- The offsets of the entries that a walk reads. -/
def walkPath (s : State) (d va : Nat) : List (Nat × Nat × Nat) → Nat → List Nat
  | [], _ => []
  | (shift, n, _) :: r, off =>
    let at_ := off + 8 * field va shift n
    match s.tableEntry d at_ 4 with
    | .error _ => [at_]
    | .ok e => at_ :: (if bitAt e 0 && bitAt e 1 then walkPath s d va r (field e 8 44 * 256) else [])

/-- The first replica, from a die on in DIDR order, whose sector at an offset is good. -/
def State.goodReplica (s : State) (off : Nat) : Nat → Nat → Option Nat
  | 0, _ => none
  | n + 1, d => if s.poisoned (s.tablePa d off) then s.goodReplica off n ((d + 1) % 4) else some d

/-- The dies whose replicas a walker of a die reads for an offset: its own, and those after it as far as the sectors are poisoned (R340). -/
def State.replicasRead (s : State) (off : Nat) : Nat → Nat → List Nat
  | 0, _ => []
  | n + 1, d => d :: (if s.poisoned (s.tablePa d off) then s.replicasRead off n ((d + 1) % 4) else [])

/-- The offsets of the entries that a walk for an address reads. -/
def State.walkOffs (s : State) (d ten va : Nat) : List Nat :=
  let root := (s.tenancy ten).root.toNat
  if bitAt root 0 then walkPath s d va levels (field root 11 41 * 2048) else []

/-- The halted die whose replica a walk by a die's walker has to wait for (R340, R365). -/
def State.walkStop (s : State) (d ten va : Nat) : Option Nat :=
  ((s.walkOffs d ten va).flatMap (fun off => s.replicasRead off 4 d)).find? (fun k => k != d && (s.die k).halted.isSome)

/-- Whether a walk for an agent of the package at die 0 needs the replica of a halted die, die 0's own among them (R340, R365). -/
def State.walkHalted (s : State) (ten va : Nat) : Bool :=
  ((s.walkOffs 0 ten va).flatMap (fun off => s.replicasRead off 4 0)).any (fun k => (s.die k).halted.isSome)

/-- A 64-byte unit no longer poisoned, in the cache and in its sector. -/
def State.cleanUnit (s : State) (unit : Nat) : State :=
  { s with
    poison := s.poison.filter (fun p => p != unit)
    lines := if (tfind s.lines unit).isSome then tput s.lines unit { tget s.lines {} unit with bad := false } else s.lines }

/-- One replica's copy of a table sector rewritten whole, which takes its poison away (R218). -/
def State.rewriteReplica (off v : Nat) (s : State) (d : Nat) : State :=
  (s.store (s.tablePa d off / 64 * 64) 64 0 v).cleanUnit (s.tablePa d off / 64)

/-- A sector of the table region rewritten in every replica from a good one. -/
def State.rewriteSector (s : State) (good off : Nat) : State :=
  [0, 1, 2, 3].foldl (State.rewriteReplica off (leRead s.mem (s.tablePa good off / 64 * 64) 64)) s

/-- One place of a walk: its line is read, and a poisoned sector is written again from the next replica (R340). -/
def State.fixTable (d : Nat) (s : State) (off : Nat) : State :=
  if s.poisoned (s.tablePa d off) then
    match s.goodReplica off 4 d with
    | none => s
    | some g => ((s.rewriteSector g off).postAt d evTablefix 0xFF (s.tablePa d off / 64 * 64)).heard d g
  else s.fillLine (s.tablePa d off)

/-- What a walk by a die's walker does beside its result: the lines it reads come into the cache (R212), the poisoned sectors it met are
rewritten, TABLEFIX is posted for each (R340), and a die that supplied a replica has replied (R364). -/
def State.fixTables (s : State) (d ten va : Nat) : State := (s.walkOffs d ten va).foldl (State.fixTable d) s

/-! ## Prefetches (R108, R218) -/

/-- A line brought into its home's cache, if the home serves it. -/
def State.prefetchLine (s : State) (pa key : Nat) : State := if s.homeOne pa key = .ok then s.fillLine pa else s

/-- A line asked for (R108): it comes into its home's cache, at once where its translation is cached, otherwise once its walk has found it. A
request that would fail is dropped. -/
def State.prefetch (s : State) (c ten lid va : Nat) : State :=
  if 2 ^ 56 ≤ va then s
  else match s.translate c ten lid va .read with
    | .ok pa key _ => s.prefetchLine pa key
    | .miss => s.modDie (dieOf c) (fun d => { d with prefs := d.prefs ++ [(c, ten, va)] })
    | .fail _ => s
    | .absent => s

/-! ## Atomic operations (R243, R245, R246) -/

/-- What an atomic of w bits stores and whether it succeeds, for the old value m and the operands v and u. -/
def atomNew (op : AtOp) (w m v u : Nat) : Nat × Bool :=
  match op with
  | .add => ((m + v) % 2 ^ w, true)
  | .incw => (if v ≤ m then 0 else m + 1, true)
  | .addb => if m + v < 2 ^ w && m + v ≤ u then (m + v, true) else (m, false)
  | .cas => (if m = v then u else m, true)
  | .xch => (v, true)
  | .smin => (if sextN w v < sextN w m then v else m, true)
  | .smax => (if sextN w m < sextN w v then v else m, true)
  | .and => (m &&& v, true)
  | .or => (m ||| v, true)
  | .xor => (m ^^^ v, true)
  | .faddF32 => ((fAdd fp32 .rne false m v).bits, true)
  | .faddBf => ((fAdd bf16 .rne false m v).bits, true)

/-! ## The end of a bundle's issue -/

/-- The seat's place after a bundle: the next bundle, or, after the second delay bundle of a taken branch, its target, which is
still to be checked (R26, R29). -/
def Seat.advance (t : Seat) (u : Issue) : Seat :=
  let t := { t with pc := u.next, target := none }
  let t :=
    if t.delay.count = 0 then t
    else if t.delay.count = 1 then
      match t.delay.target with
      | none => { t with delay := {} }
      | some x => { t with
          delay := {}, pc := x
          target := some { tpc := if t.delay.resumed then u.pc else t.delay.branch, mis := t.delay.mis, resumed := t.delay.resumed } }
    else { t with delay := { t.delay with count := t.delay.count - 1 } }
  match u.ctl with
  | .branch x => { t with delay := { count := 2, target := x, mis := false, branch := u.pc, resumed := false } }
  | .none => t
  | .leave _ => t
  | .trap _ => t
  | .brk => t
  | .tret => t

/-- Whether a bundle's C syllable traps at its end. -/
def Ctl.traps : Ctl → Bool
  | .trap _ => true
  | .brk => true
  | .none => false
  | .branch _ => false
  | .leave _ => false
  | .tret => false

/-- The bundle's entry in the window and its stall cycles (R17, R80, R88); those of a bundle that traps pass with the entry to the trap
(R164). -/
def State.placeBundle (s : State) (u : Issue) : State :=
  let k := ((s.core u.core).place u.decl (u.decl - u.saved)).idle (if u.ctl.traps then 0 else u.stall)
  (s.setCore u.core k).reach k.now

/-- What the C syllable asked for, at the end of its bundle (R98 to R101, R159). SWTRAP and BREAK are taken before a deferred trap of the
same bundle or an earlier one, which then comes in trap mode (log 104). -/
def State.control (s : State) (u : Issue) : State :=
  let c := u.core
  let i := u.seat
  match u.ctl with
  | .none => s
  | .branch _ => s
  | .leave l =>
    if (s.seat c i).tm && l != .halt then s.killStrand c i 1
    else s.modSeat c i (fun t => { t with leave := some l })
  | .trap code => s.takeTrap c i (trapRec causeSwtrap code 0 u.pc.toNat 0) u.next {} none
  | .brk =>
    match (s.seat c i).strand with
    | none => s
    | some x =>
      if bitAt (BitVec.toNat (s.tenancy x.ten).debug) 0 then s.debugStop c i
      else s.takeTrap c i (trapRec causeBreak 0 0 u.pc.toNat 0) u.next {} none
  | .tret => s.returnTrap c i (u.cycle + 2 - (s.core c).now)

/-- Whether a seat is in the midst of a sparse tile (R290). -/
def State.inTile (s : State) (c i : Nat) : Bool := (s.seat c i).claims && (s.core c).mx.tile.isSome

/-- The end of a bundle's issue: its entry (placed before, if the bundle waited for a reply: R239, R254), its seat's next place,
its signals, and what its C syllable asked for. A seat asked to yield does so at a hint, as if a YIELD followed (R186 step 2). -/
def State.endIssue (s : State) (u : Issue) (fp : Bool) : State :=
  let c := u.core
  let i := u.seat
  let s := if u.reply.isSome || u.passed then { s with iss := none } else { s with iss := none }.placeBundle u
  let s := s.modSeat c i (fun t => { t.advance u with
    bcw := .none, ported := false, counted := false, holding := false, run := t.run + 1, lastSeq := u.seq
    stalled := if u.ctl.traps then u.cycle + 1 + u.stall else 0 })
  let s := match u.sig1 with
    | none => s
    | some (n, k) => s.signal u ⟨n, k, u.seq, 11, true, none, u.pc⟩
  let s := if fp && field (s.seat c i).mode.fctl.toNat 0 5 != 0 then s.modSeat c i (fun t => { t with fpWait := some u.seq, holding := true }) else s
  let s := s.control u
  let t := s.seat c i
  if t.strand.isNone || t.killed.isSome then s
  else
    let s := if u.hint && t.preempt.isSome && !t.tm && t.leave.isNone && t.deferred.isEmpty && !s.inTile c i then
        s.modSeat c i (fun t => { t with leave := some .yield }) else s
    if t.step then s.debugStop c i else s

end Sys2Proof.Machine
end

