-- ==== Sys2Proof/Machine/Jobs.lean ====
section
/-! DEFINITION. The record area (R167, R392), timelines (R182, R295, R296), accesses of agents that are not strands, the end of a launch (R184, R185), and the
consumption of an error with the kill of its tenancy (R338, R341). -/

namespace Sys2Proof.Machine

open Sys2Proof

/-! ## The record area (R167, R392) -/

/-- The base of a die's record area in its pool, and the records it holds. -/
def Die.recBase (d : Die) : Nat := field d.recarea.toNat 16 12 * 2 ^ 16
def Die.recCount (d : Die) : Nat := (min (2 ^ 28) (d.recBase + field d.recarea.toNat 0 12 * 2 ^ 16) - d.recBase) / 64

/-- A free entry of a die's record area. -/
def Die.freeEntry (d : Die) : Option Nat := findNat (fun k => !d.recs.any (fun r => r.entry == k)) d.recCount

/-- The physical address of an entry. -/
def State.entryPa (s : State) (d e : Nat) : Nat := poolBase d + (s.die d).recBase + 64 * e

/-- The words 0 to 6 of a record. -/
def recWords (r : Rec) : List Nat :=
  let x := r.strand
  [(align8 r.img.pc).toNat + r.img.delay.count * 2 + b2n r.img.tm,
   x.ten * 2 ^ 56 + x.lid * 2 ^ 24 + x.prio * 2 ^ 22 + x.floor * 2 ^ 18 + x.mode,
   r.wake.toNat,
   x.spill / 64 * 64,
   x.vu * 2 ^ 59 + x.wu * 2 ^ 54 + b2n x.mclaim * 2 ^ 53 + x.pin * 2 ^ 51 + (clusterOf x.core * 8 + x.core % 8) * 2 ^ 44,
   x.dom * 2 ^ 61 + x.z * 2 ^ 40 + x.y * 2 ^ 20 + x.x,
   r.live.toNat]

/-- The exclusive or of n halfwords of a number. -/
def xorHalves : Nat → Nat → Nat
  | 0, _ => 0
  | n + 1, v => v % 2 ^ 16 ^^^ xorHalves n (v / 2 ^ 16)

/-- A record written to its entry, with its checksum and an unlinked LINK. -/
def State.writeRec (s : State) (d : Nat) (r : Rec) : State :=
  let v := packList 64 (recWords r)
  s.store (s.entryPa d r.entry) 64 0 (v + (xorHalves 28 v + (2 ^ 28 - 1) * 2 ^ 36) * 2 ^ 448)

/-- Whether the checksum of an entry is right. -/
def State.recGood (s : State) (d e : Nat) : Bool :=
  let v := leRead s.mem (s.entryPa d e) 64
  xorHalves 28 v == field v 448 16

/-! ## The ready lists (R183, R346, R349) -/

/-- Whether a cluster is being drained, so that it takes no records (R348, R346). -/
def Cluster.draining (x : Cluster) : Bool := x.drain != .none

/-- Whether the service level has a cluster in service (R388). -/
def State.levelServes (s : State) (cl : Nat) : Bool := 2 ≤ s.svclvl || (s.svclvl == 1 && cl == 0)

/-- The cores of a cluster in increasing order. -/
def coresOf (d cl : Nat) : List Nat := (List.range 8).map (fun j => 128 * d + 8 * cl + j)

/-- Whether a cluster has a core in service. -/
def State.inService (s : State) (d cl : Nat) : Bool := s.levelServes cl && (coresOf d cl).any (fun c => !(s.core c).absent)

/-- Whether a cluster of a die is being drained. -/
def State.drained (s : State) (d cl : Nat) : Bool := (tget (s.die d).clusters {} cl).draining

/-- The cluster whose ready list a record is on: one that is not pinned moves from a drained cluster to the next in service (R346,
R349). -/
def State.listOf (s : State) (d : Nat) (r : Rec) : Nat :=
  if r.strand.pin ≠ 0 || r.only.isSome || !s.drained d r.cluster then r.cluster
  else ((List.range 16).map (fun j => (r.cluster + j) % 16)).find? (fun cl => s.inService d cl && !s.drained d cl) |>.getD r.cluster

/-- The entry of the first ready record that stands on the list of a cluster; all ones where there is none. -/
def State.nextLink (s : State) (d cl : Nat) : List Rec → Nat
  | [] => 2 ^ 28 - 1
  | r :: rs => if r.ready && s.listOf d r == cl then r.entry else s.nextLink d cl rs

/-- The LINK fields of a die's records brought up to its lists. -/
def State.relink (s : State) (d : Nat) : List Rec → State
  | [] => s
  | r :: rs =>
    let a := s.entryPa d r.entry + 56
    let w := leRead s.mem a 8
    let link := if r.ready then s.nextLink d (s.listOf d r) rs else 2 ^ 28 - 1
    (s.store a 8 0 (setField w 36 28 link)).relink d rs

/-- A die's records changed, their links with them. -/
def State.setRecs (s : State) (d : Nat) (rs : List Rec) : State := (s.modDie d (fun x => { x with recs := rs })).relink d rs

/-- The links of a die's records once its clusters' service or drains have changed. -/
def State.relinkDie (s : State) (d : Nat) : State := s.relink d (s.die d).recs

/-- A record whose strand is bound to a core. -/
def Rec.bind (r : Rec) (k : Nat) : Rec :=
  let x := { r.strand with core := k }
  { r with strand := x, img := { r.img with strand := some x } }

/-- Some records of a die bound to a core, in their lists and in the record area (R167). -/
def State.bindRecs (s : State) (d k : Nat) (p : Rec → Bool) : State :=
  let rs := (s.die d).recs
  ((rs.filter p).foldl (fun (s : State) r => s.writeRec d (r.bind k)) s).setRecs d (rs.map (fun r => if p r then r.bind k else r))

/-! ## Timelines -/

/-- A command issued on a timeline: its number and the line after (R295). -/
def TLine.issue (l : TLine) : Nat × TLine := (l.issued + 1, { l with issued := l.issued + 1 })

/-- The value advanced over commands that have completed; n is the most to try. -/
def TLine.advance (l : TLine) : Nat → TLine
  | 0 => l
  | n + 1 => if l.done.contains (l.value + 1) then
      TLine.advance { l with value := l.value + 1, done := l.done.filter (fun k => k != l.value + 1) } n
    else l

/-- The error word after a command failed with a status (R182, R296): the first failure stays. -/
def errWord (w : Word) (num status : Nat) : Word :=
  if status = 0 || bitAt w.toNat 63 then w
  else w ||| BitVec.ofNat 64 (2 ^ 63 + status * 2 ^ 32 + num % 2 ^ 32)

/-- A command completed with a status, 0 for success: a failed one advances the line too. -/
def TLine.finish (l : TLine) (num status : Nat) : TLine :=
  let l := { l with done := num :: l.done, err := errWord l.err num status }
  l.advance l.done.length

/-- The engine timeline of a core and a tenancy (R295). -/
def State.eline (s : State) (ten core t : Nat) : TLine := tget (s.tenancy ten).tls {} (core * 16 + t)

/-- That timeline changed. -/
def State.setEline (s : State) (ten core t : Nat) (l : TLine) : State :=
  s.modTenancy ten (fun x => { x with tls := tput x.tls (core * 16 + t) l })

/-- An engine command completed with a status. -/
def State.finishEngine (s : State) (ten core t num status : Nat) : State :=
  s.setEline ten core t ((s.eline ten core t).finish num status)

/-- Bit 62 of a timeline's error word set (R296). -/
def State.markOob (s : State) (ten core : Nat) : State :=
  let l := s.eline ten core 8
  s.setEline ten core 8 { l with err := l.err ||| BitVec.ofNat 64 (2 ^ 62) }

/-! ## Accesses of agents that carry no strand: packets, hosts, fabric peers -/

/-- A translation made for such an agent on a die, without the TLBs of any core: the apertures and the tables (R211, R218, R298);
lid 0 carries no launch. -/
def State.agentXlate (s : State) (die ten lid va : Nat) (need : Need) : Xlate :=
  if 2 ^ 56 ≤ va then .fail 0
  else if s.inTimelines ten va then timelineXlate ten va need
  else if s.inAperture ten va then s.aperture ten lid va need
  else match s.walk die ten va with
    | .error r => .fail r
    | .ok none => .absent
    | .ok (some t) => s.checkLeaf t va need

/-! ## Consumption (R337, R338, R342) -/

/-- An error consumed by an agent of a tenancy (R338, R342): the kill follows; a further one before it is counted. Class and agent
as R343 codes them; the frame of an HBM error is to be retired (R344). -/
def State.consume (s : State) (ten lid cls agent pa va : Nat) : State :=
  let x := s.tenancy ten
  if x.killed then s
  else
    let fr := if cls = 1 && !x.frames.contains (pa / 2 ^ 16) then x.frames ++ [pa / 2 ^ 16] else x.frames
    match x.doom with
    | none => s.setTenancy ten { x with doom := some (cls, agent, lid, pa, va), doomAt := s.tbase, frames := fr }
    | some _ => s.setTenancy ten { x with more := min 65535 (x.more + 1), frames := fr }

/-- The die that reports a consumption: the home of the poisoned unit, else die 0. -/
def reportDie (pa : Nat) : Nat :=
  match placeOf pa with
  | .hbm d => d
  | .pool d => d
  | .host => 0
  | .peer _ => 0
  | .tl => 0
  | .none => 0

/-- An access that consumes poisoned data, or fails its tag check, at a home (R337, R338): the class is 4 for a failed tag, which is
also reported as SECALERT. -/
def State.consumeAt (s : State) (ten lid cls agent pa va : Nat) : State :=
  let s := s.consume ten lid cls agent pa va
  if cls = 4 then s.postAt (reportDie pa) evSecalert ten pa else s

/-! ## Their parts -/

/-- A part of an access: physical address, bytes, key. -/
abbrev Part := Nat × Nat × Nat

/-- How an access of an agent without a strand ends before it performs: a reason of R219, a page not present, an error found (class, physical
and virtual address), a module lost, or a home that does not answer yet. -/
inductive AgentStop where
  | fail (reason : Nat)
  | absent
  | err (cls pa va : Nat)
  | lost (m : Nat)
  | wait
deriving DecidableEq, Repr

/-- One part, within a line; such agents translate through die 0's tables (log 26). -/
def State.agentPart (s : State) (ten va n : Nat) (need : Need) : Except AgentStop Part :=
  if va < 2 ^ 56 && !s.inTimelines ten va && !s.inAperture ten va && s.walkHalted ten va then .error .wait
  else match s.agentXlate 0 ten 0 va need with
  | .ok pa key _ => match s.homeTen none ten pa key with
    | .ok => .ok (pa, n, key)
    | .retired => .error (.fail 10)
    | .denied => .error (.fail 12)
    | .poison cls p => .error (.err cls p va)
    | .integrity p => .error (.err 4 p va)
    | .lost m => .error (.lost m)
    | .silent => .error .wait
  | .fail r => .error (.fail r)
  | .absent => .error .absent
  | .miss => .error .absent

/-- An access cut at the ends of lines; k bounds the number of parts. -/
def State.agentParts (s : State) (ten : Nat) (need : Need) : Nat → Nat → Nat → Except AgentStop (List Part)
  | 0, _, _ => .ok []
  | k + 1, va, n =>
    if n = 0 then .ok []
    else
      let h := min n (64 - va % 64)
      match s.agentPart ten va h need, s.agentParts ten need k (va + h) (n - h) with
      | .ok p, .ok r => .ok (p :: r)
      | .error e, _ => .error e
      | _, .error e => .error e

/-- A range of global addresses as such an agent reaches it: its parts, or what stands against it. -/
def State.agentRange (s : State) (ten : Nat) (need : Need) (va n : Nat) : Except AgentStop (List Part) :=
  s.agentParts ten need (n / 64 + 2) va n

/-- The bytes of some parts, the first lowest. -/
def State.partsVal (s : State) : List Part → Nat
  | [] => 0
  | (pa, n, _) :: r => s.load pa n + 2 ^ (8 * n) * s.partsVal r

/-- Bytes stored over some parts. -/
def State.partsStore (s : State) : List Part → Nat → State
  | [], _ => s
  | (pa, n, key) :: r, v => (s.store pa n key (v % 2 ^ (8 * n))).partsStore r (v / 2 ^ (8 * n))

/-- The lines of some parts brought into their caches (R212). -/
def State.partsFill (s : State) (ps : List Part) : State := (ps.map Prod.fst).foldl State.fillLine s

/-- The walks that an access of such an agent makes: the lines they read, and the sectors they mend (R212, R340). -/
def State.agentWalks (s : State) (ten va n : Nat) : State :=
  if s.inTimelines ten va || s.inAperture ten va then s
  else (List.range ((va % 2 ^ 16 + n - 1) / 2 ^ 16 + 1)).foldl (fun s k => s.fixTables 0 ten (va + 2 ^ 16 * k)) s

/-- An error consumed by such an agent (R338, R342); agent is the code of R343, which gives the queue front end none (log 9). -/
def State.agentConsume (s : State) (agent : Option Nat) (ten lid cls pa va : Nat) : State :=
  match agent with
  | some a => s.consumeAt ten lid cls a pa va
  | none =>
    let (v, s) := s.takeFree
    s.consumeAt ten lid cls (v % 6) pa va

/-- Stores dropped on their way to a lost module, counted (R381, R382). -/
def State.dropStore (s : State) (m : Nat) : State :=
  { s with pkg := { s.pkg with dropped := tset s.pkg.dropped 0 m (tget s.pkg.dropped 0 m + 1) } }

/-- n bytes of a tenancy's global memory as such an agent reads them: the tephra value of a lost module (R382); none where they cannot be
read, or not yet. -/
def State.agentLoad (s : State) (ten va n : Nat) : Option Nat :=
  match s.agentRange ten .read va n with
  | .ok ps => some (s.partsVal ps)
  | .error (.lost _) => some (2 ^ (8 * n) - 1)
  | .error _ => none

/-- What such a read does beside its value: lines come into their caches, and an error is consumed. -/
def State.agentTouch (s : State) (agent : Option Nat) (ten lid va n : Nat) : State :=
  let s := s.agentWalks ten va n
  match s.agentRange ten .read va n with
  | .ok ps => s.partsFill ps
  | .error (.err cls pa _) => s.agentConsume agent ten lid cls pa va
  | .error _ => s

/-- The error that such an access would consume: class, physical and virtual address (R338). -/
def State.agentErr (s : State) (ten : Nat) (need : Need) (va n : Nat) : Option (Nat × Nat × Nat) :=
  match s.agentRange ten need va n with
  | .error (.err cls pa at_) => some (cls, pa, at_)
  | .error _ => none
  | .ok _ => none

/-- Whether a home does not answer such an agent yet (R365, R372, R379). -/
def State.agentWaits (s : State) (ten : Nat) (need : Need) (va n : Nat) : Bool :=
  match s.agentRange ten need va n with
  | .error .wait => true
  | .error _ => false
  | .ok _ => false

/-- n bytes stored by such an agent: nothing happens where they cannot be stored, or not yet. -/
def State.agentStore (s : State) (agent : Option Nat) (ten lid va n val : Nat) : State :=
  let s := s.agentWalks ten va n
  match s.agentRange ten .write va n with
  | .ok ps => (s.partsFill ps).partsStore ps val
  | .error (.lost m) => s.dropStore m
  | .error (.err cls pa _) => s.agentConsume agent ten lid cls pa va
  | .error _ => s

/-! ## Queue timelines (R182, R375) -/

def State.qline (s : State) (ten h : Nat) : TLine := tget (s.tenancy ten).qlines {} h

/-- A queue timeline's entry of the table in memory written; one whose home does not answer yet is noted, and written once it does. -/
def State.writeQline (s : State) (ten h : Nat) : State :=
  let base := field (s.tenancy ten).qtl.toNat 12 44 * 4096 + 16 * h
  let others (x : Tenancy) : List Nat := x.unwritten.filter (fun k => k != h)
  if s.agentWaits ten .write base 16 then s.modTenancy ten (fun x => { x with unwritten := others x ++ [h] })
  else
    let l := s.qline ten h
    let s := s.modTenancy ten (fun x => { x with unwritten := others x })
    (s.agentStore none ten 0 base 8 l.value).agentStore none ten 0 (base + 8) 8 l.err.toNat

/-- A queue timeline changed, and its entry of the table in memory. -/
def State.putQline (s : State) (ten h : Nat) (l : TLine) : State :=
  (s.modTenancy ten (fun x => { x with qlines := tput x.qlines h l })).writeQline ten h

/-- The entries of queue timelines that waited for a home written, as far as it answers now. -/
def State.writeQlines (s : State) : State :=
  s.tens.foldl (fun s p => p.2.unwritten.foldl (fun s h => s.writeQline p.1 h) s) s

/-- Whether a dependence is met (R182). -/
def State.depMet (s : State) (ten : Nat) (d : Nat × Nat) : Bool := d.2 ≤ (s.qline ten d.1).value

/-! ## The next packet of a queue (R180, R181) -/

/-- A queue of a tenancy as it is served: base, log2 of its slots, device-side, write-index and read-index addresses. -/
def State.queueOf (s : State) (ten q : Nat) : Option (Nat × Nat × Bool × Nat × Nat) := (tget (s.tenancy ten).queues {} q).served

/-- A packet that is present: its slot number, whether its queue is device-side, and its words. -/
structure Packet where
  k : Nat
  dev : Bool
  words : List Word
deriving DecidableEq, Repr

def Packet.word (p : Packet) (j : Nat) : Nat := (p.words.getD j 0).toNat
def Packet.type (p : Packet) : Nat := field (p.word 0) 48 8
def Packet.prio (p : Packet) : Nat := field (p.word 0) 46 2
def Packet.ndep (p : Packet) : Nat := field (p.word 0) 44 2
/-- The COMPL handle of a LAUNCH or SIGNAL packet. -/
def Packet.compl (p : Packet) : Nat := field (p.word 5) 0 8
/-- The dependences of a packet that has any: handle and value. -/
def Packet.deps (p : Packet) : List (Nat × Nat) :=
  if p.type = 2 || p.type = 3 then [] else (List.range p.ndep).map (fun j => (field (p.word 5) (8 + 8 * j) 8, p.word (6 + j)))

/-- The eight words of a slot. -/
def State.slotWords (s : State) (ten va : Nat) : List Word :=
  (List.range 8).map (fun j => BitVec.ofNat 64 ((s.agentLoad ten (va + 8 * j) 8).getD 0))

/-- The packet at a queue's read index, if its PH bit says that it is present (R180). A COPYX packet takes the next slot too. -/
def State.headOf (s : State) (ten q : Nat) : Option Packet :=
  match s.queueOf ten q with
  | none => none
  | some (base, log2, dev, _, r) =>
    match s.agentLoad ten r 8 with
    | none => none
    | some k =>
      let size := 2 ^ log2
      let slot (k : Nat) : Nat := base + 64 * (k % size)
      match s.agentLoad ten (slot k) 8 with
      | none => none
      | some h =>
        if bitAt h 63 != (k / size % 2 == 0) then none
        else some ⟨k, dev, s.slotWords ten (slot k) ++ (if field h 48 8 = 3 then s.slotWords ten (slot (k + 1)) else [])⟩

/-- What the front end's look at a queue does beside its result: the read index and the packet's slots are read (R212, R338). -/
def State.probeQueue (s : State) (ten q : Nat) : State :=
  match s.queueOf ten q with
  | none => s
  | some (base, log2, _, _, r) =>
    let s := s.agentTouch none ten 0 r 8
    match s.agentLoad ten r 8 with
    | none => s
    | some k =>
      let slot (k : Nat) : Nat := base + 64 * (k % 2 ^ log2)
      let s := s.agentTouch none ten 0 (slot k) 64
      match s.headOf ten q with
      | none => s
      | some p => if p.type = 3 then s.agentTouch none ten 0 (slot (k + 1)) 64 else s

/-- The ticks noted from which a tenancy's packets wait with their dependences met (R183). -/
def State.noteQueues (s : State) (ten : Nat) : State :=
  let ready (q : Nat) : Bool := match s.headOf ten q with
    | none => false
    | some p => p.deps.all (s.depMet ten)
  let first (t : Option Nat) (ok : Bool) : Option Nat := if t.isNone && ok then some s.tbase else t
  let s' := s.modTenancy ten (fun x => { x with queues := x.queues.map (fun p => (p.1, { p.2 with since := first p.2.since (ready p.1) })) })
  { s' with launches := s.launches.map (fun l => if l.ten = ten && !l.started then
      { l with met := first l.met (l.deps.all (s.depMet ten)) } else l) }

/-- A queue timeline changed, with what its value makes ready. -/
def State.setQline (s : State) (ten h : Nat) (l : TLine) : State := (s.putQline ten h l).noteQueues ten

/-- The next command of a COMPL handle; 255 names none. -/
def State.issueCompl (s : State) (ten h : Nat) : Nat × State :=
  if h = 255 then (0, s)
  else
    let (n, l) := (s.qline ten h).issue
    (n, s.setQline ten h l)

/-- A packet's command completed with a status. -/
def State.finishCompl (s : State) (ten h num status : Nat) : State :=
  if h = 255 then s else s.setQline ten h ((s.qline ten h).finish num status)

/-- The COMPL handle of a copy (R306). -/
def CopyCmd.handle (x : CopyCmd) : Nat := field (x.words.getD 3 0).toNat 56 8

/-- A copy's COMPL timeline advanced (R309 step 4). -/
def State.finishCopy (s : State) (x : CopyCmd) (status : Nat) : State := s.finishCompl x.ten x.handle x.compl status

/-! ## The end of a launch -/

/-- A child completed: its parent counts one less, and remembers a failure (R184, R185). -/
def State.childDone (s : State) (ten parent status : Nat) : State :=
  if parent = 0 then s
  else s.modLaunch ten parent (fun l => { l with kids := l.kids - 1, child := l.child || status != 0 })

/-- A launch completed with a status: its window is released, COMPL advances and its parent is told (R184, R210). -/
def State.endLaunch (s : State) (l : Launch) (status : Nat) : State :=
  let s := { s with launches := dropFirst (fun x => x.ten == l.ten && x.key == l.key) s.launches }
  (s.finishCompl l.ten l.compl l.num status).childDone l.ten l.parent status

/-- The status a launch whose strands and children have ended completes with (R184, R332). -/
def Launch.outcome (l : Launch) : Nat := if l.status ≠ 0 then l.status else if l.child then 7 else 0

/-- A physical frame retired at its home die, while the list has room (R344). -/
def State.retireFrame (s : State) (f : Nat) : State :=
  match placeOf (f * 2 ^ 16) with
  | .hbm d => s.modDie d (fun x => if x.retired.length < 4096 && !x.retired.contains f then { x with retired := x.retired ++ [f] } else x)
  | .pool _ => s
  | .host => s
  | .peer _ => s
  | .tl => s
  | .none => s

/-- Whether a frame has been retired. -/
def State.isRetired (s : State) (f : Nat) : Bool :=
  match placeOf (f * 2 ^ 16) with
  | .hbm d => (s.die d).retired.contains f
  | .pool _ => false
  | .host => false
  | .peer _ => false
  | .tl => false
  | .none => false

/-- How many of some frames the retirement of all of them in turn retires anew, and whether one could not be (R343, R344). -/
def retireCount : List Nat → State → Nat × Bool
  | [], _ => (0, false)
  | f :: r, s =>
    let t := s.retireFrame f
    let (n, full) := retireCount r t
    if s.isRetired f then (n, full) else if t.isRetired f then (n + 1, full) else (n, true)

/-- The seats of a core freed of a tenancy's strands, without a spill (R341). -/
def State.evictSeats (s : State) (ten c : Nat) : List Nat → State
  | [] => s
  | i :: r =>
    let s := match (s.seat c i).strand with
      | none => s
      | some x => if x.ten = ten then ((s.releaseSeat c i).freeSeat c i).dropIssue c i else s
    s.evictSeats ten c r

/-- The numbers of the engine commands of a tenancy on a core: timeline and number. -/
def Core.commandsOf (k : Core) (ten : Nat) : List (Nat × Nat) :=
  k.chans.flatMap (fun p => (p.2.filter (fun x => x.ten == ten)).map (fun x => (p.1, x.num)))
    ++ ((k.idx.filter (fun x => x.ten == ten)).map (fun x => (8, x.num)))
    ++ ((k.unit.filter (fun x => x.ten == ten)).map (fun x => (9, x.num)))

/-- The core without a tenancy's engine commands. -/
def Core.dropCommands (k : Core) (ten : Nat) : Core :=
  { k with
    chans := k.chans.map (fun p => (p.1, p.2.filter (fun x => x.ten != ten)))
    idx := k.idx.filter (fun x => x.ten != ten)
    unit := k.unit.filter (fun x => x.ten != ten) }

/-- A core cleared of a tenancy: its seats vacated, its engine commands stopped with status KILLED (R341 steps 2 and 3). -/
def State.evictCore (s : State) (ten c : Nat) : State :=
  let s := s.evictSeats ten c [0, 1, 2, 3]
  let cmds := (s.core c).commandsOf ten
  let copies := (s.core c).chans.flatMap (fun p => p.2.filter (fun x => x.ten == ten))
  let s := s.modCore c (fun k => { k.dropCommands ten with ten := if k.ten = some ten then none else k.ten })
  let s : State := cmds.foldl (fun s p => s.finishEngine ten c p.1 p.2 0x1A) s
  copies.foldl (fun s x => s.finishCopy x 0x1A) s

/-- Resident strands of a tenancy. -/
def State.residents (s : State) (ten : Nat) : Nat :=
  (s.cores.map (fun p => (p.2.seats.filter (fun q => match q.2.strand with
    | none => false
    | some x => x.ten == ten)).length)).sum

/-- A tenancy's tracking entries cleared at every home: its strands, in seats and records, and its engine commands have ended (R236, R324,
R341). -/
def State.releaseTen (s : State) (ten : Nat) : State :=
  { s with lines := s.lines.map (fun p => (p.1, p.2.dropEntries (fun x => x.ten == ten))) }

/-- A die without the records of a tenancy, its lists linked again. -/
def State.dropTenRecs (ten : Nat) (s : State) (d : Nat) : State := s.setRecs d ((s.die d).recs.filter (fun r => r.strand.ten != ten))

/-- A tenancy killed (R341): its launches complete KILLED, or with a smaller code that applies too (R184), its strands, records and engine commands go, the frames of what it
consumed are retired, and the tenancy stays killed. -/
def State.killTenancy (s : State) (ten : Nat) : State :=
  let ls := s.launches.filter (fun l => l.ten == ten)
  let s : State := ls.foldl (fun s l => s.endLaunch l (worseStatus l.status 6)) s
  let s : State := s.cores.foldl (fun s p => s.evictCore ten p.1) s
  let s : State := (s.dies.map Prod.fst).foldl (State.dropTenRecs ten) s
  let qc := s.qcopies.filter (fun x => x.ten == ten)
  let s : State := { s with qcopies := s.qcopies.filter (fun x => x.ten != ten) }
  let s : State := qc.foldl (fun s x => s.finishCopy x 0x1A) s
  let s := ((s.tenancy ten).frames.foldl State.retireFrame s).releaseTen ten
  s.modTenancy ten (fun x => { x with killed := true })

/-- The words of a CTXLOST record from byte 16 on, before the kill (R343): the launches counted are those that complete with KILLED. -/
def State.ctxlostWords (s : State) (ten : Nat) (d : Nat × Nat × Nat × Nat × Nat) : List Word :=
  let x := s.tenancy ten
  let (cls, agent, lid, pa, va) := d
  let (n, full) := retireCount x.frames s
  [BitVec.ofNat 64 (cls * 2 ^ 56 + agent * 2 ^ 48 + x.more * 2 ^ 32 + lid % 2 ^ 32),
   BitVec.ofNat 64 (if cls = 3 then 0 else pa / 64 * 64),
   BitVec.ofNat 64 va,
   BitVec.ofNat 64 (s.residents ten * 2 ^ 32 + (s.launches.filter (fun l => l.ten == ten && worseStatus l.status 6 == 6)).length),
   BitVec.ofNat 64 (n * 2 ^ 32 + b2n full),
   0]

/-- The kill that follows a consumption, with its CTXLOST record (R341 step 6, R343). -/
def State.doomTenancy (s : State) (ten : Nat) : State :=
  match (s.tenancy ten).doom with
  | none => s
  | some d =>
    let words := s.ctxlostWords ten d
    let s := s.killTenancy ten
    (s.modTenancy ten (fun x => { x with doom := none, more := 0, frames := [] })).post
      (reportDie d.2.2.2.1) evCtxlost ten 0 0 words

end Sys2Proof.Machine
end

