-- ==== Sys2Proof/Machine/Operands.lean ====
section
/-! DEFINITION. Operand forms: vector sources with their hold latches (R24, R33, R37, R127), the addresses of global and pool
accesses with the checks made at issue (R106, R110, R142), and putting an access under way. -/

namespace Sys2Proof.Machine

open Sys2Proof

/-! ## Vector sources -/

/-- The vector file of a slot. -/
def vwFile : VW → File
  | .v => .v | .w => .w

/-- The index file of a slot. -/
def vwIx : VW → File
  | .v => .vx | .w => .wx

/-- The latch of a slot's source position 0 to 2 (R24). -/
def vwLatch (x : VW) (k : Nat) : Nat :=
  match x with
  | .v => k
  | .w => 3 + k

/-- A seat's allocation of a vector file in registers (R31). -/
def Seat.alloc (t : Seat) (f : File) : Nat :=
  match t.strand with
  | none => 0
  | some x => 128 * (if f = .w then x.wu else x.vu)

/-- The register an indirect source names (R33). -/
def Seat.indirect (t : Seat) (f : File) (x off : Nat) : Nat := (t.get f.index x + off) % t.alloc f

/-- The row that the bundle's MDRAIN reads into fl (R127, R273); with no MDRAIN, fl as it stands. A false guard
does not stop the read (R11). -/
def State.flRow (s : State) (u : Issue) : List Instr → Vec
  | [] => (s.core u.core).mx.fl
  | .mdrain _ d a :: _ => tget ((s.core u.core).mx.bankRows (d.toNat % 2)) 0 a.toNat
  | _ :: r => s.flRow u r

/-- The value of a vector source at position k (R24, R33, R127). -/
def State.vsrc (s : State) (u : Issue) (x : VW) (k : Nat) (v : VSrc) : Vec :=
  let t := s.seat u.core u.seat
  match v with
  | .reg n => BitVec.ofNat 2048 (t.get (vwFile x) n.toNat)
  | .cap n => BitVec.ofNat 2048 (t.get (vwFile x) n.toNat)
  | .latch => tget t.regs.hl 0 (vwLatch x k)
  | .fl => s.flRow u u.syls
  | .ind r off => BitVec.ofNat 2048 (t.get (vwFile x) (t.indirect (vwFile x) r.toNat off.toNat))

/-- The values of a syllable's sources, a first. -/
def State.vsrcs (s : State) (u : Issue) (x : VW) : Nat → List VSrc → List Vec
  | _, [] => []
  | k, v :: r => s.vsrc u x k v :: s.vsrcs u x (k + 1) r

/-- A capture: the value read is written into the position's latch (R24). -/
def State.capture (s : State) (u : Issue) (x : VW) (k : Nat) (v : VSrc) (val : Vec) : State :=
  match v with
  | .cap _ => s.modSeat u.core u.seat (fun t => { t with regs := { t.regs with hl := tset t.regs.hl 0 (vwLatch x k) val } })
  | .reg _ => s
  | .latch => s
  | .fl => s
  | .ind _ _ => s

/-- Every capture of a syllable. -/
def State.captures (s : State) (u : Issue) (x : VW) : Nat → List VSrc → List Vec → State
  | k, v :: r, a :: b => (s.capture u x k v a).captures u x (k + 1) r b
  | _, [], _ => s
  | _, _ :: _, [] => s

/-- A V or W syllable: its sources are read and its captures made whatever its guard is; the rest follows when the guard holds
(R11, R24). -/
def vecForm (s : State) (g : Guard) (x : VW) (src : List VSrc) (k : Issue → List Vec → State → State) :
    Host.Outcome State Fault Refusal :=
  onIssue s (fun u =>
    let vs := s.vsrcs u x 0 src
    let s' := s.captures u x 0 src vs
    if s.guard u g then k u vs s' else s')

/-- The first, second and third source of a list. -/
def src1 (vs : List Vec) : Vec := vs.getD 0 0
def src2 (vs : List Vec) : Vec := vs.getD 1 0
def src3 (vs : List Vec) : Vec := vs.getD 2 0

/-! ## Addresses -/

/-- The strand being issued: tenancy, launch and linear index. -/
def State.who (s : State) (u : Issue) : Nat × Nat × Nat :=
  match (s.seat u.core u.seat).strand with
  | none => (0, 0, 0)
  | some x => (x.ten, x.lid, x.idx)

/-- The sum of a 64-bit register and a 64-bit value, modulo 2^64 (R106). -/
def addr64 (a b : Nat) : Nat := (a + b) % 2 ^ 64

/-- Which access a form makes, for its translation and its consistency checks (R219, R235): 0 plain read, 1 acquire load, 2 plain
write, 3 release store, 4 atomic. -/
abbrev Mode := Nat

/-- The permission an access needs. -/
def needOf (m : Mode) : Need := if m ≤ 1 then .read else if m ≤ 3 then .write else .atomic

/-- The issue-time trap of a global address (R106, R107). -/
def globalTrap (va n : Nat) : Option TrapRec :=
  if 2 ^ 56 ≤ va then some (trapRec causeXlate 0 va 0 0)
  else if va % n ≠ 0 then some (trapRec causeAlign 0 va 0 0)
  else none

/-- Whether an access of an earlier bundle of the seat to an ORDERED page has not completed (R241). -/
def Seat.orderedPending (t : Seat) (seq : Nat) : Bool := t.accs.any (fun a => a.ordered && a.seq != seq)

/-- What a global access finds at issue: its traps, and the wait before an access to an ORDERED page (R106, R241). -/
def State.globalPre (s : State) (u : Issue) (va n : Nat) (m : Mode) : Pre :=
  match globalTrap va n with
  | some r => .trap r
  | none =>
    let (ten, lid, _) := s.who u
    match s.foresee u.core ten lid va (needOf m) with
    | .ok _ _ cons => if cons = 2 && (s.seat u.core u.seat).orderedPending u.seq then .block else .ok
    | .fail _ => .ok
    | .absent => .ok
    | .miss => .ok

/-- The window size of the strand being issued, on its own die (R175). -/
def State.winSize (s : State) (u : Issue) : Nat :=
  let (ten, lid, _) := s.who u
  s.windowSize ten lid (dieOf u.core)

/-- The physical address of an offset of that window. -/
def State.winPa (s : State) (u : Issue) (off : Nat) : Nat :=
  let (ten, lid, _) := s.who u
  s.windowPa ten lid (dieOf u.core) off

/-- A 64-bit two's-complement image of an offset, as TINFO1 holds it. -/
def off64 (x : Int) : Nat := wrapN 64 x

/-- The issue-time traps of a pool access of n bytes at a signed offset, aligned to al (R110, R111). -/
def State.poolPre (s : State) (u : Issue) (off : Int) (n al : Nat) : Pre :=
  if off < 0 || (s.winSize u : Int) < off + n then .trap (trapRec causeXlate 1 (off64 off) 0 0)
  else if off.toNat % al ≠ 0 then .trap (trapRec causeAlign 1 (off64 off) 0 0)
  else .ok

/-- The lane offsets of a pool vector access: the base and the step of its 64 lanes of 4 bytes (R142). -/
def laneOffs (off stride : Int) : List Int := (List.range 64).map (fun (l : Nat) => off + (l : Int) * stride)

/-- The lowest of the offsets that fail the window (R142). -/
def State.laneFail (s : State) (u : Issue) (offs : List Int) : Option Int :=
  (offs.filter (fun o => decide (o < 0) || decide ((s.winSize u : Int) < o + 4))).foldl
    (fun a o => match a with
      | none => some o
      | some b => some (min b o)) none

/-- The issue-time traps of a pool vector access (R142, R316). -/
def State.lanePre (s : State) (u : Issue) (off stride : Int) : Pre :=
  match s.laneFail u (laneOffs off stride) with
  | some o => .trap (trapRec causeXlate 1 (off64 o) 0 0)
  | none => if off % 4 ≠ 0 then .trap (trapRec causeAlign 1 (off64 off) 0 0) else .ok

/-! ## Minimum latencies -/

/-- How far a die is from another: 0 the same, 1 a neighbour, 2 the diagonal (R358, R362). -/
def dieDist (a b : Nat) : Nat := if a = b then 0 else if (a + 2) % 4 = b then 2 else 1

/-- The least latency of a global load or atomic (R209, R247, R362); 8, that of the nearest bank, where none is stated (log 29). -/
def globalLat (c pa : Nat) (atom : Bool) : Nat :=
  match placeOf pa with
  | .hbm d =>
    let k := dieDist (dieOf c) d
    if k = 0 then (if atom then 36 else 32) else if k = 1 then (if atom then 90 else 84) else if atom then 106 else 100
  | .pool d =>
    let k := dieDist (dieOf c) d
    if k = 0 then
      (if (pa - poolBase d) / 2 ^ 24 = clusterOf c then (if atom then 10 else 8) else if atom then 16 else 14)
    else if k = 1 then (if atom then 70 else 62) else if atom then 86 else 78
  | .tl =>
    let k := dieDist (dieOf c) (timelineDie pa)
    if k = 0 then 14 else if k = 1 then 62 else 78
  | .host => 8
  | .peer _ => 8
  | .none => 8

/-- Whether a physical address lies in the local slice of a core (R209). -/
def localSlice (c pa : Nat) : Bool := pa / 2 ^ 28 == poolBase (dieOf c) / 2 ^ 28 && pa % 2 ^ 28 / 2 ^ 24 == clusterOf c

/-- The least latency of a pool access by offset: of each kind, for the local slice and for another (R209). -/
def poolLat (c : Nat) (pas : List Nat) (near far : Nat) : Nat := if pas.all (localSlice c) then near else far

/-! ## Putting accesses under way -/

/-- An access with nothing but its kind, place and size. -/
def blankAcc (pos : Nat) (kind : AccKind) (pool : Bool) (va n : Nat) : Acc :=
  { id := 0, seq := 0, pos := pos, kind := kind, pool := pool, va := va, bundle := 0, n := n, pas := none, key := 0, data := 0, data2 := 0
    dst := none, dst2 := none, acq := false, rel := false, ordered := false, due := 0, result := none, home := none }

/-- A pool access of a strand put under way (R110): its translation is known. -/
def State.pushPool (s : State) (u : Issue) (a : Acc) (pas : List Nat) (lat : Nat) : State :=
  s.pushAcc u { a with pas := some pas, due := (s.core u.core).now + lat }

/-- The record of a deferred XLATE (R107, R219). -/
def xlateDeferred (a : Acc) (reason : Nat) : TrapRec :=
  ⟨causeXlate, b2n a.pool, a.va, a.bundle.toNat, reason, true, a.seq⟩

/-- Whether the page of an access that misses the TLBs is ORDERED (R241, log 20). -/
def State.ordered (s : State) (u : Issue) (va : Nat) (m : Mode) : Bool :=
  let (ten, lid, _) := s.who u
  match s.foresee u.core ten lid va (needOf m) with
  | .ok _ _ cons => cons == 2
  | .fail _ => false
  | .absent => false
  | .miss => false

/-- A global access of a strand put under way (R107, R218): an access whose cached translation fails its check takes the deferred
XLATE and does not perform; one with no cached translation waits for a walk. An access that a CHECKED page's home has passed is
already translated (R239). -/
def State.pushGlobal (s : State) (u : Issue) (a : Acc) (m : Mode) : State :=
  let (ten, lid, _) := s.who u
  let c := u.core
  let now := (s.core c).now
  match (if u.passed then s.foresee c ten lid a.va (needOf m) else s.translate c ten lid a.va (needOf m)) with
  | .ok pa key cons =>
    let lat := if m ≤ 1 then globalLat c pa false else if m = 4 then globalLat c pa true else 1
    s.pushAcc u { a with pas := some [pa], key := key, ordered := cons == 2, due := now + lat }
  | .fail r => s.deferTrap c u.seat (xlateDeferred { a with bundle := u.pc, seq := u.seq } r)
  | .absent => s.pushAcc u { a with due := now }
  | .miss => s.pushAcc u { a with due := now, ordered := s.ordered u a.va m }

/-! ## What a syllable of a bundle is -/

/-- Whether a syllable is a floating-point F, V or W form, for the hold of R70 (R116; DEDUCED, log 21: the typed forms and the
conversions). -/
def instrFp : Instr → Bool
  | .fadd .. => true | .fsub .. => true | .fmul .. => true | .ffma .. => true | .fdiv .. => true | .fsqrt .. => true
  | .frsq .. => true | .fmin .. => true | .fmax .. => true | .fabs .. => true | .fneg .. => true | .fcmp .. => true
  | .fclass .. => true | .fcvt .. => true
  | .vadd .. => true | .vsub .. => true | .vmul .. => true | .vfma .. => true | .vfms .. => true | .vmulZg .. => true
  | .vfmaZg .. => true | .vfmsZg .. => true | .vmin .. => true | .vmax .. => true | .vabs .. => true | .vneg .. => true
  | .vcmp .. => true | .vcmpAny .. => true | .vcmpAll .. => true | .vdot .. => true | .vred .. => true | .vscan .. => true
  | .vexp2 .. => true | .vlog2 .. => true | .vrcp .. => true | .vrsq .. => true | .vcvt .. => true
  | _ => false

end Sys2Proof.Machine
end

