-- ==== Sys2Proof/Machine/Control.lean ====
section
/-! DEFINITION. The control forms of the C slot (R97 to R101). -/

namespace Sys2Proof.Machine

open Sys2Proof

/-- What the C syllable asks for, noted for the end of its bundle (R26). -/
def State.ask (s : State) (k : Ctl) : State :=
  { s with iss := match s.iss with
    | none => none
    | some u => some { u with ctl := k } }

/-- Branch target B + 8 × imm (R98). -/
def branchTo (u : Issue) (imm : Imm) : Word := u.pc + 8 * imm.value

/-- A branch-class form: taken or not, its two delay bundles follow (R26, R98). -/
def branchForm (s : State) (k : Issue → Option Word) : Host.Outcome State Fault Refusal :=
  onIssue s (fun u => s.ask (.branch (k u)))

/-- Whether, and why not, the address after the second delay bundle is known (R98). -/
def State.linkPre (s : State) (u : Issue) : Pre :=
  let (ten, lid, _) := s.who u
  match s.bundlesUnwalked u.core u.seat ten lid 2 u.next with
  | some va => .walk va .fetch
  | none => match s.afterBundles u.core ten lid 2 u.next with
  | .ok _ => .ok
  | .error (va, .fail r) => .trap (trapRec causeXlate 0 va.toNat 0 r)
  | .error (va, .page) => .page va.toNat 3
  | .error (va, .lost m) => .trap (trapRec causeRemlost 4 va.toNat 0 m)
  | .error (_, .silent) => .hold
  | .error (_, .poison _) => .ok
  | .error (_, .tag _) => .ok
  | .error (_, .word _) => .ok

/-- The link: the address after the second delay bundle (R28). -/
def State.link (s : State) (u : Issue) : Nat :=
  let (ten, lid, _) := s.who u
  match s.afterBundles u.core ten lid 2 u.next with
  | .ok a => a.toNat
  | .error _ => u.next.toNat

/-- A call: the link is written, with latency 1, only when the guard holds (R98). -/
def callForm (s : State) (g : Guard) (d : R11) (k : Issue → Word) : Host.Outcome State Fault Refusal :=
  onIssue s (fun u =>
    if s.guard u g then
      gate (s.linkPre u) s u (fun s' => (s'.result u 0 1 .i d.toNat (s.link u)).ask (.branch (some (k u))))
    else s.ask (.branch none))

/-- The value of an i register as a target. -/
def State.target (s : State) (u : Issue) (a : R11) : Word := BitVec.ofNat 64 (s.rd u .i a.toNat)

/-- Scales of a seat's outstanding SQLDs (R111). -/
def Seat.scalesDue (t : Seat) : Nat := ((t.accs.filter (fun a => a.kind == .sqld)).map (fun a => a.n / 2)).sum

/-- The tile in progress of a seat that holds the M claim (R290). -/
def State.openTile (s : State) (u : Issue) : Option Tile :=
  if (s.seat u.core u.seat).claims then (s.core u.core).mx.tile else none

/-- A bundle holding SUSPEND, YIELD or HALT does not act while a tile is in progress (R289, R290). -/
def State.tilePre (s : State) (u : Issue) : Pre :=
  match s.openTile u with
  | none => .ok
  | some x => .trap (trapRec causeSpmeta (8 * 2 ^ 16 + 127 * 2 ^ 9 + 511) (off64 x.t) x.hdr.toNat 0)

/-- Whether a bundle holds an SQLD whose guard is true. -/
def State.hasSqld (s : State) (u : Issue) : Bool :=
  u.syls.any (fun i => match i with
    | .sqld g _ _ _ => s.guard u g
    | _ => false)

/-- HALT's conditions: no tile in progress, and no scale left (R281, R290). -/
def State.haltPre (s : State) (u : Issue) : Pre :=
  let t := s.seat u.core u.seat
  let n := (s.core u.core).mx.scales.length
  (s.tilePre u).and
    (if t.claims && (n != 0 || t.scalesDue != 0 || s.hasSqld u) then .trap (trapRec causeQimbal 4 (n + t.scalesDue) 0 0) else .ok)

/-- TRET outside trap mode is refused to the strand with PRIV (R101). -/
def State.tretPre (s : State) (u : Issue) : Pre := if (s.seat u.core u.seat).tm then .ok else .trap (trapRec causePriv 0 0 0 0)

/-! ## Meanings -/

/-- BR (R98). -/
def execBr (g : Guard) (imm : Imm) (s : State) : Host.Outcome State Fault Refusal :=
  branchForm s (fun u => if s.guard u g then some (branchTo u imm) else none)

/-- BRQ.NZ and BRQ.Z (R98). -/
def execBrq (g : Guard) (z : Bool) (a : R11) (imm : Imm) (s : State) : Host.Outcome State Fault Refusal :=
  branchForm s (fun u => if s.guard u g && ((s.rd u .i a.toNat == 0) == z) then some (branchTo u imm) else none)

/-- JMP (R98). -/
def execJmp (g : Guard) (a : R11) (s : State) : Host.Outcome State Fault Refusal :=
  branchForm s (fun u => if s.guard u g then some (s.target u a) else none)

/-- CALL (R98). -/
def execCall (g : Guard) (d : R11) (imm : Imm) (s : State) : Host.Outcome State Fault Refusal :=
  callForm s g d (fun u => branchTo u imm)

/-- CALLI (R98): the target is read before the link is written. -/
def execCalli (g : Guard) (d a : R11) (s : State) : Host.Outcome State Fault Refusal :=
  callForm s g d (fun u => s.target u a)

/-- RET (R98). -/
def execRet (g : Guard) (a : R11) (s : State) : Host.Outcome State Fault Refusal :=
  branchForm s (fun u => if s.guard u g then some (s.target u a) else none)

/-- SUSPEND (R99): wake condition in i[a], live ranges in i[b]. -/
def execSuspend (g : Guard) (a b : R11) (s : State) : Host.Outcome State Fault Refusal :=
  guarded s g s.tilePre (fun u s' => s'.ask (.leave (.suspend (s.target u a) (s.target u b))))

/-- YIELD (R99). -/
def execYield (g : Guard) (s : State) : Host.Outcome State Fault Refusal :=
  guarded s g s.tilePre (fun _ s' => s'.ask (.leave .yield))

/-- HALT (R99). -/
def execHalt (g : Guard) (s : State) : Host.Outcome State Fault Refusal :=
  guarded s g s.haltPre (fun _ s' => s'.ask (.leave .halt))

/-- TRAP (R100). -/
def execTrap (g : Guard) (imm : Imm) (s : State) : Host.Outcome State Fault Refusal :=
  simple s g (fun _ => s.ask (.trap imm.value.toNat))

/-- TRET (R101, R152). -/
def execTret (g : Guard) (s : State) : Host.Outcome State Fault Refusal :=
  guarded s g s.tretPre (fun _ s' => s'.ask .tret)

/-- BRK (R100, R159). -/
def execBrk (g : Guard) (s : State) : Host.Outcome State Fault Refusal :=
  simple s g (fun _ => s.ask .brk)

end Sys2Proof.Machine
end

