-- ==== Sys2Proof/Machine/Memory.lean ====
section
/-! DEFINITION. The global memory forms of the I slot and the pool memory forms of the J slot (R105 to R111), and the atomics
of both (R242 to R249). -/

namespace Sys2Proof.Machine

open Sys2Proof

/-! ## Global loads and stores (R106) -/

/-- A global load of n bytes into i[d]. -/
def globalLoad (s : State) (g : Guard) (n : Nat) (sx acq : Bool) (d : R11) (va : Issue → Nat) : Host.Outcome State Fault Refusal :=
  let m := if acq then 1 else 0
  guarded s g (fun u => s.globalPre u (va u) n m) (fun u s' =>
    s'.pushGlobal u { blankAcc 1 (.load sx) false (va u) n with dst := some (s.dst u .i d.toNat), acq := acq } m)

/-- A global store of the low n bytes of i[d]. -/
def globalStore (s : State) (g : Guard) (n : Nat) (rel sys : Bool) (d : R11) (va : Issue → Nat) : Host.Outcome State Fault Refusal :=
  let m := if rel then 3 else 2
  guarded s g (fun u => s.globalPre u (va u) n m) (fun u s' =>
    s'.pushGlobal u { blankAcc 1 .store false (va u) n with data := s.rd u .i d.toNat % 2 ^ (8 * n), rel := rel, sys := sys } m)

/-- i[a] + imm. -/
def State.immVa (s : State) (u : Issue) (a : R11) (imm : Imm) : Nat := addr64 (s.rd u .i a.toNat) imm.value.toNat

/-- i[a] + i[b]. -/
def State.sumVa (s : State) (u : Issue) (a b : R11) : Nat := addr64 (s.rd u .i a.toNat) (s.rd u .i b.toNat)

/-- LDG (R106). -/
def execLdg (g : Guard) (z : Sz) (sx : Bool) (d a : R11) (imm : Imm) (s : State) : Host.Outcome State Fault Refusal :=
  globalLoad s g z.bytes sx false d (fun u => s.immVa u a imm)

/-- STG (R106). -/
def execStg (g : Guard) (z : Sz) (d a : R11) (imm : Imm) (s : State) : Host.Outcome State Fault Refusal :=
  globalStore s g z.bytes false true d (fun u => s.immVa u a imm)

/-- LDGA (R106, R227): an acquire holds every later access back whatever its scope. -/
def execLdga (g : Guard) (z : Sz) (_ : Scope) (d a b : R11) (s : State) : Host.Outcome State Fault Refusal :=
  globalLoad s g z.bytes false true d (fun u => s.sumVa u a b)

/-- STGL (R106, R226, R227): only a release at SYS scope waits for what the ports have accepted and not sent. -/
def execStgl (g : Guard) (z : Sz) (sc : Scope) (d a b : R11) (s : State) : Host.Outcome State Fault Refusal :=
  globalStore s g z.bytes true (sc == .sys) d (fun u => s.sumVa u a b)

/-- PREF (R108): the line's translation is loaded and the line brought into its home's cache; one that would fault is dropped. -/
def execPref (g : Guard) (_ : Bool) (a : R11) (imm : Imm) (s : State) : Host.Outcome State Fault Refusal :=
  simple s g (fun u => s.prefetch u.core (s.who u).1 (s.who u).2.1 (s.immVa u a imm))

/-! ## Pool loads and stores (R110) -/

/-- A sum of a j register and a value as a signed offset. -/
def State.jOff (s : State) (u : Issue) (a : R11) (k : Nat) : Int := sextN 64 (addr64 (s.rd u .j a.toNat) k)

/-- A pool load of n bytes into j[d]. -/
def poolLoad (s : State) (g : Guard) (n : Nat) (sx acq : Bool) (d : R11) (off : Issue → Int) : Host.Outcome State Fault Refusal :=
  guarded s g (fun u => s.poolPre u (off u) n n) (fun u s' =>
    let pas := [s.winPa u (off u).toNat]
    s'.pushPool u { blankAcc 2 (.load sx) true (off64 (off u)) n with dst := some (s.dst u .j d.toNat), acq := acq }
      pas (poolLat u.core pas 8 14))

/-- A pool store of the low n bytes of j[d]. -/
def poolStore (s : State) (g : Guard) (n : Nat) (rel sys : Bool) (d : R11) (off : Issue → Int) : Host.Outcome State Fault Refusal :=
  guarded s g (fun u => s.poolPre u (off u) n n) (fun u s' =>
    s'.pushPool u { blankAcc 2 .store true (off64 (off u)) n with data := s.rd u .j d.toNat % 2 ^ (8 * n), rel := rel, sys := sys }
      [s.winPa u (off u).toNat] 1)

/-- LDP (R110). -/
def execLdp (g : Guard) (z : Sz) (sx : Bool) (d a : R11) (imm : Imm) (s : State) : Host.Outcome State Fault Refusal :=
  poolLoad s g z.bytes sx false d (fun u => s.jOff u a imm.value.toNat)

/-- STP (R110). -/
def execStp (g : Guard) (z : Sz) (d a : R11) (imm : Imm) (s : State) : Host.Outcome State Fault Refusal :=
  poolStore s g z.bytes false true d (fun u => s.jOff u a imm.value.toNat)

/-- LDPA (R110, R227): an acquire holds every later access back whatever its scope. -/
def execLdpa (g : Guard) (z : Sz) (_ : Scope) (d a b : R11) (s : State) : Host.Outcome State Fault Refusal :=
  poolLoad s g z.bytes false true d (fun u => s.jOff u a (s.rd u .j b.toNat))

/-- STPL (R110, R226, R227): only a release at SYS scope waits for what the ports have accepted and not sent. -/
def execStpl (g : Guard) (z : Sz) (sc : Scope) (d a b : R11) (s : State) : Host.Outcome State Fault Refusal :=
  poolStore s g z.bytes true (sc == .sys) d (fun u => s.jOff u a (s.rd u .j b.toNat))

/-- SQLD's checks (R111): it holds while the scale queue could not take its scales. -/
def State.sqldPre (s : State) (u : Issue) (count : Nat) (off : Int) : Pre :=
  let t := s.seat u.core u.seat
  if 32 < (s.core u.core).mx.scales.length + t.scalesDue + count then .hold else s.poolPre u off (2 * count) 2

/-- SQLD (R111): d is the count. -/
def execSqld (g : Guard) (d a : R11) (imm : Imm) (s : State) : Host.Outcome State Fault Refusal :=
  guarded s g (fun u => s.sqldPre u d.toNat (s.jOff u a imm.value.toNat)) (fun u s' =>
    let off := s.jOff u a imm.value.toNat
    let pas := [s.winPa u off.toNat]
    s'.pushPool u (blankAcc 2 .sqld true (off64 off) (2 * d.toNat)) pas (poolLat u.core pas 8 14))

/-! ## Atomics (R242 to R249) -/

/-- The home of a request that leaves its die (R249): a die, or 64 and a peer's module number. -/
def homeOf (c pa : Nat) : Option Nat :=
  match placeOf pa with
  | .hbm d => if d = dieOf c then none else some d
  | .pool d => if d = dieOf c then none else some d
  | .peer m => some (64 + m)
  | .host => none
  | .tl => none
  | .none => none

/-- The home of the claim that a LAUNCH to a queue makes, if it leaves the die (R180, R249). -/
def State.claimHome (s : State) (c ten q : Nat) : Option Nat :=
  match s.queueOf ten q with
  | none => none
  | some (_, _, _, w, _) => match s.agentRange ten .write w 8 with
    | .ok ((pa, _, _) :: _) => homeOf c pa
    | .ok [] => none
    | .error _ => none

/-- Atomics of a seat to a home without a reply (R249), claims of LAUNCHes still to be made among them; one whose translation is missing goes
where the tables say (log 20). -/
def State.unanswered (s : State) (c i h : Nat) : Nat :=
  let (ten, lid) := s.ownerOf c i
  ((s.seat c i).accs.filter (fun a => match a.kind with
    | .launch => a.data2 == 0 && s.claimHome c ten a.data == some h
    | .atom _ => (match a.home with
      | some (k, _, _) => k == h
      | none => a.pas.isNone && (match s.foresee c ten lid a.va .atomic with
        | .ok pa _ _ => homeOf c pa == some h
        | .fail _ => false
        | .absent => false
        | .miss => false))
    | _ => false)).length

/-- Whether an operation can be sent to host memory (R244). -/
def toHost : AtOp → Bool
  | .add => true | .xch => true | .cas => true
  | .incw => false | .addb => false | .smin => false | .smax => false | .and => false | .or => false | .xor => false
  | .faddF32 => false | .faddBf => false

/-- The reason an access with a known translation fails with (R244), if it does. -/
def accRefused (k : AccKind) (pa : Nat) : Option Nat :=
  match k, placeOf pa with
  | .atom op, .host => if toHost op then none else some 9
  | _, _ => none

/-- What a global atomic finds at issue (R106, R241, R249): the wait for a 65th request to one home comes before its traps. -/
def State.atomPre (s : State) (u : Issue) (va n : Nat) : Pre :=
  let (ten, lid, _) := s.who u
  match s.foresee u.core ten lid va .atomic with
  | .ok pa _ _ =>
    match homeOf u.core pa with
    | none => s.globalPre u va n 4
    | some h => if 64 ≤ s.unanswered u.core u.seat h then .hold else s.globalPre u va n 4
  | .fail _ => s.globalPre u va n 4
  | .absent => s.globalPre u va n 4
  | .miss => s.globalPre u va n 4

/-- The latest access of a seat given its home and sequence number, if its address is known and leaves the die (R249). -/
def State.sendHome (s : State) (c i id : Nat) : State :=
  match (s.seat c i).findAcc id with
  | none => s
  | some a => match a.pas with
    | none => s
    | some pas => match homeOf c (pas.headD 0) with
      | none => s
      | some h =>
        let (n, s) := s.nextSeq (16 * c + i) h
        s.modSeat c i (fun t => t.modAcc id (fun a => { a with home := some (h, n, s.tbase) }))

/-- A global atomic put under way (R244, R249). -/
def State.pushAtom (s : State) (u : Issue) (a : Acc) : State :=
  let (ten, lid, _) := s.who u
  match s.foresee u.core ten lid a.va .atomic with
  | .ok pa _ _ =>
    match accRefused a.kind pa with
    | some r => s.deferTrap u.core u.seat (xlateDeferred { a with bundle := u.pc, seq := u.seq } r)
    | none => let id := (s.core u.core).nextId
              (s.pushGlobal u a 4).sendHome u.core u.seat id
  | .fail _ => s.pushGlobal u a 4
  | .absent => s.pushGlobal u a 4
  | .miss => s.pushGlobal u a 4

/-- A global atomic of n bytes: the old value into the register, the success flag into the predicate (R243). -/
def globalAtom (s : State) (g : Guard) (op : AtOp) (n : Nat) (o : Ord) (d : Nat) (q : Option Nat) (a : R11) (v x : Issue → Nat) :
    Host.Outcome State Fault Refusal :=
  guarded s g (fun u => s.atomPre u (s.rd u .i a.toNat) n) (fun u s' =>
    s'.pushAtom u { blankAcc 1 (.atom op) false (s.rd u .i a.toNat) n with
      data := v u % 2 ^ (8 * n), data2 := x u % 2 ^ (8 * n), dst := some (s.dst u .i d), dst2 := q.map (s.dst u .q)
      acq := o.acquires, rel := o.releases })

/-- A pool atomic of n bytes (R243, R244). -/
def poolAtom (s : State) (g : Guard) (op : AtOp) (n : Nat) (o : Ord) (d : Nat) (q : Option Nat) (a : R11) (v x : Issue → Nat) :
    Host.Outcome State Fault Refusal :=
  guarded s g (fun u => s.poolPre u (s.jOff u a 0) n n) (fun u s' =>
    let off := s.jOff u a 0
    let pas := [s.winPa u off.toNat]
    s'.pushPool u { blankAcc 2 (.atom op) true (off64 off) n with
      data := v u % 2 ^ (8 * n), data2 := x u % 2 ^ (8 * n), dst := some (s.dst u .j d), dst2 := q.map (s.dst u .q)
      acq := o.acquires, rel := o.releases } pas (poolLat u.core pas 10 16))

/-- A global atomic with one operand. -/
def globalAtom1 (s : State) (g : Guard) (op : AtOp) (n : Nat) (o : Ord) (d a b : R11) : Host.Outcome State Fault Refusal :=
  globalAtom s g op n o d.toNat none a (fun u => s.rd u .i b.toNat) (fun _ => 0)

/-- A pool atomic with one operand. -/
def poolAtom1 (s : State) (g : Guard) (op : AtOp) (n : Nat) (o : Ord) (d a b : R11) : Host.Outcome State Fault Refusal :=
  poolAtom s g op n o d.toNat none a (fun u => s.rd u .j b.toNat) (fun _ => 0)

/-- The operation of a floating-point atomic. -/
def fwOp : FW → AtOp
  | .f32 => .faddF32 | .bf => .faddBf

/-- The bytes of a floating-point atomic. -/
def fwBytes : FW → Nat
  | .f32 => 4 | .bf => 2

/-- AGADD (R243). -/
def execAgadd (g : Guard) (w : AW) (o : Ord) (d a b : R11) (s : State) : Host.Outcome State Fault Refusal :=
  globalAtom1 s g .add w.bytes o d a b

/-- AGINCW (R243, R245). -/
def execAgincw (g : Guard) (w : AW) (o : Ord) (d a b : R11) (s : State) : Host.Outcome State Fault Refusal :=
  globalAtom1 s g .incw w.bytes o d a b

/-- AGADDB (R243, R245). -/
def execAgaddb (g : Guard) (w : AW) (o : Ord) (d a b c : R11) (s : State) : Host.Outcome State Fault Refusal :=
  globalAtom s g .addb w.bytes o (d.toNat % 64) (some (d.toNat / 256)) a (fun u => s.rd u .i b.toNat) (fun u => s.rd u .i c.toNat)

/-- AGCAS (R243). -/
def execAgcas (g : Guard) (w : AW) (o : Ord) (d a b c : R11) (s : State) : Host.Outcome State Fault Refusal :=
  globalAtom s g .cas w.bytes o d.toNat none a (fun u => s.rd u .i b.toNat) (fun u => s.rd u .i c.toNat)

/-- AGXCH (R243). -/
def execAgxch (g : Guard) (w : AW) (o : Ord) (d a b : R11) (s : State) : Host.Outcome State Fault Refusal :=
  globalAtom1 s g .xch w.bytes o d a b

/-- AGMIN (R243). -/
def execAgmin (g : Guard) (w : AW) (o : Ord) (d a b : R11) (s : State) : Host.Outcome State Fault Refusal :=
  globalAtom1 s g .smin w.bytes o d a b

/-- AGMAX (R243). -/
def execAgmax (g : Guard) (w : AW) (o : Ord) (d a b : R11) (s : State) : Host.Outcome State Fault Refusal :=
  globalAtom1 s g .smax w.bytes o d a b

/-- AGAND (R243). -/
def execAgand (g : Guard) (w : AW) (o : Ord) (d a b : R11) (s : State) : Host.Outcome State Fault Refusal :=
  globalAtom1 s g .and w.bytes o d a b

/-- AGOR (R243). -/
def execAgor (g : Guard) (w : AW) (o : Ord) (d a b : R11) (s : State) : Host.Outcome State Fault Refusal :=
  globalAtom1 s g .or w.bytes o d a b

/-- AGXOR (R243). -/
def execAgxor (g : Guard) (w : AW) (o : Ord) (d a b : R11) (s : State) : Host.Outcome State Fault Refusal :=
  globalAtom1 s g .xor w.bytes o d a b

/-- AGFADD (R246). -/
def execAgfadd (g : Guard) (w : FW) (o : Ord) (d a b : R11) (s : State) : Host.Outcome State Fault Refusal :=
  globalAtom1 s g (fwOp w) (fwBytes w) o d a b

/-- APADD (R243). -/
def execApadd (g : Guard) (w : AW) (o : Ord) (d a b : R11) (s : State) : Host.Outcome State Fault Refusal :=
  poolAtom1 s g .add w.bytes o d a b

/-- APINCW (R243, R245). -/
def execApincw (g : Guard) (w : AW) (o : Ord) (d a b : R11) (s : State) : Host.Outcome State Fault Refusal :=
  poolAtom1 s g .incw w.bytes o d a b

/-- APADDB (R243, R245). -/
def execApaddb (g : Guard) (w : AW) (o : Ord) (d a b c : R11) (s : State) : Host.Outcome State Fault Refusal :=
  poolAtom s g .addb w.bytes o (d.toNat % 64) (some (d.toNat / 256)) a (fun u => s.rd u .j b.toNat) (fun u => s.rd u .j c.toNat)

/-- APCAS (R243). -/
def execApcas (g : Guard) (w : AW) (o : Ord) (d a b c : R11) (s : State) : Host.Outcome State Fault Refusal :=
  poolAtom s g .cas w.bytes o d.toNat none a (fun u => s.rd u .j b.toNat) (fun u => s.rd u .j c.toNat)

/-- APXCH (R243). -/
def execApxch (g : Guard) (w : AW) (o : Ord) (d a b : R11) (s : State) : Host.Outcome State Fault Refusal :=
  poolAtom1 s g .xch w.bytes o d a b

/-- APMIN (R243). -/
def execApmin (g : Guard) (w : AW) (o : Ord) (d a b : R11) (s : State) : Host.Outcome State Fault Refusal :=
  poolAtom1 s g .smin w.bytes o d a b

/-- APMAX (R243). -/
def execApmax (g : Guard) (w : AW) (o : Ord) (d a b : R11) (s : State) : Host.Outcome State Fault Refusal :=
  poolAtom1 s g .smax w.bytes o d a b

/-- APFADD (R246). -/
def execApfadd (g : Guard) (w : FW) (o : Ord) (d a b : R11) (s : State) : Host.Outcome State Fault Refusal :=
  poolAtom1 s g (fwOp w) (fwBytes w) o d a b

end Sys2Proof.Machine
end

