-- ==== Sys2Proof/Machine/Races.lean ====
section
/-! DEFINITION. The tracking state of the lines of CHECKED pages, and conflicts (R234 to R240). -/

namespace Sys2Proof.Machine

open Sys2Proof

/-- The granules of a line that n bytes at an address cover. -/
def granules (pa n : Nat) : Nat :=
  let a := pa % 64 / 4
  let b := (pa % 64 + n - 1) / 4
  packElems 1 (fun i => b2n (a ≤ i && i ≤ b)) 16

/-- The granules of an entry that an access of a mode conflicts with (R235): mode 0 plain read, 1 acquire load, 2 plain write, 3
release store, 4 atomic. -/
def LineEntry.against (x : LineEntry) (m : Mode) : Nat :=
  if m = 0 then x.pw ||| x.sw else if m = 1 then x.pw else if m = 2 then x.pr ||| x.sr ||| x.pw ||| x.sw else x.pr ||| x.pw

/-- An entry with an access's granules added (R235). -/
def LineEntry.mark (x : LineEntry) (m : Mode) (g : Nat) : LineEntry :=
  if m = 0 then { x with pr := x.pr ||| g }
  else if m = 1 then { x with sr := x.sr ||| g }
  else if m = 2 then { x with pw := x.pw ||| g }
  else if m = 3 then { x with sw := x.sw ||| g }
  else { x with sr := x.sr ||| g, sw := x.sw ||| g }

/-- An entry with nothing marked, of a strand or of an engine command under its tag. -/
def blankEntry (ten lid idx cmd : Nat) : LineEntry := ⟨ten, lid, idx, 0, 0, 0, 0, cmd⟩

/-- Whether an entry is the one that an access of a strand, or of an engine command under its tag, marks. -/
def LineEntry.isBy (x : LineEntry) (ten lid idx cmd : Nat) : Bool := x.isOf ten lid idx && x.cmd == cmd

/-- The signatures an access of a mode conflicts with in coarse state: 0 PR, 1 SR, 2 PW, 3 SW (R235). -/
def modeSigs (m : Mode) : List Nat :=
  if m = 0 then [2, 3] else if m = 1 then [2] else if m = 2 then [0, 1, 2, 3] else [0, 2]

/-- A conflict: the other strand's launch and index, the granules, and whether it was found in coarse state (R240). -/
structure Race where
  lid : Nat
  idx : Nat
  gran : Nat
  coarse : Bool
deriving DecidableEq, Repr

/-- The conflict of an access with a line's tracking state (R235, R237); the oldest entry counts as the lowest-numbered (log 136). -/
def Line.race (l : Line) (ten lid idx : Nat) (m : Mode) (g : Nat) : Option Race :=
  if l.coarse then
    let h := strandHash lid idx
    if l.counters.any (fun p => p.1 % 64 != h && (modeSigs m).contains (p.1 / 64) && p.2 != 0) then some ⟨0, 0, 0xFFFF, true⟩ else none
  else
    let xs := l.entries.filter (fun x => !x.isOf ten lid idx && x.against m &&& g != 0)
    match xs with
    | [] => none
    | x :: _ => some ⟨x.lid, x.idx, xs.foldl (fun a y => a ||| (y.against m &&& g)) 0, false⟩

/-- One signature's counter raised, up to 15 (R237). -/
def raiseCounter (t : Tab Nat) (sig h mask : Nat) : Tab Nat :=
  if mask = 0 then t else tset t 0 (sig * 64 + h) (min 15 (tget t 0 (sig * 64 + h) + 1))

/-- The counters raised for the signatures an entry touches and another does not. -/
def raiseFor (t : Tab Nat) (old new : LineEntry) : Tab Nat :=
  let h := strandHash new.lid new.idx
  let d (a b : Nat) : Nat := if a = 0 then b else 0
  raiseCounter (raiseCounter (raiseCounter (raiseCounter t 0 h (d old.pr new.pr)) 1 h (d old.sr new.sr)) 2 h (d old.pw new.pw)) 3 h
    (d old.sw new.sw)

/-- An access noted in coarse state: each signature counts a strand once. -/
def Line.noteCoarse (l : Line) (ten lid idx cmd : Nat) (m : Mode) (g : Nat) : Line :=
  let old := (l.touched.find? (fun x => x.isBy ten lid idx cmd)).getD (blankEntry ten lid idx cmd)
  let new := old.mark m g
  { l with counters := raiseFor l.counters old new, touched := l.touched.filter (fun x => !x.isBy ten lid idx cmd) ++ [new] }

/-- A line turned coarse: every entry counts in the signatures it has granules in. -/
def Line.toCoarse (l : Line) : Line :=
  { l with
    coarse := true
    counters := l.entries.foldl (fun t x => raiseFor t (blankEntry x.ten x.lid x.idx x.cmd) x) []
    touched := l.entries
    entries := [] }

/-- The strands that the entries of a line are under the tags of. -/
def Line.tags (l : Line) : List (Nat × Nat × Nat) := (l.entries.map (fun x => (x.ten, x.lid, x.idx))).eraseDups

/-- An access that has passed its check noted (R235, R237); what an engine command touches is kept apart under its strand's tag, so that it
can be cleared with the command (R324, log 59). -/
def Line.note (l : Line) (ten lid idx cmd : Nat) (m : Mode) (g : Nat) : Line :=
  if l.coarse then l.noteCoarse ten lid idx cmd m g
  else if l.entries.any (fun x => x.isBy ten lid idx cmd) then
    { l with entries := modifyFirst (fun x => x.isBy ten lid idx cmd) (fun x => x.mark m g) l.entries }
  else if l.tags.contains (ten, lid, idx) || l.tags.length < 4 then { l with entries := l.entries ++ [(blankEntry ten lid idx cmd).mark m g] }
  else l.toCoarse.noteCoarse ten lid idx cmd m g

/-- The tracking state of an address: only lines of HBM have one (R235). -/
def State.raceAt (s : State) (ten lid idx : Nat) (m : Mode) (pa n : Nat) : Option Race :=
  match placeOf pa with
  | .hbm _ => (tget s.lines {} (pa / 64)).race ten lid idx m (granules pa n)
  | .pool _ => none
  | .host => none
  | .peer _ => none
  | .tl => none
  | .none => none

/-- An access of a strand, or of an engine command under its tag, noted at its home. -/
def State.noteBy (s : State) (ten lid idx cmd : Nat) (m : Mode) (pa n : Nat) : State :=
  match placeOf pa with
  | .hbm _ =>
    let s := s.fillLine pa
    { s with lines := tput s.lines (pa / 64) ((tget s.lines {} (pa / 64)).note ten lid idx cmd m (granules pa n)) }
  | .pool _ => s
  | .host => s
  | .peer _ => s
  | .tl => s
  | .none => s

/-- An access of a strand noted at its home. -/
def State.noteAt (s : State) (ten lid idx : Nat) (m : Mode) (pa n : Nat) : State := s.noteBy ten lid idx 0 m pa n

/-- MEMRACE's record (R240). -/
def memrace (r : Race) (m : Mode) (va : Nat) : TrapRec :=
  trapRec causeMemrace (min 3 m * 2 ^ 8 + b2n r.coarse) va (r.lid * 2 ^ 32 + r.idx % 2 ^ 32) r.gran

end Sys2Proof.Machine
end

