-- ==== Sys2Proof/Machine/Access.lean ====
section
/-! DEFINITION. An access of a strand performing at its home (R142, R226, R229, R243, R250, R337, R338, R344, R382), and one whose
translation has come. -/

namespace Sys2Proof.Machine

open Sys2Proof

/-- A cycle that does not come: an access that has consumed an error never performs (R338). -/
def never : Nat := 2 ^ 63

/-- The seat's remote-loss status after a loss (R383): bit 0 a load, bit 1 an atomic; module 64 is the host. -/
def Seat.lose (t : Seat) (b m : Nat) : Seat :=
  let w := t.mode.srlost.toNat
  let w := if w % 8 = 0 then m * 256 else w
  { t with mode := { t.mode with srlost := BitVec.ofNat 64 (w ||| b ||| (if m = 64 then 4 else 0)) } }

/-- A loss reported to a seat: SRLOST, and REMLOST in deferred form under MODECTL.RTRAP (R382, R384). -/
def State.loseAccess (s : State) (c i m kind : Nat) (a : Acc) : State :=
  let s := s.modSeat c i (fun t => t.lose (if kind = 2 then 2 else 1) m)
  if bitAt (s.seat c i).mode.modectl.toNat 2 then
    s.deferTrap c i ⟨causeRemlost, kind, a.va, a.bundle.toNat, m, true, a.seq⟩
  else s

/-- The parts of an access. -/
def Acc.parts (a : Acc) : List Nat := a.pas.getD []

/-- The home of an access has replied (R364). -/
def State.answered (s : State) (c : Nat) (a : Acc) : State := s.heardFrom (dieOf c) (a.parts.headD 0)

/-- An access finished: it leaves the list, a release clears the strand's tracking entries (R236), and signals it held back are
applied. -/
def State.endAcc (s : State) (c i : Nat) (a : Acc) : State :=
  let s := if a.rel then s.releaseSeat c i else s
  let s := s.answered c a
  (s.modSeat c i (fun t => t.dropAcc a.id)).settle c i

/-- An access sent for the first time, or its timeout begun again, in a tick; a first sending starts its resends too (R250, R364). -/
def Acc.send (a : Acc) (tick : Nat) : Acc :=
  { a with
    sent := some tick
    home := match a.sent, a.home with
      | none, some (h, q, _) => some (h, q, tick)
      | _, x => x }

/-- An access that its home did not serve: it fails as a walk does in a retired frame or under a pod key
that the peer does not bind (R344, R377), or consumes an error and never
performs (R338); a silent home leaves it waiting. A loss is not handled here. -/
def State.refuseAcc (s : State) (c i : Nat) (a : Acc) (h : Home) : State :=
  let (ten, lid) := s.ownerOf c i
  let stop (s : State) : State := s.modSeat c i (fun t => t.modAcc a.id (fun x => { x with due := never }))
  match h with
  | .ok => s
  | .silent => if a.sent.isSome then s else s.modSeat c i (fun t => t.modAcc a.id (fun x => x.send s.tbase))
  | .lost _ => s
  | .retired => (s.deferTrap c i (xlateDeferred a 10)).endAcc c i { a with rel := false }
  | .denied => (s.deferTrap c i (xlateDeferred a 12)).endAcc c i { a with rel := false }
  | .poison cls pa => stop (s.consumeAt ten lid cls 0 pa a.va)
  | .integrity pa => stop (s.consumeAt ten lid 4 0 pa a.va)

/-! ## Lanes (R142) -/

/-- All lanes of an access, and those that have not acted yet, one bit each. -/
def Acc.lanesAll (a : Acc) : Nat := 2 ^ a.parts.length - 1
def Acc.lanesLeft (a : Acc) : Nat := a.lanesAll ^^^ (a.data2 &&& a.lanesAll)

/-- Some of the lanes that are left, as a free value picks them; at least one. -/
def pickLanes (left v : Nat) : Nat := if left &&& v = 0 then left else left &&& v

/-- The lanes of a load or store that act next: each lane of a vector is atomic, the vector as a whole is not (R142, log 109). -/
def State.nextLanes (s : State) (a : Acc) : Nat × State :=
  if a.parts.length ≤ 1 then (a.lanesLeft, s)
  else
    let (v, s) := s.takeFree
    (pickLanes a.lanesLeft v, s)

/-- The parts of some lanes. -/
def laneParts (lanes : Nat) (pas : List Nat) : List Nat := (pas.zipIdx.filter (fun p => bitAt lanes p.2)).map Prod.fst

/-- The parts read, the first lowest; lanes left out read as 0. -/
def State.readParts (s : State) (n lanes : Nat) (pas : List Nat) : Nat :=
  packList (8 * n) (pas.zipIdx.map (fun p => if bitAt lanes p.2 then s.load p.1 n else 0))

/-- A value stored over the parts of some lanes, in order. -/
def State.writeParts (s : State) (n key : Nat) : Nat → List Nat → Nat → State
  | _, [], _ => s
  | lanes, p :: r, v =>
    let s := if lanes % 2 = 1 then s.store p n key (v % 2 ^ (8 * n)) else s
    s.writeParts n key (lanes / 2) r (v / 2 ^ (8 * n))

/-- The lines of the parts brought into their caches. -/
def State.fillParts (s : State) (pas : List Nat) : State := pas.foldl State.fillLine s

/-- A loaded value as its destination takes it (R106). -/
def extendLoad (sx : Bool) (n v : Nat) : Nat := if sx then wrapN 64 (sextN (8 * n) v) else v

/-- A load's data returned to its destination, no earlier than its latency allows. -/
def State.returnData (s : State) (c i : Nat) (a : Acc) (v : Nat) : State :=
  (s.deliverBy c i a.due a.seq a.pos a.dst v).endAcc c i a

/-- An access of which some lanes have acted: what they returned is kept with it. -/
def State.keepLanes (s : State) (c i : Nat) (a : Acc) (data lanes : Nat) : State :=
  s.modSeat c i (fun t => t.modAcc a.id (fun x => { x with data := data, data2 := a.data2 ||| lanes }))

/-- Some lanes of a scalar or vector load performing (R106, R110, R142): their values are fixed, and the last of them return with the
others. -/
def State.performLoad (s : State) (c i : Nat) (a : Acc) (sx : Bool) (lanes : Nat) : State :=
  match s.homeAcc none (s.ownerOf c i).1 a (laneParts lanes a.parts) with
  | .ok =>
    let v := a.data ||| s.readParts a.n lanes a.parts
    let s := s.fillParts (laneParts lanes a.parts)
    if a.lanesLeft = lanes then s.returnData c i a (extendLoad sx a.n v) else s.keepLanes c i a v lanes
  | .lost m => (s.loseAccess c i m 1 a).returnData c i a (extendLoad sx a.n (2 ^ (8 * a.n * a.parts.length) - 1))
  | h => s.refuseAcc c i a h

/-- Whether a physical address is reached through the host port or the fabric port. -/
def throughPort (pa : Nat) : Bool :=
  match placeOf pa with
  | .host => true
  | .peer _ => true
  | .hbm _ => false
  | .pool _ => false
  | .tl => false
  | .none => false

/-- A store or an atomic that the host port or the fabric port accepts while it cannot send it (R226). -/
def State.acceptAcc (s : State) (c i : Nat) (a : Acc) : State :=
  if a.accepted.isSome || !a.parts.all throughPort then s
  else
    let n := s.pkg.accepts
    ({ s with pkg := { s.pkg with accepts := n + 1 } }.modSeat c i (fun t =>
      t.modAcc a.id (fun x => { x with accepted := some n }))).settle c i

/-- Some lanes of a store performing (R106, R142, R229); to a lost peer or host it is dropped and counted (R382). -/
def State.performStore (s : State) (c i : Nat) (a : Acc) (lanes : Nat) : State :=
  match s.homeAcc a.accepted (s.ownerOf c i).1 a (laneParts lanes a.parts) with
  | .ok =>
    let s := s.writeParts a.n a.key lanes a.parts a.data
    if a.lanesLeft = lanes then s.endAcc c i a else s.keepLanes c i a a.data lanes
  | .lost m => (s.dropStore m).endAcc c i a
  | .silent => s.acceptAcc c i a
  | h => s.refuseAcc c i a h

/-- The old value and the success flag of an atomic as one number: the flag above 64 bits of value. -/
def atomResult (m : Nat) (ok : Bool) : Nat := m + b2n ok * 2 ^ 64

/-- An atomic applied at its home in one step (R243, R247): memory written, the old value and the success flag kept for the
reply, an entry of the replay cache made for a request that left its die (R250). From a lost home the value is the tephra value
(R382), and the success flag, which no rule gives, is free (log 9). The host may complete a request as unsupported (R244, log 111). A port
that cannot send it accepts it (R226). -/
def State.applyAtom (s : State) (c i : Nat) (a : Acc) (op : AtOp) : State :=
  match s.homeAcc a.accepted (s.ownerOf c i).1 a a.parts with
  | .ok =>
    let pa := a.parts.headD 0
    let (no, s) := if placeOf pa = .host then s.takeFree else (0, s)
    if no % 2 = 1 then (s.deferTrap c i (xlateDeferred a 9)).endAcc c i { a with rel := false }
    else
      let m := s.load pa a.n
      let (new, ok) := atomNew op (8 * a.n) m a.data a.data2
      let r := atomResult m ok
      let s := s.store pa a.n a.key new
      let s := if a.rel then s.releaseSeat c i else s
      let s := match a.home with
        | none => s
        | some (h, q, _) => if h < 4 then s.keepReply h (16 * c + i) q [r] else s
      (s.modSeat c i (fun t => t.modAcc a.id (fun x => { x with result := some r, accepted := none }))).settle c i
  | .lost m =>
    let (v, s) := s.takeFree
    (s.loseAccess c i m 2 a).modSeat c i (fun t => t.modAcc a.id (fun x => { x with
      result := some (atomResult (2 ^ (8 * a.n) - 1) (v % 2 == 1)), accepted := none }))
  | .silent => (s.acceptAcc c i a).refuseAcc c i a .silent
  | h => s.refuseAcc c i a h

/-- An atomic's reply (R243): the old value into its register, the success flag into its predicate. -/
def State.replyAtom (s : State) (c i : Nat) (a : Acc) (r : Nat) : State :=
  let s := s.deliver c i a.seq a.pos a.dst (r % 2 ^ 64)
  (s.deliver c i a.seq a.pos a.dst2 (r / 2 ^ 64)).endAcc c i { a with rel := false }

/-- Scales that arrive at the tail of the queue, in address order (R111). -/
def State.pushScales (s : State) (c i : Nat) (a : Acc) (v : Nat) : State :=
  (s.modCore c (fun k => { k with mx := { k.mx with
    scales := k.mx.scales ++ (List.range (a.n / 2)).map (fun j => field v (16 * j) 16) } })).endAcc c i a

/-- SQLD's scales read and arriving (R111). -/
def State.arriveScales (s : State) (c i : Nat) (a : Acc) : State :=
  match s.homeAcc none (s.ownerOf c i).1 a a.parts with
  | .ok => s.pushScales c i a (s.readParts a.n 1 a.parts)
  | h => s.refuseAcc c i a h

/-- An SQLD whose bytes are read before its scales arrive. -/
def State.fixScales (s : State) (c i : Nat) (a : Acc) : State :=
  match s.homeAcc none (s.ownerOf c i).1 a a.parts with
  | .ok => s.modSeat c i (fun t => t.modAcc a.id (fun x => { x with result := some (s.readParts a.n 1 a.parts) }))
  | h => s.refuseAcc c i a h

/-! ## A translation that has come (R218, R219) -/

/-- What an access needs of its leaf. -/
def AccKind.need : AccKind → Need
  | .load _ => .read | .store => .write | .atom _ => .atomic | .vload => .read | .vstore => .write | .sqld => .read | .xldp => .read
  | .xhash => .read | .xins => .write | .xwalk _ => .read | .launch => .read

/-- The mode of a global access, for its check on a CHECKED page (R235). -/
def Acc.mode (a : Acc) : Mode :=
  match a.kind.need with
  | .read => if a.acq then 1 else 0
  | .write => if a.rel then 3 else 2
  | .atomic => 4
  | .fetch => 0

/-- An access whose translation is known put on its way (R209, R244, R249). On a CHECKED page its home checks it first; its bundle has
issued, so that a conflict is a deferred MEMRACE (R239, log 112). -/
def State.translated (s : State) (c i : Nat) (a : Acc) (pa key cons : Nat) : State :=
  let who := match (s.seat c i).strand with
    | none => (0, 0, 0)
    | some x => (x.ten, x.lid, x.idx)
  let race := if cons = 1 then s.raceAt who.1 who.2.1 who.2.2 a.mode pa a.n else none
  match accRefused a.kind pa, race with
  | some r, _ => (s.deferTrap c i (xlateDeferred a r)).endAcc c i { a with rel := false }
  | none, some q => (s.deferTrap c i { memrace q a.mode a.va with defer := true, seq := a.seq }).endAcc c i { a with rel := false }
  | none, none =>
    let lat := match a.kind.need with
      | .write => 1
      | .atomic => globalLat c pa true
      | .read => globalLat c pa false
      | .fetch => globalLat c pa false
    let s := if cons = 1 then s.noteAt who.1 who.2.1 who.2.2 a.mode pa a.n else s
    let s := s.modSeat c i (fun t => t.modAcc a.id (fun x => { x with
      pas := some [pa], key := key, ordered := cons == 2, due := max (s.core c).now (x.due + lat) }))
    match a.kind with
    | .atom _ => s.sendHome c i a.id
    | _ => s

/-- The access of a seat with an id, when the event that performs it may happen: its die is not halted for the debugger
(R365). -/
def State.liveAcc (s : State) (c i id : Nat) : Option Acc :=
  if (s.die (dieOf c)).halted.isSome then none else (s.seat c i).findAcc id

/-! ## Events -/

/-- STORE_APPLY (R229). -/
def execStoreApply (c i id : Nat) (s : State) : Host.Outcome State Fault Refusal :=
  match s.liveAcc c i id with
  | none => .next s
  | some a =>
    if (a.kind == .store || a.kind == .vstore) && (s.seat c i).mayPerform (s.core c).now a then
      let (lanes, s) := s.nextLanes a
      .next (s.performStore c i a lanes)
    else .next s

/-- ATOMIC_APPLY (R247, R249): a home applies a request once, in one step. -/
def execAtomicApply (c i id : Nat) (s : State) : Host.Outcome State Fault Refusal :=
  match s.liveAcc c i id with
  | none => .next s
  | some a => match a.kind with
    | .atom op => if (s.seat c i).mayAct a && a.due != never then .next (s.applyAtom c i a op) else .next s
    | _ => .next s

/-- ATOMIC_REPLY (R243). -/
def execAtomicReply (c i id : Nat) (s : State) : Host.Outcome State Fault Refusal :=
  match s.liveAcc c i id with
  | none => .next s
  | some a => match a.result with
    | none => .next s
    | some r => if a.due ≤ (s.core c).now then .next (s.replyAtom c i a r) else .next s

/-- SCALE_ARRIVE (R111). -/
def execScaleArrive (c i id : Nat) (s : State) : Host.Outcome State Fault Refusal :=
  match s.liveAcc c i id with
  | none => .next s
  | some a =>
    if a.kind == .sqld then match a.result with
      | some v => if a.due ≤ (s.core c).now then .next (s.pushScales c i a v) else .next s
      | none => if (s.seat c i).mayPerform (s.core c).now a then .next (s.arriveScales c i a) else .next s
    else .next s

end Sys2Proof.Machine
end

