-- ==== Sys2Proof/Machine/System.lean ====
section
/-! DEFINITION. The register, control-register and translation forms of the E slot (R52, R163, R196, R197, R223). -/

namespace Sys2Proof.Machine

open Sys2Proof

/-- A control register's number (R52). -/
def csrOf (imm : Imm) : Nat := imm.value.toNat

/-! ## Reading (R52, R197) -/

/-- The logical cores of a cluster in service, one bit each (R351). -/
def State.coreMask (s : State) (d k : Nat) : Nat :=
  packElems 1 (fun j => b2n (!(s.core (128 * d + 8 * k + j)).absent)) 8

/-- CORECNT (R351). -/
def State.corecnt (s : State) (c : Nat) : Nat :=
  let d := dieOf c
  let k := clusterOf c
  let mask := s.coreMask d k
  let all := ((List.range 16).map (fun j => popCount 8 (s.coreMask d j))).sum
  let clus := packElems 1 (fun j => b2n (s.coreMask d j != 0)) 16
  mask + clus * 2 ^ 8 + popCount 8 mask * 2 ^ 24 + all * 2 ^ 32
    + b2n (!(tget (s.die d).clusters {} k).spareUsed) * 2 ^ 40

/-- PKGXY (R359). -/
def pkgxy (c : Nat) : Nat :=
  let d := dieOf c
  let k := clusterOf c
  let cx := k % 4
  let cy := k / 4
  let px := if d = 0 then cx else if d = 1 then 7 - cy else if d = 2 then 7 - cx else cy
  let py := if d = 0 then cy else if d = 1 then cx else if d = 2 then 7 - cy else 7 - cx
  c % 8 + k * 2 ^ 4 + d * 2 ^ 8 + px * 2 ^ 16 + py * 2 ^ 20

/-- SEATID (R176). -/
def seatid (c i : Nat) : Nat := i + c % 8 * 2 ^ 8 + clusterOf c * 2 ^ 12

/-- SVCLVL (R388). -/
def State.svcWord (s : State) : Nat := s.svclvl + b2n s.svcFail * 4

/-- GEAR (R92): the gear in force, the last value written to the die, and whether it is not yet in force. -/
def State.gearWord (s : State) (c : Nat) : Nat :=
  let k := s.core c
  let d := s.die (dieOf c)
  k.gear + d.gear * 2 ^ 8 + b2n (decide (k.gearSeen < d.gears.length)) * 2 ^ 16

/-- The value of a control register as the running seat reads it (R52). -/
def State.csr (s : State) (c i n : Nat) : Nat :=
  let k := s.core c
  let t := s.seat c i
  if n = 0x000 then seatid c i
  else if n = 0x001 then s.corecnt c
  else if n = 0x002 then dieOf c
  else if n = 0x003 then dieOf c
  else if n = 0x004 then pkgxy c
  else if n = 0x005 then s.svcWord
  else if n = 0x010 then s.tbase % 2 ^ 64
  else if n = 0x020 then s.gearWord c
  else if n = 0x021 then t.mode.emode.toNat
  else if n = 0x022 then k.ectrDecl.toNat
  else if n = 0x023 then k.ectrRes.toNat
  else if n = 0x024 then k.ehold.toNat
  else if n = 0x030 then t.mode.fstat.toNat
  else if n = 0x031 then t.mode.fctl.toNat
  else if n = 0x038 then t.mode.modectl.toNat
  else if n = 0x040 then k.deficit.toNat
  else if n = 0x041 then k.bconf.toNat
  else if n = 0x050 then t.mode.srlost.toNat
  else if n = 0x060 then t.trap.cause.toNat
  else if n = 0x061 then t.trap.pc.toNat
  else if n = 0x062 then t.trap.dly.toNat
  else if n = 0x063 then t.trap.info0.toNat
  else if n = 0x064 then t.trap.info1.toNat
  else if n = 0x065 then t.trap.info2.toNat
  else if n = 0x066 then t.trap.info3.toNat
  else if n = 0x067 then t.trap.vec.toNat
  else 0

/-- The wait of a CSRRD of FSTAT for every result of the F, V and W slots and every matrix beat of earlier bundles (R69). -/
def State.fstatPre (s : State) (u : Issue) : Pre :=
  let t := s.seat u.core u.seat
  if t.flights.any (fun x => x.fpu && x.seq != u.seq) || t.accs.any (fun a => a.kind == .vload && a.seq != u.seq) then .hold else .ok

/-! ## Writing (R7, R197) -/

/-- The expert enables captured with the launch of a seat's strand (R169). -/
def Seat.expert (t : Seat) (b : Nat) : Bool :=
  match t.strand with
  | none => false
  | some x => bitAt x.expert b

/-- A register with some bits replaced by those of a value. -/
def putBits (old v mask : Word) : Word := (old &&& ~~~mask) ||| (v &&& mask)

/-- A mask that is in force under an expert enable. -/
def underExpert (t : Seat) (b : Nat) (mask : Word) : Word := if t.expert b then mask else 0

/-- FSTAT after a write (R69): the flags named are cleared, and those of results that complete in this cycle stay set. -/
def Seat.clearFstat (t : Seat) (v : Word) : Word := (t.mode.fstat &&& ~~~(v &&& 31)) ||| BitVec.ofNat 64 t.nowFlags

/-- SRLOST after a write (R383): MOD reads 0 once no loss is noted. -/
def clearSrlost (old v : Word) : Word :=
  let w := old &&& ~~~(v &&& 7)
  if w &&& 7 = 0 then 0 else w

/-- The bits of FCTL and MODECTL a strand may write (R68, R177). -/
def fctlMask (t : Seat) : Word := underExpert t 9 32 ||| underExpert t 10 31
def modectlMask (t : Seat) : Word :=
  underExpert t 0 1 ||| underExpert t 2 2 ||| underExpert t 3 4 ||| underExpert t 4 8 ||| underExpert t 7 16

/-- The seat's own control registers after a CSRWR (R68, R90, R177, R383). -/
def Seat.csrWrite (t : Seat) (n : Nat) (v : Word) : Seat :=
  let m := t.mode
  if n = 0x021 then { t with mode := { m with emode := putBits m.emode v (underExpert t 1 3) } }
  else if n = 0x030 then { t with mode := { m with fstat := t.clearFstat v } }
  else if n = 0x031 then { t with mode := { m with fctl := putBits m.fctl v (fctlMask t) } }
  else if n = 0x038 then { t with mode := { m with modectl := putBits m.modectl v (modectlMask t) } }
  else if n = 0x050 then { t with mode := { m with srlost := clearSrlost m.srlost v } }
  else t

/-- The core's control registers after a CSRWR (R19, R23, R93). -/
def Core.csrWrite (k : Core) (n : Nat) (v : Word) : Core :=
  if n = 0x022 then { k with ectrDecl := v }
  else if n = 0x023 then { k with ectrRes := v }
  else if n = 0x024 then { k with ehold := v }
  else if n = 0x040 then { k with deficit := v }
  else if n = 0x041 then { k with bconf := v }
  else k

/-! ## TLBINV and ICFLUSH (R223) -/

/-- The range of TLBINV and ICFLUSH, base and bytes: the count is rounded up to 64 KiB, and 0 means the whole address space. -/
def flushRange (base n : Nat) : Nat × Nat := if n = 0 then (0, 2 ^ 56) else (base, cdiv n (2 ^ 16) * 2 ^ 16)

/-- The checks of TLBINV's and ICFLUSH's base at issue. -/
def flushPre (base : Nat) : Pre :=
  if 2 ^ 56 ≤ base then .trap (trapRec causeXlate 0 base 0 0)
  else if base % 2 ^ 16 ≠ 0 then .trap (trapRec causeAlign 0 base 0 0)
  else .ok

/-- Whether a translation of a tenancy overlaps a range. -/
def Tlb.within (t : Tlb) (ten base n : Nat) : Bool := t.ten == ten && overlaps t.base t.size base n

/-- A tenancy's translations that overlap a range removed from a core's and its cluster's TLB. -/
def State.dropLocalTlb (s : State) (c ten base n : Nat) : State :=
  let s := s.modDie (dieOf c) (fun d => { d with
    clTlb := tput d.clTlb (clusterOf c) ((tget d.clTlb [] (clusterOf c)).filter (fun t => !t.within ten base n)) })
  s.modCore c (fun k => { k with tlb := k.tlb.filter (fun t => !t.within ten base n) })

/-- A buffer without a tenancy's bundles that overlap a range. -/
def dropBundles (ten base n : Nat) (l : List Code) : List Code := l.filter (fun x => !(x.ten == ten && overlaps x.from_ x.bytes base n))

/-- A tenancy's bundles that overlap a range removed from a core's and its cluster's instruction buffer (R223). -/
def State.dropBuffers (s : State) (c ten base n : Nat) : State :=
  let s := s.modDie (dieOf c) (fun d => { d with
    clBuf := tput d.clBuf (clusterOf c) (dropBundles ten base n (tget d.clBuf [] (clusterOf c))) })
  s.modCore c (fun k => { k with ibuf := dropBundles ten base n k.ibuf })

/-- A wait that holds the seat's next bundle back (R174, R223). -/
def State.await (s : State) (u : Issue) (w : PWait) : State := s.modSeat u.core u.seat (fun t => { t with wait := some w })

/-! ## Meanings -/

/-- An E form that writes e[d]. -/
def eForm (s : State) (g : Guard) (lat : Nat) (d : R11) (k : Issue → Nat) : Host.Outcome State Fault Refusal :=
  simple s g (fun u => s.result u 9 lat .e d.toNat (k u))

/-- ELI (R196). -/
def execEli (g : Guard) (d : R11) (imm : Imm) (s : State) : Host.Outcome State Fault Refusal :=
  eForm s g 1 d (fun _ => imm.value.toNat)

/-- EADD (R196). -/
def execEadd (g : Guard) (d a b : R11) (s : State) : Host.Outcome State Fault Refusal :=
  eForm s g 1 d (fun u => addr64 (s.rd u .e a.toNat) (s.rd u .e b.toNat))

/-- EMOV (R196). -/
def execEmov (g : Guard) (d a : R11) (s : State) : Host.Outcome State Fault Refusal :=
  eForm s g 1 d (fun u => s.rd u .e a.toNat)

/-- CSRRD (R197): FSTAT waits for the seat's earlier floating-point results (R69). -/
def execCsrrd (g : Guard) (d : R11) (imm : Imm) (s : State) : Host.Outcome State Fault Refusal :=
  guarded s g (fun u => if csrOf imm = 0x030 then s.fstatPre u else .ok) (fun u s' =>
    s'.result u 9 2 .e d.toNat (u.eval.getD (s.csr u.core u.seat (csrOf imm))))

/-- CSRWR (R197, R7). -/
def execCsrwr (g : Guard) (a : R11) (imm : Imm) (s : State) : Host.Outcome State Fault Refusal :=
  simple s g (fun u =>
    let v := BitVec.ofNat 64 (s.rd u .e a.toNat)
    (s.modSeat u.core u.seat (fun t => t.csrWrite (csrOf imm) v)).modCore u.core (fun k => k.csrWrite (csrOf imm) v))

/-- TLBINV (R223). -/
def execTlbinv (g : Guard) (a b : R11) (s : State) : Host.Outcome State Fault Refusal :=
  guarded s g (fun u => flushPre (s.rd u .e a.toNat)) (fun u s' =>
    let (base, n) := flushRange (s.rd u .e a.toNat) (s.rd u .e b.toNat)
    (s'.dropLocalTlb u.core (s.who u).1 base n).await u (.tlbinv base n s.pkg.tueWidx.toNat))

/-- ICFLUSH (R223): it acts once the strand's earlier stores and atomics have performed. -/
def execIcflush (g : Guard) (a b : R11) (s : State) : Host.Outcome State Fault Refusal :=
  guarded s g (fun u => flushPre (s.rd u .e a.toNat)) (fun u s' =>
    let (base, n) := flushRange (s.rd u .e a.toNat) (s.rd u .e b.toNat)
    s'.await u (.icflush base n u.seq))

end Sys2Proof.Machine
end

