-- ==== Sys2Proof/Machine/Sync.lean ====
section
/-! DEFINITION. Semaphores, fences, phases, launches by strands and waits on timelines (R190 to R202, R302, R303). -/

namespace Sys2Proof.Machine

open Sys2Proof

/-! ## Semaphores (R191) -/

/-- A wait (n, t) at its place in the semaphore order: it completes if the value is at least t. -/
def Core.tryWait (k : Core) (n t : Nat) : Option Core := if t ≤ k.semVal n then some (k.setSem n (k.semVal n - t)) else none

/-- The pending wait of one seat on a semaphore tried (R191 step 3). -/
def State.trySeat (s : State) (c n i : Nat) : State :=
  let t := s.seat c i
  let done (k : Core) : Core := { k with semLast := tset k.semLast 0 n (i + 1) }
  match t.wait with
  | some (.sem m v) =>
    if m = n then
      match (s.core c).tryWait n v with
      | none => s
      | some k => (s.setCore c (done k)).modSeat c i (fun t => { t with wait := none })
    else s
  | some _ => s
  | none => match t.bcw with
    | .pending m v =>
      if m = n then
        match (s.core c).tryWait n v with
        | none => s
        | some k => (s.setCore c (done k)).modSeat c i (fun t => { t with bcw := .taken m v })
      else s
    | .none => s
    | .taken _ _ => s

/-- The wake kind of a record (R171). -/
def Rec.kind (r : Rec) : Nat := field r.wake.toNat 60 4

/-- A record put into a list by the order of suspension. -/
def insertOrder (r : Rec) : List Rec → List Rec
  | [] => [r]
  | q :: qs => if q.order ≤ r.order then q :: insertOrder r qs else r :: q :: qs

/-- Records from the oldest suspension to the newest. -/
def byOrder : List Rec → List Rec
  | [] => []
  | r :: rs => insertOrder r (byOrder rs)

/-- Whether a record's wake names a semaphore of a core of its tenancy (R171, R191). -/
def Rec.waitsSem (r : Rec) (c ten n : Nat) : Bool :=
  !r.ready && r.only == some c && r.strand.ten == ten && r.kind == 1 && field r.wake.toNat 48 8 == n

/-- The kind-1 wakes of some records tried in turn (R191 step 4): the entries of those that complete, and the core after. -/
def wakeRecs (n : Nat) : List Rec → Core → List Nat × Core
  | [], k => ([], k)
  | r :: rs, k =>
    match k.tryWait n (field r.wake.toNat 32 16) with
    | none => wakeRecs n rs k
    | some k => let (es, k') := wakeRecs n rs k; (r.entry :: es, k')

/-- Whether a record stands in a list without being ready. -/
def waiting (old : List Rec) (r : Rec) : Bool := old.any (fun q => q.entry == r.entry && !q.ready)

/-- Records that have just become ready join the end of the ready lists, or their head where R186 says so. -/
def joinReady (old rs : List Rec) : List Rec :=
  let woke (r : Rec) : Bool := r.ready && waiting old r
  rs.filter (fun r => woke r && r.front) ++ rs.filter (fun r => !woke r) ++ rs.filter (fun r => woke r && !r.front)

/-- Every wait and wake on a semaphore tried in the order of R191. -/
def State.semComplete (s : State) (c n : Nat) : State :=
  let start := tget (s.core c).semLast 0 n
  let s := s.trySeat c n (start % 4)
  let s := s.trySeat c n ((start + 1) % 4)
  let s := s.trySeat c n ((start + 2) % 4)
  let s := s.trySeat c n ((start + 3) % 4)
  match (s.core c).ten with
  | none => s
  | some ten =>
    let old := (s.die (dieOf c)).recs
    let (es, k) := wakeRecs n (byOrder (old.filter (fun r => r.waitsSem c ten n))) (s.core c)
    if es.isEmpty then s
    else (s.setCore c k).setRecs (dieOf c) (joinReady old (old.map (fun r => if es.contains r.entry then { r with ready := true } else r)))

/-- The semaphores that a seat of a core, or a record bound to it, waits for. -/
def State.waitedSems (s : State) (c : Nat) : List Nat :=
  (s.core c).seats.flatMap (fun p => match p.2.wait with
    | some (.sem n _) => [n]
    | some _ => []
    | none => match p.2.bcw with
      | .pending n _ => [n]
      | .none => []
      | .taken _ _ => [])
  ++ ((s.die (dieOf c)).recs.filter (fun r => r.only == some c && r.kind == 1 && !r.ready)).map (fun r => field r.wake.toNat 48 8)

/-- Every pending wait of a core that the values its semaphores reached in its last cycle allow, whichever seat runs (R191). -/
def State.settleSems (s : State) (c : Nat) : State := (s.waitedSems c).foldl (fun s n => s.semComplete c n) s

/-! ## Phases (R179, R201) -/

/-- The die a strand of a launch belongs to (R179): the k-th set bit of DIEMASK. -/
def Launch.dies (l : Launch) : List Nat := (List.range 4).filter (bitAt l.diemask)

/-- Strands of a launch. -/
def Launch.total (l : Launch) : Nat := l.gx * l.gy * l.gz

/-- The die of strand L. -/
def Launch.dieOfStrand (l : Launch) (idx : Nat) : Nat := l.dies.getD (idx / (8 * l.spc) % max 1 l.dies.length) 0

/-- The group of strand L at the launch's domain level (R179). -/
def Launch.group (l : Launch) (idx : Nat) : Nat :=
  if l.dom = 0 then idx
  else if l.dom = 1 then idx / l.spc
  else if l.dom = 2 then idx / (8 * l.spc)
  else if l.dom = 3 then l.dieOfStrand idx
  else 0

/-- Strands of a launch on a die. -/
def Launch.onDie (l : Launch) (d : Nat) : Nat :=
  let q := 8 * l.spc
  let n := max 1 l.dies.length
  let full := l.total / q
  match findNat (fun k => l.dies.getD k 4 == d) l.dies.length with
  | none => 0
  | some k => (full + n - 1 - k) / n * q + (if full % n = k then l.total % q else 0)

/-- Members of a group, those that have ended included. -/
def Launch.members (l : Launch) (g : Nat) : Nat :=
  if l.dom = 0 then 1
  else if l.dom = 1 then min l.spc (l.total - g * l.spc)
  else if l.dom = 2 then min (8 * l.spc) (l.total - g * (8 * l.spc))
  else if l.dom = 3 then l.onDie g
  else l.total

/-- The phase state of a group. -/
def Launch.phase (l : Launch) (g : Nat) : Phase := tget l.phases {} g

/-- Members of a group that have arrived at its next phase and not ended. -/
def Launch.here (l : Launch) (g : Nat) : Nat := ((l.phase g).arrived.filter (fun i => !l.ended.contains i)).length

/-- Whether no member of a group is still to arrive at its next phase: those that have ended are not counted (R179, R201). -/
def Launch.noneMissing (l : Launch) (g : Nat) : Bool :=
  decide (l.members g ≤ l.here g + (l.ended.filter (fun i => l.group i == g)).length)

/-- Whether every member of a group that has not ended has arrived at its next phase (R179, R201). -/
def Launch.allArrived (l : Launch) (g : Nat) : Bool := decide (0 < l.here g) && l.noneMissing g

/-- A phase of a group released. -/
def Launch.releasePhase (l : Launch) (g : Nat) (lost : Bool) : Launch :=
  let p := l.phase g
  { l with phases := tput l.phases g { rel := p.rel + 1, arrived := [], lost := lost } }

/-- A strand's arrival at its group's phase, once what its PHASE releases has performed; at domain level 0 there is neither a scope nor a
barrier (R201). A halted die's strands do not arrive (R365). -/
def State.arrivePhase (s : State) (c i : Nat) : State :=
  let t := s.seat c i
  match t.wait, t.strand with
  | some (.phase d num false), some x =>
    let dom := ((s.launch x.ten x.lid).map Launch.dom).getD 0
    if (s.die (dieOf c)).halted.isNone && (dom == 0 || t.accs.all (fun a => a.performedAt (dom == 5))) then
      let s := (if dom = 0 then s else s.releaseSeat c i).modSeat c i (fun t => { t with wait := some (.phase d num true) })
      s.modLaunch x.ten x.lid (fun l =>
        let g := l.group x.idx
        let p := l.phase g
        let l := { l with phases := tput l.phases g { p with arrived := x.idx :: p.arrived, last := s.tbase } }
        if l.dom = 0 then l.releasePhase g false else l)
    else s
  | _, _ => s

/-- The value a phase result holds: bit 63 when a module was lost (R382). -/
def phaseResult (num : Nat) (lost : Bool) : Nat := num + b2n lost * 2 ^ 63

/-- A released phase delivered to a seat that waits for it (R201). -/
def State.takePhase (s : State) (c i : Nat) : State :=
  let t := s.seat c i
  match t.wait, t.strand with
  | some (.phase d num true), some x =>
    match s.launch x.ten x.lid with
    | none => s
    | some l =>
      let p := l.phase (l.group x.idx)
      if num ≤ p.rel then
        (s.deliverLast c i ⟨.e, d⟩ (phaseResult num p.lost)).modSeat c i (fun t => { t with wait := none, phase := num })
      else s
  | _, _ => s

/-- An operation on every seat of every core. -/
def State.eachSeat (s : State) (f : State → Nat → Nat → State) : State :=
  (s.cores.map Prod.fst).foldl (fun s c => [0, 1, 2, 3].foldl (fun s i => f s c i) s) s

/-- The group's phase released, if all have arrived, and delivered to the resident waiters. -/
def State.releaseGroup (s : State) (ten lid g : Nat) (lost : Bool) : State :=
  (s.modLaunch ten lid (fun l => if l.allArrived g then l.releasePhase g lost else l)).eachSeat State.takePhase

/-! ## LAUNCH (R202) -/

/-- The checks of LAUNCH at issue (R202); its claim waits like any atomic for one of the 64 places at its home (R249). -/
def State.launchPre (s : State) (u : Issue) (va q : Nat) : Pre :=
  let open_ : Pre := match s.queueOf (s.who u).1 q with
    | some (_, _, true, _, _) => .ok
    | some (_, _, false, _, _) => .trap (trapRec causePriv q 0 0 0)
    | none => .trap (trapRec causePriv q 0 0 0)
  let room : Pre := match s.claimHome u.core (s.who u).1 q with
    | none => .ok
    | some h => if 64 ≤ s.unanswered u.core u.seat h then .hold else .ok
  (s.globalPre u va 64 0).and (open_.and room)

/-- The 64 bytes of a packet image with PARENT set and the phase bit of its slot (R180, R202). -/
def launchBytes (img lid k size : Nat) : Nat :=
  let img := setField img (32 * 8 + 64 + 32) 32 lid
  setField img 63 1 (1 - k / size % 2)

/-- An append finished: the slot's bytes and then its header written, a child launch counted (an image of another packet's type is none,
log 140), the slot number returned. -/
def State.appendPacket (s : State) (c i : Nat) (a : Acc) (ten lid img k base log2 : Nat) : State :=
  let size := 2 ^ log2
  let slot := base + 64 * (k % size)
  let v := launchBytes img lid k size
  let type := field img 48 8
  let s := s.agentStore (some 0) ten lid (slot + 8) 56 (v / 2 ^ 64)
  let s := s.agentStore (some 0) ten lid slot 8 (v % 2 ^ 64)
  let s := if 2 ≤ type && type ≤ 5 then s else s.modLaunch ten lid (fun l => { l with kids := l.kids + 1 })
  (s.noteQueues ten).returnData c i a k

/-- An append that meets an error in the queue consumes it and never ends (R338). -/
def State.spoilLaunch (s : State) (c i : Nat) (a : Acc) (e : Nat × Nat × Nat) : State :=
  let (ten, lid) := s.ownerOf c i
  (s.agentConsume (some 0) ten lid e.1 e.2.1 e.2.2).modSeat c i (fun t => t.modAcc a.id (fun x => { x with due := never }))

/-- The claim of a slot applied as an atomic at the home of the write index: one that leaves the die is numbered there (R180, R249, R250). -/
def State.claimReply (s : State) (c i q k : Nat) : State :=
  match s.claimHome c (s.ownerOf c i).1 q with
  | none => s
  | some h =>
    let (n, s) := s.nextSeq (16 * c + i) h
    if h < 4 then s.keepReply h (16 * c + i) n [k] else s

/-- A slot claimed once for an image that has been read, and the packet written when the queue has room; until then the claim and the
image stay with the access. -/
def State.claimSlot (s : State) (c i : Nat) (a : Acc) (claim : Option Nat) (img : Nat) : State :=
  let (ten, lid) := s.ownerOf c i
  match s.queueOf ten a.data with
  | none => s
  | some (base, log2, _, w, r) =>
    match s.agentErr ten .write w 8 <|> s.agentErr ten .read r 8 with
    | some e => s.spoilLaunch c i a e
    | none =>
      let s := (s.agentTouch (some 0) ten lid w 8).agentTouch (some 0) ten lid r 8
      match s.agentLoad ten w 8, s.agentLoad ten r 8 with
      | some wi, some ri =>
        let (k, s) := match claim with
          | none => (wi, (s.agentStore (some 0) ten lid w 8 ((wi + 1) % 2 ^ 64)).claimReply c i a.data wi)
          | some k => (k, s)
        let slot := base + 64 * (k % 2 ^ log2)
        if k - ri < 2 ^ log2 && !s.agentWaits ten .write slot 64 then match s.agentErr ten .write slot 64 with
          | some e => s.spoilLaunch c i a e
          | none => s.appendPacket c i a ten lid img k base log2
        else s.modSeat c i (fun t => t.modAcc a.id (fun x => { x with data2 := 1 + k + img * 2 ^ 65 }))
      | _, _ => s

/-- LAUNCH's access performing (R202): the image is read before a slot is claimed, and both once. -/
def State.performLaunch (s : State) (c i : Nat) (a : Acc) : State :=
  let (ten, _) := s.ownerOf c i
  if a.data2 ≠ 0 then s.claimSlot c i a (some (a.data2 % 2 ^ 65 - 1)) (a.data2 / 2 ^ 65)
  else match s.homeAcc none ten a a.parts with
    | .ok => (s.fillParts a.parts).claimSlot c i a none (s.readParts a.n 1 a.parts)
    | .lost m => (s.loseAccess c i m 1 a).claimSlot c i a none (2 ^ 512 - 1)
    | h => s.refuseAcc c i a h

/-! ## Timelines (R302, R303) -/

/-- A core of the same die named by a SEATID image (R302). -/
def otherCore (c v : Nat) : Nat := 128 * dieOf c + 8 * field v 12 4 + field v 8 3

/-- The core whose timeline field c names. -/
def State.lineCore (s : State) (u : Issue) (c : R11) : Nat :=
  if c.toNat < 1024 then u.core else otherCore u.core (s.rd u .e (c.toNat % 32))

/-- TLRD: a word of a timeline (R303). -/
def tlrdForm (s : State) (g : Guard) (d b c : R11) (k : TLine → Nat) : Host.Outcome State Fault Refusal :=
  simple s g (fun u => s.resultVar u 9 2 .e d.toNat (u.eval.getD (k (s.eline (s.who u).1 (s.lineCore u c) b.toNat))))

/-! ## Fences (R200) -/

/-- What a FENCE at a scope waits for (R200): accesses of earlier bundles. A load that an .REL does not wait for still performs before any
later write of the strand (R231). -/
def State.fencePre (s : State) (u : Issue) (sc : Scope) (k : FenceKind) : Pre :=
  let as_ := (s.seat u.core u.seat).accs.filter (fun a => a.seq != u.seq)
  let acq := as_.any (fun a => a.kind.returns)
  let rel := as_.any (fun a => a.kind.writes && !a.performedAt (sc == .sys))
  if (match k with
    | .acq => acq
    | .rel => rel
    | .ar => acq || rel) then .hold else .ok

/-- Whether a fence releases. -/
def fenceReleases : FenceKind → Bool
  | .acq => false | .rel => true | .ar => true

/-! ## Meanings -/

/-- SEMSIG (R198): semaphore a, increment in the immediate. -/
def execSemsig (g : Guard) (ret : Bool) (d a : R11) (imm : Imm) (s : State) : Host.Outcome State Fault Refusal :=
  simple s g (fun u => s.signal u ⟨a.toNat, imm.value.toNat, u.seq, 9, false,
    if ret then some (s.dst u .e d.toNat) else none, u.pc⟩)

/-- SEMWAIT (R199). -/
def execSemwait (g : Guard) (a : R11) (imm : Imm) (s : State) : Host.Outcome State Fault Refusal :=
  simple s g (fun u => s.await u (.sem a.toNat imm.value.toNat))

/-- FENCE (R200, R236). -/
def execFence (g : Guard) (sc : Scope) (k : FenceKind) (s : State) : Host.Outcome State Fault Refusal :=
  guarded s g (fun u => s.fencePre u sc k) (fun u s' => if fenceReleases k then s'.releaseSeat u.core u.seat else s')

/-- PHASE (R201). -/
def execPhase (g : Guard) (d : R11) (s : State) : Host.Outcome State Fault Refusal :=
  simple s g (fun u => s.await u (.phase d.toNat ((s.seat u.core u.seat).phase + 1) false))

/-- LAUNCH (R202). -/
def execLaunch (g : Guard) (d a b : R11) (s : State) : Host.Outcome State Fault Refusal :=
  guarded s g (fun u => s.launchPre u (s.rd u .e a.toNat) b.toNat) (fun u s' =>
    s'.pushGlobal u { blankAcc 9 .launch false (s.rd u .e a.toNat) 64 with
      data := b.toNat, dst := some (s.dst u .e d.toNat), rel := true, sys := false } 0)

/-- CWAIT (R302). -/
def execCwait (g : Guard) (a b c : R11) (s : State) : Host.Outcome State Fault Refusal :=
  simple s g (fun u =>
    let k := s.lineCore u c
    s.await u (.tl b.toNat (BitVec.ofNat 64 (s.rd u .e a.toNat)) (if c.toNat < 1024 then none else some (clusterOf k, k % 8))))

/-- TLRD (R303). -/
def execTlrd (g : Guard) (d b c : R11) (s : State) : Host.Outcome State Fault Refusal :=
  tlrdForm s g d b c (fun l => l.value % 2 ^ 64)

/-- TLRD.ERR (R303). -/
def execTlrdErr (g : Guard) (d b c : R11) (s : State) : Host.Outcome State Fault Refusal :=
  tlrdForm s g d b c (fun l => l.err.toNat)

/-- TLRD.ERRC (R303, R296): the own core's error word is read and cleared in one step, for a held bundle when its effects apply (log 106). -/
def execTlrdErrc (g : Guard) (d b _ : R11) (s : State) : Host.Outcome State Fault Refusal :=
  simple s g (fun u =>
    let (ten, _, _) := s.who u
    let l := s.eline ten u.core b.toNat
    (s.setEline ten u.core b.toNat { l with err := 0 }).resultVar u 9 2 .e d.toNat l.err.toNat)

/-- SEM_WAIT_COMPLETE (R191). -/
def execSemWaitComplete (c n : Nat) (s : State) : Host.Outcome State Fault Refusal := .next (s.semComplete c n)

/-- PHASE_RELEASE (R201): arrivals that can be made are made, and the group's phase is released once all are there. A phase at DOM 5
is released by the pod collective (R380). -/
def execPhaseRelease (ten lid g : Nat) (s : State) : Host.Outcome State Fault Refusal :=
  let s := s.eachSeat State.arrivePhase
  match s.launch ten lid with
  | none => .next s
  | some l => .next (if l.dom = 5 then s else s.releaseGroup ten lid g false)

end Sys2Proof.Machine
end

