-- ==== Sys2Proof/Machine/Boards.lean ====
section
/-! DEFINITION. Sinter boards (R251 to R263) and sideband barriers (R366 to R369). -/

namespace Sys2Proof.Machine

open Sys2Proof

/-! ## The board unit (R253 to R258) -/

/-- The view of a board's current level: bit j for a posted slot j (R255). -/
def Board.view (b : Board) : Nat := (b.slots.map (fun p => 2 ^ p.1)).sum

/-- Whether a slot is posted. -/
def Board.posted (b : Board) (k : Nat) : Bool := (tfind b.slots k).isSome

/-- A value posted to a slot (R255): a first post joins the post order, a re-post replaces the value. -/
def Board.post (b : Board) (k : Nat) (v : Word) : Board :=
  { b with slots := tput b.slots k v, order := if b.posted k then b.order else b.order ++ [k] }

/-- A level advanced: every slot is cleared (R258). -/
def Board.advance (b : Board) : Board := { b with level := b.level + 1, slots := [], order := [] }

/-- A board's reply: a reason of R262, 0 for success, the values returned, the participant count where it is reported, and
whether a post or an advance took effect. -/
structure BoardReply where
  reason : Nat
  vals : List Nat
  parts : Nat
  acted : Bool
deriving DecidableEq, Repr

/-- A request refused. -/
def refuseBoard (reason parts : Nat) : BoardReply := ⟨reason, [], parts, false⟩

/-- What a board does with a request of a tenancy (R255 to R258): kind 0 BPOST, 1 BVIEW, 2 BREAD, 3 BADV; explicit says that the
level of the handle counts (R256). Of several reasons HANDLE comes first, then TENANCY, then PART (log 137). -/
def Board.apply (b : Board) (ten : Nat) (explicit : Bool) (kind : Nat) (handle part value : Word) : Board × BoardReply :=
  if !b.en then (b, refuseBoard 2 0)
  else if b.ten ≠ ten then (b, refuseBoard 3 b.parts)
  else if (kind = 0 || kind = 2) && b.parts ≤ part.toNat then (b, refuseBoard 1 b.parts)
  else if kind = 0 then
    if explicit && handle.setWidth 32 != b.level then (b, ⟨0, [2 ^ 64 - 1, 0], b.parts, false⟩)
    else
      let b := b.post part.toNat value
      (b, ⟨0, [b.order.length, b.view], b.parts, true⟩)
  else if kind = 1 then (b, ⟨0, [b.level.toNat * 2 ^ 32 + b.order.length, b.view], b.parts, false⟩)
  else if kind = 2 then
    let k := part.toNat
    (b, ⟨0, [((tfind b.slots k).getD 0).toNat, b.level.toNat + b2n (b.posted k) * 2 ^ 32], b.parts, false⟩)
  else if value.setWidth 32 == b.level then (b.advance, ⟨0, [b.level.toNat], b.parts, true⟩)
  else (b, ⟨0, [b.level.toNat], b.parts, false⟩)

/-- The fields of a handle (R252): whether it names a peer, the module, the die, the board. -/
def handleFields (h : Word) : Bool × Nat × Nat × Nat :=
  (bitAt h.toNat 56, field h.toNat 50 6, field h.toNat 48 2, field h.toNat 40 8)

/-- Whether a handle has a reserved field set, or names a module without naming a peer (R262). -/
def badHandle (h : Word) : Bool :=
  field h.toNat 57 7 != 0 || field h.toNat 32 8 != 0 || (!bitAt h.toNat 56 && field h.toNat 50 6 != 0)

/-- A request applied to a board of this package. -/
def State.boardAt (s : State) (d b ten : Nat) (explicit : Bool) (kind : Nat) (handle part value : Word) : State × BoardReply :=
  let (b', r) := (tget (s.die d).boards {} b).apply ten explicit kind handle part value
  (s.modDie d (fun x => { x with boards := tput x.boards b b' }), r)

/-- Some posts of other participants to a board: slots and values are free. -/
def State.strangers (s : State) (b : Board) : Nat → Board × State
  | 0 => (b, s)
  | n + 1 =>
    let (k, s) := s.takeFree
    let (v, s) := s.takeFree
    s.strangers (b.post (k % b.parts) (BitVec.ofNat 64 v)) n

/-- A peer's board as a request finds it (log 9): since this package last reached it nothing has happened there, or its level has
changed, or it has been configured anew; and others may have posted. -/
def State.drift (s : State) (b : Board) : Board × State :=
  let (v, s) := s.takeFree
  let (w, s) := s.takeFree
  let (n, s) := s.takeFree
  let moved : Board := { b with level := BitVec.ofNat 32 w, slots := [], order := [] }
  let b := if v % 3 = 0 then b else if v % 3 = 1 then moved
    else { moved with en := bitAt v 2, fab := bitAt v 3, ten := field v 4 8 % 17, parts := field v 12 11 + 1 }
  s.strangers b (n % 2049)

/-- A request applied to a board of a fabric peer (R254, R255 to R260, R377): the peer refuses it under a pod key that it does not bind, for
a board without a grant, and for one of another tenancy of its own. -/
def State.peerBoard (s : State) (m d b ten : Nat) (explicit : Bool) (kind : Nat) (handle part value : Word) : State × BoardReply :=
  let k := 1024 * m + 256 * d + b
  let (bd, s) := s.drift (tget s.pkg.peerBoards {} k)
  let keep (s : State) (bd : Board) : State := { s with pkg := { s.pkg with peerBoards := tput s.pkg.peerBoards k bd } }
  match s.peerTen ten m with
  | none => (keep s bd, refuseBoard 4 0)
  | some t =>
    if !bd.fab || bd.ten ≠ t then (keep s bd, refuseBoard 4 0)
    else
      let (bd, r) := bd.apply t explicit kind handle part value
      (keep s bd, r)

/-- The home of a board request that leaves its die (R249, R261): a die, or 64 and a peer's module number. -/
def boardTarget (c : Nat) (handle : Word) : Option Nat :=
  let (rmt, m, d, _) := handleFields handle
  if badHandle handle then none else if rmt then some (64 + m) else if d = dieOf c then none else some d

/-- What stands against a board request's issue: a 65th request to one home waits (R249). -/
def State.boardPre (s : State) (u : Issue) (handle : Word) : Pre :=
  match boardTarget u.core handle with
  | none => .ok
  | some h => if 64 ≤ s.unanswered u.core u.seat h then .hold else .ok

/-- The least time from a board request's issue to its reply, and where its home is (R254, R362). -/
def boardLat (c : Nat) (handle : Word) : Nat :=
  let (rmt, _, d, _) := handleFields handle
  if rmt then 1
  else
    let k := dieDist (dieOf c) d
    if k = 0 then 30 else if k = 1 then 90 else 106

/-- Whether a board request's home answers (R263, R365): a halted die or a link being retrained does not yet; a module
never admitted counts as lost (log 138). -/
def State.boardHome (s : State) (handle : Word) : Home :=
  let (rmt, m, d, _) := handleFields handle
  if badHandle handle then .ok
  else if rmt then
    if !bitAt (tget s.pkg.route 0 m).toNat 63 then .lost m else if s.peerHeld m then .silent else .ok
  else if (s.die d).halted.isSome then .silent else .ok

/-- The answer of a board request noted on the held bundle: a reason of R262, 0 for success, and the values. -/
def State.answerBoard (s : State) (c i : Nat) (reason : Nat) (vals : List Nat) : State :=
  s.modSeat c i (fun t => { t with held := match t.held with
    | none => none
    | some h => some { h with answer := some (reason, vals) } })

/-- A board request on its way: its timeout begins, and it is numbered if it leaves its die (R249, R261, R364). -/
def State.sendBoard (s : State) (c i : Nat) (h : Held) (handle : Word) : Held × State :=
  if h.sent.isSome then (h, s)
  else
    let put (s : State) (h : Held) : Held × State := (h, s.modSeat c i (fun t => { t with held := some h }))
    match boardTarget c handle with
    | none => put s { h with sent := some s.tbase }
    | some k =>
      let (n, s) := s.nextSeq (16 * c + i) k
      put s { h with sent := some s.tbase, home := some (k, n, s.tbase) }

/-- A seat's board request serialised (R253): the answer is noted on the held bundle, a post or advance that took effect releases
the strand's tracking entries (R236, R259), and a request that left its die has an entry in the replay cache (R261). -/
def State.serialise (s : State) (c i : Nat) (t : Seat) (h : Held) (kind : Nat) (handle part value : Word) : State :=
  let (rmt, m, d, b) := handleFields handle
  let (ten, _) := s.ownerOf c i
  let (s, r) := if badHandle handle then (s, refuseBoard 2 0)
    else if rmt then s.peerBoard m d b ten (t.expert 6) kind handle part value
    else s.boardAt d b ten (t.expert 6) kind handle part value
  let s := if r.acted then s.releaseSeat c i else s
  let p := if r.reason = 0 then r.vals else [r.parts]
  let s := match h.home with
    | none => s
    | some (k, n, _) => if k < 4 then s.keepReply k (16 * c + i) n (r.reason :: p) else s
  s.answerBoard c i r.reason p

/-- A held bundle that fails (R239, R254): a precise trap at the bundle; its entry stays in the window. -/
def State.failHeld (s : State) (c i : Nat) (r : TrapRec) : State :=
  let t := s.seat c i
  let dly := s.delayOf c i
  (s.modSeat c i (fun t => { t with held := none })).takeTrap c i r t.pc dly (some t.pc)

/-- The signal with SP = 0 of a bundle: it covers the accesses of earlier bundles (R194). -/
def State.signalEarly (s : State) (u : Issue) : State :=
  match u.sig0 with
  | none => s
  | some (n, k) => s.signal u ⟨n, k, u.seq, 0, false, none, u.pc⟩

/-- A held bundle that completes: its signal with SP = 0 is given and its effects follow (R239, R254). -/
def State.resumeHeld (s : State) (c i : Nat) (u : Issue) : State :=
  { (s.modSeat c i (fun t => { t with held := none })).signalEarly u with iss := some { u with sig0 := none } }

/-! ## Board forms -/

/-- A value of a board's reply. -/
def replyVal (u : Issue) (k : Nat) : Nat := (u.reply.getD []).getD k 0

/-- A board form's effect once the reply has come (R254). -/
def boardForm (s : State) (g : Guard) (k : Issue → State) : Host.Outcome State Fault Refusal :=
  simple s g (fun u => if u.reply.isSome then k u else s)

/-- BPOST (R255). -/
def execBpost (g : Guard) (d _ _ _ : R11) (s : State) : Host.Outcome State Fault Refusal :=
  boardForm s g (fun u => (s.resultVar u 9 0 .e (d.toNat % 32) (replyVal u 0)).resultVar u 9 0 .vm (d.toNat / 256) (replyVal u 1))

/-- BVIEW (R257). -/
def execBview (g : Guard) (d _ : R11) (s : State) : Host.Outcome State Fault Refusal :=
  boardForm s g (fun u => (s.resultVar u 9 0 .e (d.toNat % 32) (replyVal u 0)).resultVar u 9 0 .vm (d.toNat / 256) (replyVal u 1))

/-- What stands against a BVIEW.WORD: the boards expert enable (R256). -/
def State.viewWordPre (s : State) (u : Issue) : Pre :=
  if (s.seat u.core u.seat).expert 6 then .ok else .trap (trapRec causePriv 0 0 0 0)

/-- BVIEW.WORD (R257, R256): local. -/
def execBviewWord (g : Guard) (d a b : R11) (s : State) : Host.Outcome State Fault Refusal :=
  guarded s g s.viewWordPre (fun u s' =>
    s'.result u 9 1 .e d.toNat (field (s.rd u .vm (a.toNat % 8)) (64 * (s.rd u .e b.toNat % 32)) 64))

/-- BREAD (R258); where d and c are one register the status word stays (log 142). -/
def execBread (g : Guard) (d _ _ c : R11) (s : State) : Host.Outcome State Fault Refusal :=
  boardForm s g (fun u => (s.resultVar u 9 0 .e d.toNat (replyVal u 0)).resultVar u 9 0 .e c.toNat (replyVal u 1))

/-- BADV (R258). -/
def execBadv (g : Guard) (d _ _ : R11) (s : State) : Host.Outcome State Fault Refusal :=
  boardForm s g (fun u => s.resultVar u 9 0 .e d.toNat (replyVal u 0))

/-- BOARD_SERIALISE (R253, R259): a post or an advance leaves only after the strand's earlier accesses have performed. -/
def execBoardSerialise (c i : Nat) (s : State) : Host.Outcome State Fault Refusal :=
  let t := s.seat c i
  match t.held with
  | none => .next s
  | some h =>
    match h.board, h.answer, h.check with
    | some (kind, handle, part, value), none, [] =>
      if (s.die (dieOf c)).halted.isSome || ((kind = 0 || kind = 3) && !t.accs.all (fun a => a.performedAt (handleFields handle).1)) then .next s
      else
        let (h, s) := s.sendBoard c i h handle
        match s.boardHome handle with
        | .lost m => .next (s.answerBoard c i 5 [m])
        | .silent => .next s
        | _ => .next (s.serialise c i t h kind handle part value)
    | _, _, _ => .next s

/-- A held board request sent again: a home that has applied it answers from its replay cache, another applies it (R250, R261). -/
def State.resendBoard (s : State) (c i : Nat) : State :=
  match (s.seat c i).held with
  | none => s
  | some h => match h.board, h.answer, h.home with
    | some (kind, handle, part, value), none, some (k, n, tick) =>
      if s.tbase < tick + 2000 then s
      else
        let h := { h with home := some (k, n, s.tbase) }
        let s := s.modSeat c i (fun t => { t with held := some h })
        if s.boardHome handle != .ok then s
        else match s.keptReply k (16 * c + i) n with
          | some (r :: vals) => s.answerBoard c i r vals
          | _ => s.serialise c i (s.seat c i) h kind handle part value
    | _, _, _ => s

/-- An atomic sent again: a home that has applied it answers from its replay cache, another applies it (R250). -/
def State.resendAtom (s : State) (c i : Nat) (a : Acc) : State :=
  match a.kind, a.home with
  | .atom op, some (h, q, tick) =>
    if a.sent.isNone || s.tbase < tick + 2000 then s
    else
      let a := { a with home := some (h, q, s.tbase) }
      let s := s.modSeat c i (fun t => t.modAcc a.id (fun _ => a))
      if a.result.isSome || !(s.seat c i).mayAct a || a.due == never then s
      else match (if h < 4 then s.keptReply h (16 * c + i) q else none) with
        | some r => s.modSeat c i (fun t => t.modAcc a.id (fun x => { x with result := r.head? }))
        | none => s.applyAtom c i a op
  | _, _ => s

/-- REQUEST_RESEND (R250, R261): two microseconds without a reply, the request is sent again with REPLAY = 1; where no access has the id,
the seat's board request. -/
def execRequestResend (c i id : Nat) (s : State) : Host.Outcome State Fault Refusal :=
  if (s.die (dieOf c)).halted.isSome then .next s
  else match (s.seat c i).findAcc id with
    | some a => .next (s.resendAtom c i a)
    | none => .next (s.resendBoard c i)

/-- BOARD_REPLY (R254, R262, R263). -/
def execBoardReply (c i : Nat) (s : State) : Host.Outcome State Fault Refusal :=
  match (s.seat c i).held with
  | none => .next s
  | some h =>
    match h.board, h.answer with
    | some (kind, handle, part, _), some (reason, vals) =>
      if (s.core c).now < h.due || (s.die (dieOf c)).halted.isSome || s.iss.isSome then .next s
      else
      let s := match boardTarget c handle with
        | none => s
        | some d => s.heard (dieOf c) d
      if reason = 0 then .next (s.resumeHeld c i { h.iss with reply := some vals, checked := true })
      else if reason = 5 then .next (s.failHeld c i (trapRec causeRemlost 3 handle.toNat 0 (vals.headD 0)))
      else .next (s.failHeld c i (trapRec causeBoard reason handle.toNat (if kind = 0 || kind = 2 then part.toNat else 0)
        (vals.headD 0)))
    | _, _ => .next s

/-! ## BRDCFG (R251) -/

/-- A write of BRDCFG that creates a board. -/
def State.boardCreate (s : State) (d b : Nat) (v : Word) : State :=
  if 16 < field v.toNat 48 8 then s
  else s.modDie d (fun x => { x with boards := tput x.boards b {
    en := true, fab := bitAt v.toNat 62, ten := field v.toNat 48 8, parts := field v.toNat 32 11 + 1 } })

/-- A write of BRDCFG under R251: create, free, or change the grant. -/
def State.boardConfig (s : State) (d b : Nat) (v : Word) : State :=
  let en := (tget (s.die d).boards {} b).en
  if !bitAt v.toNat 63 then s.modDie d (fun x => { x with boards := tput x.boards b {} })
  else if en then s.modDie d (fun x => { x with boards := tput x.boards b { tget x.boards {} b with fab := bitAt v.toNat 62 } })
  else s.boardCreate d b v

/-- BRDCFG as it reads (R251). -/
def Board.word (b : Board) : Nat :=
  b2n b.en * 2 ^ 63 + b2n b.fab * 2 ^ 62 + b.ten * 2 ^ 48 + (b.parts - 1) * 2 ^ 32 + b.level.toNat

/-- BRDCFG_CREATE (R251). -/
def execBrdcfgCreate (d b : Nat) (v : Word) (s : State) : Host.Outcome State Fault Refusal :=
  if (tget (s.die d).boards {} b).en || !bitAt v.toNat 63 then .next s else .next (s.boardConfig d b v)

/-- BRDCFG_FREE (R251). -/
def execBrdcfgFree (d b : Nat) (s : State) : Host.Outcome State Fault Refusal := .next (s.boardConfig d b 0)

/-- BRDCFG_GRANT (R251). -/
def execBrdcfgGrant (d b : Nat) (v : Word) (s : State) : Host.Outcome State Fault Refusal :=
  if (tget (s.die d).boards {} b).en && bitAt v.toNat 63 then .next (s.boardConfig d b v) else .next s

/-! ## Sideband barriers (R366 to R369) -/

/-- A barrier with the generations released by a tick: each is, 64 ticks after its last arrival (R367). -/
def Bar.by (b : Bar) (tick : Nat) : Bar :=
  { b with gen := (b.gen + (b.due.filter (fun t => decide (t ≤ tick))).length) % 2 ^ 32, due := b.due.filter (fun t => decide (tick < t)) }

/-- A barrier of the sideband tree, as it stands in the present tick. -/
def State.bar (s : State) (id : Nat) : Bar := (tget s.pkg.bars {} id).by s.tbase

def State.setBar (s : State) (id : Nat) (b : Bar) : State := { s with pkg := { s.pkg with bars := tput s.pkg.bars id b } }

/-- BARR's check at issue (R367). -/
def State.barrPre (s : State) (u : Issue) (id : Nat) : Pre :=
  if (s.bar id).en && (s.bar id).ten == (s.who u).1 then .ok else .trap (trapRec causePriv id 0 0 0)

/-- The generation an arrival counted now awaits (R367): one more than those closed. -/
def Bar.awaits (b : Bar) : Nat := (b.gen + b.due.length + 1) % 2 ^ 32

/-- An arrival counted at the root in a tick (R367). -/
def Bar.arrive (b : Bar) (tick : Nat) : Bar :=
  if b.arr = b.count then { b with arr := 0, due := b.due ++ [tick + 64] } else { b with arr := b.arr + 1 }

/-- Whether a barrier has passed a generation (R368). -/
def Bar.passed (b : Bar) (g : Nat) : Bool := (b.gen + 2 ^ 32 - g) % 2 ^ 32 < 2 ^ 31

/-- What a seat that waits on a barrier for a generation receives, once that has passed or the ID was reset since (R367, R368): resident,
GEN of the release tick, which is the generation it awaited; resumed after it, GEN as it stands. -/
def Bar.result (b : Bar) (g rst : Nat) (resumed : Bool) : Option Nat :=
  if b.rst ≠ rst then some (b.gen + 2 ^ 63) else if b.passed g then some (if resumed then b.gen else g) else none

/-- A seat that waits on a barrier released, if it is to be; one whose state is still to be restored sees that when it resumes. -/
def State.endBarr (s : State) (c i : Nat) (resumed : Bool) : State :=
  match (s.seat c i).wait with
  | some (.barr d id g rst true) => match (s.bar id).result g rst resumed with
    | none => s
    | some v => (s.deliverLast c i ⟨.e, d⟩ v).modSeat c i (fun t => { t with wait := none })
  | _ => s

/-- A resident seat that waits on a barrier released, if it is to be. -/
def State.takeBarr (s : State) (c i : Nat) : State := if (s.seat c i).restore then s else s.endBarr c i false

/-- A write of BARCFG (R366): the ID is reset and every seat still waiting on it is released with bit 63 set. -/
def State.barWrite (s : State) (id : Nat) (v : Word) : State :=
  let s := s.eachSeat State.takeBarr
  let b := s.bar id
  (s.setBar id { b with
    en := bitAt v.toNat 63, ten := field v.toNat 48 8, count := field v.toNat 32 12
    arr := 0, due := [], rst := (b.rst + 1) % 2 ^ 16 }).eachSeat State.takeBarr

/-- BARCFG as it reads (R366). -/
def Bar.word (b : Bar) : Nat := b2n b.en * 2 ^ 63 + b.ten * 2 ^ 48 + b.count * 2 ^ 32 + b.gen

/-- A seat's arrival at its barrier, once its earlier accesses have performed (R367); a strand of a halted die does not arrive (R369). -/
def State.arriveBarr (s : State) (c i : Nat) : State :=
  match (s.seat c i).wait with
  | some (.barr d id _ _ false) =>
    if (s.die (dieOf c)).halted.isNone && (s.seat c i).accs.all (fun a => a.performedAt false) then
      let b := s.bar id
      ((s.releaseSeat c i).modSeat c i (fun t => { t with wait := some (.barr d id b.awaits b.rst true) })).setBar id (b.arrive s.tbase)
    else s
  | _ => s

/-- BARR (R367). -/
def execBarr (g : Guard) (d a : R11) (s : State) : Host.Outcome State Fault Refusal :=
  guarded s g (fun u => s.barrPre u a.toNat) (fun u s' => s'.await u (.barr d.toNat a.toNat 0 0 false))

/-- BARRIER_ARRIVAL (R367). -/
def execBarrierArrival (c i : Nat) (s : State) : Host.Outcome State Fault Refusal := .next (s.arriveBarr c i)

/-- BARRIER_RELEASE (R367): in the tick 64 after the last arrival of a generation, GEN rises and every waiter is released; the event only
takes note of it. -/
def execBarrierRelease (id : Nat) (s : State) : Host.Outcome State Fault Refusal :=
  if (tfind s.pkg.bars id).isNone then .next s else .next ((s.setBar id (s.bar id)).eachSeat State.takeBarr)

/-- BARCFG_WRITE (R366). -/
def execBarcfgWrite (id : Nat) (v : Word) (s : State) : Host.Outcome State Fault Refusal := .next (s.barWrite id v)

end Sys2Proof.Machine
end

