-- ==== Sys2Proof/Machine/Checked.lean ====
section
/-! DEFINITION. The check of a bundle's accesses to CHECKED pages at their homes (R239). -/

namespace Sys2Proof.Machine

open Sys2Proof

/-- CHECKED_CHECK (R235, R239): the home checks the next access of a held bundle; a conflict is MEMRACE, and once every access has
passed the bundle's effects follow, unless it also waits for a board. The home's answer ends the requester's report of it as slow (R364). -/
def execCheckedCheck (c i : Nat) (s : State) : Host.Outcome State Fault Refusal :=
  match (s.seat c i).held, (s.seat c i).strand with
  | some h, some x =>
    match h.check with
    | [] => .next s
    | (va, pa, n, m) :: r =>
      if s.homeOne pa 0 = .silent || (s.die (dieOf c)).halted.isSome || s.iss.isSome then .next s
      else
        let s := s.heardFrom (dieOf c) pa
        match s.raceAt x.ten x.lid x.idx m pa n with
        | some q => .next (s.failHeld c i (memrace q m va))
        | none =>
          let s := s.noteAt x.ten x.lid x.idx m pa n
          let h := { h with check := r, sent := if r.isEmpty then none else h.sent, iss := { h.iss with passed := true } }
          if r.isEmpty && h.board.isNone then .next (s.resumeHeld c i { h.iss with checked := true })
          else .next (s.modSeat c i (fun t => { t with held := some h }))
  | _, _ => .next s

end Sys2Proof.Machine
end

