-- ==== Sys2Proof/Machine/Probes.lean ====
section
/-! DEFINITION. The probes of XHASH and XINS and the walks of XWALK performing (R322, R323), and the accesses of a bundle that act at
its issue, before a later syllable of it reads memory (R144, R227, R229). -/

namespace Sys2Proof.Machine

open Sys2Proof

/-! ## Hash tables (R322) -/

/-- The hash of a key. -/
def xhashOf (h k : Nat) : Nat := k * 0x9E3779B1 % 2 ^ 32 / 2 ^ (32 - h)

/-- The sentinel. -/
def sentinel : Nat := 0xFFFFFFFF

/-- The slot that the next step of some probes looks at; none where the lane has no probe to make. -/
def Probe.at (x : Probe) (base h keys vals : Nat) (insert : Bool) : Option Nat :=
  let k := field keys (32 * x.lane) 32
  if k = sentinel || (insert && field vals (32 * x.lane) 32 == sentinel) then none
  else some (base + 8 * ((xhashOf h k + x.slot) % 2 ^ h))

/-- The lane's result found. -/
def Probe.next (x : Probe) (r : Nat) : Probe := { lane := x.lane + 1, got := x.got ++ [r] }

/-- One step of some probes: a slot read, or, where it was seen empty, filled if it still is and looked at again if not (R322). -/
def State.probeStep (s : State) (base h keys vals : Nat) (insert : Bool) (x : Probe) : State × Probe :=
  match x.at base h keys vals insert with
  | none => (s, x.next sentinel)
  | some a =>
    let k := field keys (32 * x.lane) 32
    let v := field vals (32 * x.lane) 32
    let w := leRead s.mem a 8
    if x.seen then
      if w % 2 ^ 32 = sentinel then (s.store a 8 0 (v * 2 ^ 32 + k), x.next v) else (s, { x with seen := false })
    else if w % 2 ^ 32 = k then (s, x.next (w / 2 ^ 32))
    else if w % 2 ^ 32 = sentinel then (s, if insert then { x with seen := true } else x.next sentinel)
    else if x.slot = 7 then (s, x.next sentinel)
    else (s, { x with slot := x.slot + 1 })

/-- Up to n steps of the probes of a tenancy's access, as far as the homes of their slots serve them. -/
def State.probeSteps (ten base h keys vals : Nat) (insert : Bool) : Nat → State → Probe → State × Probe × Home
  | 0, s, x => (s, x, .ok)
  | n + 1, s, x =>
    if 64 ≤ x.lane then (s, x, .ok)
    else match (match x.at base h keys vals insert with
      | none => Home.ok
      | some a => s.homeTen none ten a 0) with
      | .ok =>
        let (s, x) := s.probeStep base h keys vals insert x
        State.probeSteps ten base h keys vals insert n s x
      | z => (s, x, z)

/-- More steps than the probes of an access need while nothing comes between. -/
def allSteps : Nat := 1024

/-- XHASH's or XINS's probes performing: up to n steps of them (R322). -/
def State.performHash (s : State) (c i : Nat) (a : Acc) (insert : Bool) (n : Nat) : State :=
  let (s, x, z) := State.probeSteps (s.ownerOf c i).1 (a.parts.headD 0) (Nat.log2 (a.n / 8)) a.data a.data2 insert n s a.probe
  if 64 ≤ x.lane then s.returnData c i a (packList 32 x.got)
  else (s.modSeat c i (fun t => t.modAcc a.id (fun y => { y with probe := x }))).refuseAcc c i a z

/-- How many steps of the probes of an access act in one event: at least one, as a free value says (log 109). -/
def State.someSteps (s : State) : Nat × State :=
  let (v, s) := s.takeFree
  (v % allSteps + 1, s)

/-! ## Coordinate walks (R323) -/

/-- A read that a walk makes does not go through: outside the window at an offset, or at a home that does not serve it. -/
inductive WalkStop where
  | outside (off : Nat)
  | home (h : Home)
deriving DecidableEq, Repr

/-- A word of the window, 4 or 8 bytes. -/
def State.walkRd (s : State) (base win off n : Nat) : Except WalkStop Nat :=
  if win < off + n then .error (.outside off)
  else match s.homeOne (base + off) 0 with
    | .ok => .ok (leRead s.mem (base + off) n)
    | h => .error (.home h)

/-- The row that entry p belongs to (CSR): r advanced while the next row begins at or before p; k is the most rows to pass. -/
def State.walkRow (s : State) (base win rows count p : Nat) : Nat → Nat → Except WalkStop Nat
  | 0, r => .ok r
  | k + 1, r =>
    if count ≤ r then .ok r
    else match s.walkRd base win (rows + 4 * (r + 1)) 4 with
      | .error z => .error z
      | .ok x => if x ≤ p then s.walkRow base win rows count p k (r + 1) else .ok r

/-- One lane of a walk: row, column, and the cursor after it. -/
def State.walkLane (s : State) (base win : Nat) (csr : Bool) (desc p r : Nat) : Except WalkStop (Nat × Nat × Nat × Nat) :=
  let l0 := field desc 0 32
  let l2 := field desc 64 32
  let count := field desc 128 32
  if csr then
    match s.walkRow base win l0 count p (count - r) r with
    | .error z => .error z
    | .ok r =>
      if count ≤ r then .ok (sentinel, sentinel, p, r)
      else match s.walkRd base win (l2 + 4 * p) 4 with
        | .error z => .error z
        | .ok x => .ok (r, x, (p + 1) % 2 ^ 32, r)
  else if count ≤ p then .ok (sentinel, sentinel, p, r)
  else match s.walkRd base win (l0 + 8 * p) 8 with
    | .error z => .error z
    | .ok x => .ok (x % 2 ^ 32, x / 2 ^ 32, (p + 1) % 2 ^ 32, r)

/-- n lanes of a walk: rows and columns, and the cursor after them. -/
def State.walkLanes (s : State) (base win : Nat) (csr : Bool) (desc : Nat) : Nat → Nat → Nat → Except WalkStop (List (Nat × Nat) × Nat × Nat)
  | 0, p, r => .ok ([], p, r)
  | n + 1, p, r => match s.walkLane base win csr desc p r with
    | .error z => .error z
    | .ok (x, y, p, r) => match s.walkLanes base win csr desc n p r with
      | .error z => .error z
      | .ok (xs, p, r) => .ok ((x, y) :: xs, p, r)

/-- The next register of a file. -/
def Reg.next (g : Reg) : Reg := { g with n := g.n + 1 }

/-- XWALK performing (R323): three registers written, or a deferred XLATE and none. -/
def State.performWalk (s : State) (c i : Nat) (a : Acc) (csr : Bool) : State :=
  let base := a.parts.headD 0
  match s.walkLanes base a.n csr a.data 64 (field a.data2 0 32) (field a.data2 32 32) with
  | .error (.outside off) => (s.deferTrap c i ⟨causeXlate, 1, off, a.bundle.toNat, 0, true, a.seq⟩).endAcc c i a
  | .error (.home h) => s.refuseAcc c i a h
  | .ok (xs, p, r) =>
    let old := match a.dst2 with
      | none => 0
      | some g => (s.seat c i).settled (s.core c).now g
    let s := s.deliverBy c i a.due a.seq a.pos a.dst (packList 32 (xs.map Prod.fst))
    let s := s.deliverBy c i a.due a.seq a.pos (a.dst.map Reg.next) (packList 32 (xs.map Prod.snd))
    (s.deliverBy c i a.due a.seq a.pos a.dst2 (setField old 0 64 (p + r * 2 ^ 32))).endAcc c i a

/-! ## Accesses that act at issue (R144, R227, R229) -/

/-- Whether an access must act before a syllable of a bundle reads some bytes at issue: one that shares a byte with them, or an acquire of
that bundle (R145, R227, R229). -/
def Acc.direct (b : Acc) (seq : Nat) (parts : List (Nat × Nat)) : Bool :=
  (b.acq && b.seq == seq) || b.parts.any (fun p => parts.any (fun q => overlaps p b.n q.1 q.2))

/-- The accesses of a list in program order that have to act so that some of them can. -/
def firstOf (need : Acc → Bool) : List Acc → List Acc
  | [] => []
  | a :: r =>
    let f := firstOf need r
    if !a.performed && (need a || f.any a.holds) then a :: f else f

/-- Whether an access may act before a bundle's syllable reads memory: as any may, with an applied acquire of that bundle taken as returned
(log 110). -/
def Seat.mayActIn (t : Seat) (seq : Nat) (a : Acc) : Bool :=
  a.pas.isSome && !a.performed && a.due != never
    && t.accs.all (fun b => !b.before a || !b.holds a || (b.seq == seq && b.performed))

/-- An access acting at a bundle's issue; its data still returns no earlier than its latency says. -/
def State.performFirst (s : State) (c i : Nat) (a : Acc) : State :=
  match a.kind with
  | .load sx => s.performLoad c i a sx a.lanesLeft
  | .vload => s.performLoad c i a false a.lanesLeft
  | .xldp => s.performLoad c i a false a.lanesLeft
  | .atom op => s.applyAtom c i a op
  | .xhash => s.performHash c i a false allSteps
  | .xins => s.performHash c i a true allSteps
  | .xwalk csr => s.performWalk c i a csr
  | .store => s.performStore c i a a.lanesLeft
  | .vstore => s.performStore c i a a.lanesLeft
  | .sqld => s.fixScales c i a
  | .launch => s

/-- The accesses of a bundle given their translations, once their walks have been made. -/
def State.knowOwn (s : State) (u : Issue) : State :=
  let (ten, lid, _) := s.who u
  ((s.seat u.core u.seat).accs.filter (fun a =>
    a.seq == u.seq && a.pas.isNone)).foldl (fun s a =>
    match s.foresee u.core ten lid a.va a.kind.need with
    | .ok pa key cons => s.translated u.core u.seat a pa key cons
    | .fail _ => s
    | .absent => s
    | .miss => s) s

/-- The accesses of a strand that act before a syllable of a bundle reads some bytes at issue, acting; and whether they all could
(R145, R229). -/
def State.early (s : State) (u : Issue) (parts : List (Nat × Nat)) : State × Bool :=
  let s := s.knowOwn u
  (firstOf (fun a => a.direct u.seq parts) (s.seat u.core u.seat).accs).foldl (fun (p : State × Bool) a =>
    if p.2 && (p.1.seat u.core u.seat).mayActIn u.seq a && p.1.homeAcc none (s.who u).1 a a.parts != .silent then
      (p.1.performFirst u.core u.seat a, true)
    else (p.1, false)) (s, true)

/-- What an access of a bundle without a translation asks for before a read at issue: its walk (R218), or, where its page is not present, that
the strand suspends at the bundle (R107). -/
def State.ownAbsent (s : State) (u : Issue) : Option Pre :=
  let (ten, lid, _) := s.who u
  let ask := (s.seat u.core u.seat).ask
  firstSome (fun a =>
    if a.seq == u.seq && a.pas.isNone && s.unwalked u.core ten lid ask a.va a.kind.need then some (Pre.walk a.va a.kind.need)
    else if a.seq == u.seq && a.pas.isNone && s.foresee u.core ten lid a.va a.kind.need == .absent then
      some (Pre.page a.va (needKind a.kind.need)) else none) (s.seat u.core u.seat).accs

/-- Whether an access that has to act at issue cannot do so yet. -/
def State.ownWaits (s : State) (u : Issue) (parts : List (Nat × Nat)) : Bool :=
  !(s.early u parts).2

end Sys2Proof.Machine
end

