-- ==== Sys2Proof/Machine/Streams.lean ====
section
/-! DEFINITION. Streams, rings and pops (R274 to R281), and the reads of memory that a bundle makes at its issue (R276). -/

namespace Sys2Proof.Machine

open Sys2Proof

/-! ## Reads that a bundle makes at issue (R144 to R146, R276) -/

/-- Window bytes as physical ones. -/
def State.winParts (s : State) (u : Issue) (parts : List (Int × Nat)) : List (Nat × Nat) :=
  parts.map (fun p => (s.winPa u p.1.toNat, p.2))

/-- What stands against reads of some window bytes at issue: they wait for an acquire of an earlier bundle, for an access whose address is not
known, and for those that must act first (R145, R227, R229). -/
def State.winPre (s : State) (u : Issue) (parts : List (Int × Nat)) : Pre :=
  if (s.seat u.core u.seat).accs.any (fun b => b.seq != u.seq && (b.acq || b.pas.isNone)) then .hold
  else match s.ownAbsent u with
    | some p => p
    | none => if s.ownWaits u (s.winParts u parts) then .hold else .ok

/-- The accesses of the strand that must act before reads of some window bytes, acting. -/
def State.actFirst (s : State) (u : Issue) (parts : List (Int × Nat)) : State := (s.early u (s.winParts u parts)).1

/-- Bytes of the strand's window on its own die, once the accesses that must act before they are read have acted: offset and count. -/
def State.winBytes (s : State) (u : Issue) (off n : Nat) : Nat := leRead (s.actFirst u [((off : Int), n)]).mem (s.winPa u off) n

/-- The first poisoned unit that some bytes of a die's pool share. -/
def State.poisonIn (s : State) (pa n : Nat) : Option Nat := s.poison.find? (fun p => overlaps (64 * p) 64 pa n)

/-- The first poisoned unit among some window bytes (R338). -/
def State.poisonedRead (s : State) (u : Issue) (ps : List (Int × Nat)) : Option Nat :=
  firstSome (fun p => s.poisonIn (s.winPa u p.1.toNat) p.2) ps

/-! ## Streams (R274, R275) -/

def Matrix.stream (m : Matrix) (n : Nat) : Stream := tget m.streams {} n
def Matrix.setStream (m : Matrix) (n : Nat) (x : Stream) : Matrix := { m with streams := tput m.streams n x }
def Matrix.ring (m : Matrix) (n : Nat) : Ring := tget m.rings {} n
def Matrix.setRing (m : Matrix) (n : Nat) (r : Ring) : Matrix := { m with rings := tput m.rings n r }

def Stream.word (x : Stream) (k : Nat) : Nat := (tget x.w 0 k).toNat
def Stream.tapWord (x : Stream) (k : Nat) : Nat := (tget x.tap 0 k).toNat

/-- The ring a stream is bound to. -/
def Stream.bound (x : Stream) : Option Nat := if bitAt (x.word 0) 63 then some (field (x.word 0) 60 3) else none

/-- The format MPUSH pops. -/
def Stream.fmt (x : Stream) : Nat := field (x.word 0) 57 3

/-- The relative offset of the next pop (R275). -/
def Stream.rel (x : Stream) : Int :=
  ((List.range 4).map (fun l => ((tget x.i 0 (l + 1) : Nat) : Int) * sextN 32 (field (x.word (l + 1)) 32 32))).sum
    + ((List.range 4).map (fun t => sextN 32 (field (x.tapWord t) 0 32)
        + ((tget x.k 0 t : Nat) : Int) * sextN 24 (field (x.tapWord t) 40 24))).sum

/-- A row of counters stepped, each with the value it wraps after: the new row, and whether all wrapped. -/
def stepCounters : List (Nat × Nat) → List Nat × Bool
  | [] => ([], true)
  | (v, top) :: r =>
    if v < top then ((v + 1) :: r.map Prod.fst, false)
    else
      let (t, w) := stepCounters r
      (0 :: t, w)

/-- A list as a table from a key on, zeros left out. -/
def tabFrom (k : Nat) : List Nat → Tab Nat
  | [] => []
  | x :: r => if x = 0 then tabFrom (k + 1) r else (k, x) :: tabFrom (k + 1) r

/-- A stream after one pop, and whether every index and step wrapped (R275). -/
def Stream.advance (x : Stream) : Stream × Bool :=
  let rows := (List.range 4).map (fun l => (tget x.i 0 (l + 1), field (x.word (l + 1)) 0 16))
    ++ (List.range 4).map (fun t => (tget x.k 0 t, field (x.tapWord t) 32 8))
  let (vs, wrapped) := stepCounters rows
  ({ x with i := tabFrom 1 (vs.take 4), k := tabFrom 0 (vs.drop 4), sc := (x.sc + 1) % (field (x.word 5) 0 16 + 1) }, wrapped)

/-! ## Rings (R278, R280) -/

def Ring.size (r : Ring) : Nat := field r.geom.toNat 40 8 + 1
def Ring.tile (r : Ring) : Nat := 256 * (field r.geom.toNat 28 12 + 1)
def Ring.base (r : Ring) : Nat := field r.geom.toNat 0 28

/-- STATE as it reads. -/
def Ring.word (r : Ring) : Nat := r.head + r.tail * 2 ^ 8 + r.fill * 2 ^ 16 + r.free * 2 ^ 32

/-- The head tile retired. -/
def Ring.retire (r : Ring) : Ring := { r with head := (r.head + 1) % r.size, fill := r.fill - 1, free := r.free + 1 }

/-- The tail tile reserved for a copy (channel, number); none while no tile is free. -/
def Ring.reserve (r : Ring) (cmd : Nat × Nat) : Option (Nat × Ring) :=
  if r.free = 0 then none
  else some (r.base + r.tail * r.tile,
    { r with tail := (r.tail + 1) % r.size, free := r.free - 1, resv := r.resv ++ [(cmd, false)] })

/-- A reserved tile's copy has finished (R280 step 2). -/
def Ring.filled (r : Ring) (cmd : Nat × Nat) : Ring :=
  { r with resv := r.resv.map (fun p => if p.1 = cmd then (p.1, true) else p) }

/-- Reserved tiles counted in reservation order. -/
def Ring.count (r : Ring) : List ((Nat × Nat) × Bool) → Ring
  | (_, true) :: t => Ring.count { r with fill := r.fill + 1, resv := t } t
  | _ => r

/-! ## Pops (R275, R280) -/

/-- Where a stream's next pop of n bytes reads, and whether it is within its limit: the tile, and the window (R275). -/
def Matrix.popAt (m : Matrix) (win st n : Nat) : Int × Bool :=
  let x := m.stream st
  let rel := x.rel
  match x.bound with
  | none =>
    let off := (field (x.word 0) 0 28 : Int) + rel
    (off, decide (0 ≤ off) && decide (off + n ≤ win))
  | some g =>
    let r := m.ring g
    let off := (r.base + r.head * r.tile : Nat) + rel
    (off, decide (0 ≤ rel) && decide (rel + n ≤ r.tile) && decide (off + n ≤ win))

/-- Whether a stream is bound to an empty ring, which blocks its seat. -/
def Matrix.starved (m : Matrix) (st : Nat) : Bool :=
  match (m.stream st).bound with
  | none => false
  | some g => (m.ring g).fill == 0

/-- The matrix state after a pop of a stream, with the retirement it makes. -/
def Matrix.popped (m : Matrix) (st : Nat) : Matrix :=
  let (x, wrapped) := (m.stream st).advance
  let m := m.setStream st x
  match x.bound with
  | none => m
  | some g => if wrapped then m.setRing g (m.ring g).retire else m

/-- The trap of a pop outside its limit. -/
def popTrap (off : Int) : TrapRec := trapRec causeXlate 1 (off64 off) 0 0

/-- A list of pops (stream and bytes) looked over, made one after the other: whether one meets an empty ring, the offsets and bytes
they read, and the first trap. -/
def State.scanPops (s : State) (u : Issue) (pops : List (Nat × Nat)) : Bool × List (Int × Nat) × Option TrapRec :=
  let win := s.winSize u
  (pops.foldl (fun (a : Matrix × Bool × List (Int × Nat) × Option TrapRec) p =>
    let (m, dry, parts, bad) := a
    let (off, fits) := m.popAt win p.1 p.2
    let bad := match bad with
      | some r => some r
      | none => if fits then none else some (popTrap off)
    (m.popped p.1, dry || m.starved p.1, parts ++ [(off, p.2)], bad)) ((s.core u.core).mx, false, [], none)).2

/-- A trap, if there is one. -/
def trapIf (r : Option TrapRec) : Pre :=
  match r with
  | none => .ok
  | some r => .trap r

/-- What stands against pops (R271): an empty ring blocks, what is not yet in the operand buffers holds, and then traps follow, those
of the K-block's scales first. -/
def State.popsPre (s : State) (u : Issue) (pops : List (Nat × Nat)) (scales : Pre) : Pre :=
  let (dry, parts, bad) := s.scanPops u pops
  if dry then .block else (s.winPre u parts).and (scales.and (trapIf bad))

/-- A pop made at a bundle's issue: its bytes, and the matrix state after it. -/
def State.pop (s : State) (u : Issue) (m : Matrix) (st n : Nat) : Nat × Matrix :=
  (s.winBytes u (m.popAt (s.winSize u) st n).1.toNat n, m.popped st)

/-! ## Operands in the formats of the array (R57, R58, R266) -/

/-- Element e of an array of a format that begins at bit 0 of a number (R58). -/
def arrayElem (fmt v e : Nat) : FVal :=
  if isKb fmt then kbElem fmt (field v (kbBits fmt * (e / 32)) (kbBits fmt)) (e % 32)
  else unpack (codeFmt fmt) false (field v (codeWidth fmt * e) (codeWidth fmt))

/-- Bytes of n elements of a format (R58, R282). -/
def arrayBytes (fmt n : Nat) : Nat := if isKb fmt then n / 32 * (kbBits fmt / 8) else n * (codeWidth fmt / 8)

/-- k_b of a format (R266). -/
def kbOf (fmt : Nat) : Nat := if fmt = 7 then 4 else if fmt = 1 || fmt = 2 then 1 else 2

/-- Bytes of one MACC operand vector (R266). -/
def operandBytes (fmt : Nat) : Nat := arrayBytes fmt (64 * kbOf fmt)

/-! ## STRSET, STRTAP and RINGSET (R277, R279) -/

/-- The bits a stream word keeps (R274). -/
def streamMask (w : Nat) : Word :=
  if w = 0 then 0xFE0000000FFFFFFF else if w = 5 then 0xFFFF else 0xFFFFFFFF0000FFFF

/-- A stream word written; writing word 0 restarts the stream (R277). -/
def Stream.setWord (x : Stream) (w : Nat) (v : Word) : Stream :=
  let y := { x with w := tset x.w 0 w (v &&& streamMask w) }
  if w = 0 then { y with i := [], k := [], sc := 0 } else y

/-- A tap written; its step restarts. -/
def Stream.setTap (x : Stream) (t : Nat) (v : Word) : Stream := { x with tap := tset x.tap 0 t v, k := tset x.k 0 t 0 }

/-- A tile in progress abandoned where a test of its A stream says so (R290). -/
def Matrix.abandon (m : Matrix) (p : Nat → Bool) : Matrix :=
  match m.tile with
  | none => m
  | some t => if p t.stream then { m with tile := none } else m

/-- A change of the matrix state of the bundle's core. -/
def State.modMx (s : State) (u : Issue) (f : Matrix → Matrix) : State := s.modCore u.core (fun k => { k with mx := f k.mx })

/-- A ring configured (R279 operation 0). -/
def Matrix.ringConfig (m : Matrix) (n : Nat) (v : Word) : Matrix :=
  let g := v &&& 0xFFFFFFFFFFFF
  let m := m.abandon (fun st => (m.stream st).bound == some n)
  m.setRing n { geom := g, free := field g.toNat 40 8 + 1 }

/-- The checks of RINGSET operation 0: it waits for the copies reserved into the ring, then judges the geometry (R279). -/
def State.ringPre (s : State) (u : Issue) (n : Nat) (v : Word) : Pre :=
  let r : Ring := { geom := v }
  if !((s.core u.core).mx.ring n).resv.isEmpty then .block
  else if r.base % 256 ≠ 0 then .trap (trapRec causeAlign 1 r.base 0 0)
  else if s.winSize u < r.base + r.size * r.tile then .trap (trapRec causeXlate 1 r.base 0 0)
  else .ok

/-- The checks of RINGSET operation 1 (R279, R281). -/
def State.ringAdvPre (s : State) (u : Issue) (n k : Nat) : Pre :=
  let r := (s.core u.core).mx.ring n
  if r.size < k then .trap (trapRec causeQimbal 5 k 0 0)
  else if r.free < k then .block
  else .ok

/-- A ring advanced over tiles the strand wrote itself. -/
def Ring.advance (r : Ring) (k : Nat) : Ring :=
  { r with tail := (r.tail + k) % r.size, fill := r.fill + k, free := r.free - k }

/-- e[a] as a word. -/
def State.eword (s : State) (u : Issue) (a : R11) : Word := BitVec.ofNat 64 (s.rd u .e a.toNat)

/-- STRSET (R277). -/
def execStrset (g : Guard) (a b c : R11) (s : State) : Host.Outcome State Fault Refusal :=
  simple s g (fun u =>
    let v := s.eword u a
    s.modMx u (fun m =>
      let m := m.setStream b.toNat ((m.stream b.toNat).setWord c.toNat v)
      if c.toNat = 0 then m.abandon (fun st => st == b.toNat) else m))

/-- STRTAP (R277). -/
def execStrtap (g : Guard) (a b c : R11) (s : State) : Host.Outcome State Fault Refusal :=
  simple s g (fun u =>
    let v := s.eword u a
    s.modMx u (fun m => m.setStream b.toNat ((m.stream b.toNat).setTap c.toNat v)))

/-- RINGSET operation 0 (R279). -/
def execRingsetGeom (g : Guard) (a b : R11) (s : State) : Host.Outcome State Fault Refusal :=
  guarded s g (fun u => s.ringPre u b.toNat (s.eword u a)) (fun u s' =>
    s'.modMx u (fun m => m.ringConfig b.toNat (s.eword u a)))

/-- RINGSET operation 1 (R279). -/
def execRingsetAdvance (g : Guard) (a b : R11) (s : State) : Host.Outcome State Fault Refusal :=
  guarded s g (fun u => s.ringAdvPre u b.toNat (field (s.rd u .e a.toNat) 0 9)) (fun u s' =>
    s'.modMx u (fun m => m.setRing b.toNat ((m.ring b.toNat).advance (field (s.rd u .e a.toNat) 0 9))))

/-- RINGSET.RD (R279): STATE as it stood at the bundle's issue (R95). -/
def execRingsetRd (g : Guard) (d b : R11) (s : State) : Host.Outcome State Fault Refusal :=
  simple s g (fun u => s.result u 9 2 .e d.toNat (u.eval.getD ((s.core u.core).mx.ring b.toNat).word))

/-- RING_TILE_FILL (R280 step 2): tiles whose copies have finished are counted, in reservation order. -/
def execRingTileFill (c n : Nat) (s : State) : Host.Outcome State Fault Refusal :=
  .next (s.modCore c (fun k =>
    let r := k.mx.ring n
    { k with mx := k.mx.setRing n (r.count r.resv) }))

end Sys2Proof.Machine
end

