-- ==== Sys2Proof/Machine/Tiles.lean ====
section
/-! DEFINITION. Sparse tiles: the header, the layout of values and masks, the checksum, and the reasons a tile is malformed for
(R282 to R285). -/

namespace Sys2Proof.Machine

open Sys2Proof

/-! ## The header (R283) -/

def hdrN (h : Nat) : Nat := field h 58 6
def hdrM (h : Nat) : Nat := 4 * 2 ^ field h 56 2
def hdrFmt (h : Nat) : Nat := field h 52 4
def hdrKt (h : Nat) : Nat := 4 * field h 42 10
def hdrRg (h : Nat) : Nat := field h 35 6
def hdrCks (h : Nat) : Nat := field h 24 8
def hdrOff (h : Nat) : Nat := field h 0 24

/-- Groups of a row (R282). -/
def hdrG (h : Nat) : Nat := hdrKt h / hdrM h
/-- Kept values of a row. -/
def hdrKr (h : Nat) : Nat := hdrG h * hdrN h
/-- Bytes from one row's packed values to the next. -/
def hdrRs (h : Nat) : Nat := 8 * cdiv (arrayBytes (hdrFmt h) (hdrKr h)) 8
/-- Bytes from one row's mask to the next. -/
def hdrMs (h : Nat) : Nat := 8 * cdiv (hdrKt h) 64
/-- The tile's extent. -/
def hdrExt (h : Nat) : Nat := max (8 + 64 * hdrRs h) (hdrOff h + 64 * hdrMs h)

/-- The reason a header is malformed for, the extent not judged; 0 for none (R285). fa is the array's format, where it matters. -/
def hdrReason (fa : Option Nat) (h : Nat) : Nat :=
  if hdrN h = 0 || hdrM h < hdrN h then 1
  else if field h 32 3 ≠ 0 then 2
  else if hdrFmt h < 1 || 7 < hdrFmt h || (isKb (hdrFmt h) && hdrKr h % 32 != 0) || (match fa with
    | none => false
    | some f => hdrFmt h != f) then 3
  else if hdrKt h = 0 || 1024 < hdrKt h || hdrKt h % hdrM h ≠ 0 || hdrOff h % 8 ≠ 0 || hdrOff h < 8 + 64 * hdrRs h then 4
  else 0

/-! ## Masks and values; rd off n gives the n bytes at an offset from T -/

/-- A byte rotated left. -/
def rotl8 (x s : Nat) : Nat := (x * 2 ^ s % 256) + x / 2 ^ (8 - s)

/-- The checksum of masks given as one number a row, each of ⌈K_t/8⌉ bytes (R284). -/
def cksOf (kt m : Nat) (masks : List Nat) : Nat :=
  masks.foldl (fun a x => (List.range (cdiv kt 8)).foldl (fun a j => a ^^^ rotl8 (field x (8 * j) 8) (8 * j / m % 8)) a) 0

/-- The masks of the 64 rows, ⌈K_t/8⌉ bytes each. -/
def tileMasks (rd : Nat → Nat → Nat) (h : Nat) : List Nat :=
  (List.range 64).map (fun i => rd (hdrOff h + i * hdrMs h) (cdiv (hdrKt h) 8))

/-- The reason the masks fail reasons 2 and 5 for, 0 for none. -/
def maskReason (h : Nat) (masks : List Nat) : Nat :=
  if masks.any (fun x => x / 2 ^ hdrKt h != 0) then 2
  else if cksOf (hdrKt h) (hdrM h) masks ≠ hdrCks h then 5
  else 0

/-- The bits of group g in a row's mask. -/
def groupMask (h x g : Nat) : Nat := field x (g * hdrM h) (hdrM h)

/-- The lowest row whose group g does not keep N (reason 6). -/
def groupFails (h g : Nat) (masks : List Nat) : Option Nat :=
  findNat (fun i => popCount (hdrM h) (groupMask h (masks.getD i 0) g) != hdrN h) 64

/-- The positions of a mask's set bits, the lowest first. -/
def setBits (n x : Nat) : List Nat := (List.range n).filter (bitAt x)

/-- Kept value k of row i. -/
def tileValue (rd : Nat → Nat → Nat) (h i k : Nat) : FVal :=
  let f := hdrFmt h
  if isKb f then
    let n := kbBits f / 8
    kbElem f (rd (8 + i * hdrRs h + k / 32 * n) n) (k % 32)
  else
    let n := codeWidth f / 8
    unpack (codeFmt f) false (rd (8 + i * hdrRs h + k * n) n)

end Sys2Proof.Machine
end

