-- ==== Sys2Proof/Machine/Matrix.lean ====
section
/-! DEFINITION. The M slot: the array's configuration, accumulator banks, dense and sparse beats, and the rows that enter and leave
the banks (R264 to R273, R286 to R290). -/

namespace Sys2Proof.Machine

open Sys2Proof

/-! ## Rows -/

/-- The 64 values of a row. -/
def rowVals (x : Vec) : List Nat := (List.range 64).map (elem x 32)

/-- A row of 64 values. -/
def rowOf (l : List Nat) : Vec := BitVec.ofNat 2048 (packList 32 l)

/-- A bank rotated: new row i is old row (i + 1) mod 64 (R270). -/
def rotateBank (t : Tab Vec) : Tab Vec :=
  (List.range 64).foldl (fun a i => tset a 0 i (tget t 0 ((i + 1) % 64))) []

/-- A bank with every value of row i of t updated by its terms: pairs of a value of A and a row of B (R73, R75); and the flags. -/
def accRows (t : Tab Vec) (terms : Nat → List (FVal × List FVal)) : Tab Vec × Nat :=
  (List.range 64).foldl (fun (acc : Tab Vec × Nat) i =>
    let ts := terms i
    let rs := ((rowVals (tget t 0 i)).zipIdx).map (fun p =>
      maccSum (unpack fp32 false p.1) (ts.map (fun q => mulVal q.1 (q.2.getD p.2 (.fin false 0 0)))))
    (tset acc.1 0 i (rowOf (rs.map FRes.bits)), rs.foldl (fun fl r => fl ||| r.fl) acc.2)) (t, 0)

/-- A bank with a shadow bank folded in under two scales (R74). -/
def foldRows (t h : Tab Vec) (sa sb : FVal) : Tab Vec × Nat :=
  (List.range 64).foldl (fun (acc : Tab Vec × Nat) i =>
    let rs := ((rowVals (tget t 0 i)).zip (rowVals (tget h 0 i))).map (fun p => scaleUpdate p.1 p.2 sa sb)
    (tset acc.1 0 i (rowOf (rs.map FRes.bits)), rs.foldl (fun fl r => fl ||| r.fl) acc.2)) (t, 0)

/-! ## Beats -/

/-- Whether a pop for A ends a K-block (R271, R281). -/
def Matrix.endsBlock (m : Matrix) (a : Nat) : Bool := m.scl && (m.stream a).advance.1.sc == 0

/-- The scales of a K-block's end: a wait for outstanding ones, or QIMBAL (R271, R281). -/
def State.scalesPre (s : State) (u : Issue) (ends : Bool) : Pre :=
  let n := (s.core u.core).mx.scales.length
  let k := n + (s.seat u.core u.seat).scalesDue
  if !ends || 2 ≤ n then .ok else if 2 ≤ k then .hold else .trap (trapRec causeQimbal 2 k 0 0)

/-- A bank operation of a bundle, on matrix state m. Its syllable completes with it (R194, R267), and then raises its flags; fpu says whether
it is a beat (R69). -/
def State.bankOp (s : State) (u : Issue) (m : Matrix) (lat b : Nat) (rows : Tab Vec) (fl : Nat) (fpu : Bool) : State :=
  let now := (s.core u.core).now
  (s.modCore u.core (fun k => { k with mx := m.push now lat b rows })).fly u 6 (max (now + lat) (m.lastDone b) - now) none 0 fl true fpu

/-- The beat that the array performs once its operands are popped: m is the matrix state after the pops; acts says whether it
accumulates; ends, whether it ends a K-block (R271, R286). -/
def State.beat (s : State) (u : Issue) (m : Matrix) (lat : Nat) (acts ends : Bool) (terms : Nat → List (FVal × List FVal)) : State :=
  let c := m.latest m.bank
  let sa := sc16 (m.scales.getD 0 0)
  let sb := sc16 (m.scales.getD 1 0)
  let (rows, h, fl) :=
    if !acts then (c, m.h, 0)
    else if m.scl then
      let (h, fl) := accRows m.h terms
      if ends then
        let (rows, fl') := foldRows c h sa sb
        (rows, ([] : Tab Vec), fl ||| fl')
      else (c, h, fl)
    else
      let (rows, fl) := accRows c terms
      (rows, m.h, fl)
  let m := { m with h := h, scales := if ends then m.scales.drop 2 else m.scales }
  s.bankOp u m lat m.bank rows fl true

/-! ## Dense beats (R271) -/

/-- The pops of a dense beat. -/
def Matrix.densePops (m : Matrix) (a b : Nat) : List (Nat × Nat) := [(a, operandBytes m.fa), (b, operandBytes m.fb)]

/-- What stands against a dense beat. -/
def State.maccPre (s : State) (u : Issue) (a b : Nat) : Pre :=
  let m := (s.core u.core).mx
  let sp := s.scalesPre u (m.endsBlock a)
  match sp with
  | .hold => if (s.scanPops u (m.densePops a b)).1 then .block else .hold
  | _ => s.popsPre u (m.densePops a b) sp

/-- The operands of a dense beat: A[i][k], the rows B[k], and the matrix state after the pops. -/
def State.denseOperands (s : State) (u : Issue) (a b : Nat) : (Nat → List FVal) × List (List FVal) × Matrix :=
  let m := (s.core u.core).mx
  let kb := kbOf m.fa
  let (av, m1) := s.pop u m a (operandBytes m.fa)
  let (bv, m2) := s.pop u m1 b (operandBytes m.fb)
  (fun i => (List.range kb).map (fun k => arrayElem m.fa av (kb * i + k)),
   (List.range kb).map (fun k => (List.range 64).map (fun j => arrayElem m.fb bv (64 * k + j))), m2)

/-- MACC and MACC.ZG (R271). -/
def maccForm (s : State) (g : Guard) (a b : R11) : Host.Outcome State Fault Refusal :=
  onIssue s (fun u => gate (s.maccPre u a.toNat b.toNat) s u (fun s' =>
    let ends := (s.core u.core).mx.endsBlock a.toNat
    let (ar, br, m) := s.denseOperands u a.toNat b.toNat
    let parts := (s.scanPops u ((s.core u.core).mx.densePops a.toNat b.toNat)).2.1
    (s'.actFirst u parts).beat u m 8 (s.guard u g) ends (fun i => (ar i).zip br)))

/-- Whether a factor is not zero (R88). -/
def nonZero : FVal → Bool
  | .fin _ m _ => m != 0
  | .nan => true
  | .inf _ => true

/-- The array rows of a beat in which some product has two non-zero factors (R88). -/
def State.activeRows (s : State) (u : Issue) (a b : Nat) : Nat :=
  let (ar, br, _) := s.denseOperands u a b
  let live := br.map (fun r => r.any nonZero)
  ((List.range 64).filter (fun i => ((ar i).zip live).any (fun p => nonZero p.1 && p.2))).length

/-! ## Sparse beats (R286 to R289) -/

/-- Beats of a group, B rows of a beat, beats of a tile, and the latency (R286). -/
def beatsPerGroup (fa h : Nat) : Nat := max (cdiv (hdrN h) (kbOf fa)) (cdiv (hdrM h) (4 * kbOf fa))
def rowsPerBeat (fa h : Nat) : Nat := cdiv (hdrM h) (beatsPerGroup fa h)
def beatsPerTile (fa h : Nat) : Nat := hdrG h * beatsPerGroup fa h
def sparseLat (fa h : Nat) : Nat := 8 + 2 * clog2 (cdiv (rowsPerBeat fa h) (kbOf fa))

/-- The tile's header word, group and beat within the group. -/
def Tile.h (t : Tile) : Nat := t.hdr.toNat
def Tile.group (fa : Nat) (t : Tile) : Nat := t.beta / beatsPerGroup fa t.h
def Tile.sub (fa : Nat) (t : Tile) : Nat := t.beta % beatsPerGroup fa t.h
def Tile.lastBeat (fa : Nat) (t : Tile) : Bool := t.beta + 1 == beatsPerTile fa t.h
/-- B rows that the beat delivers. -/
def Tile.nb (fa : Nat) (t : Tile) : Nat :=
  let r := rowsPerBeat fa t.h
  min r (hdrM t.h - t.sub fa * r)

/-- SPMETA's record (R289). -/
def spmeta (reason row grp : Nat) (t : Int) (h beta : Nat) : TrapRec :=
  trapRec causeSpmeta (reason * 2 ^ 16 + row * 2 ^ 9 + grp) (off64 t) h beta

/-- The tile in progress that a MACCS of stream a goes on with. -/
def Matrix.tileOf (m : Matrix) (a : Nat) : Option Tile :=
  match m.tile with
  | none => none
  | some t => if t.stream = a then some t else none

/-- Bytes of a tile as the strand reads them. -/
def State.tileRd (s : State) (u : Issue) (t : Int) (off n : Nat) : Nat := s.winBytes u (t.toNat + off) n

/-- Whether a tile's extent is within its limit: the window, and its ring's tile (R288). -/
def Matrix.extentFits (m : Matrix) (win a : Nat) (t : Int) (h : Nat) : Bool :=
  decide (t + hdrExt h ≤ win) && (match (m.stream a).bound with
    | none => true
    | some g => decide ((m.stream a).rel + hdrExt h ≤ (m.ring g).tile))

/-- The pop of a sparse beat for B. -/
def Tile.bPop (fa fb b : Nat) (t : Tile) : List (Nat × Nat) := if t.nb fa = 0 then [] else [(b, t.nb fa * arrayBytes fb 64)]

/-- The window bytes of a tile that a beat reads once its header has been read: every mask at the tile's first beat (fresh), and at a group's
first beat the group's masks and values of all rows (R286, R288). -/
def Tile.reads (fa : Nat) (t : Tile) (fresh : Bool) : List (Int × Nat) :=
  let rows (off step n : Nat) : List (Int × Nat) := (List.range 64).map (fun i => (t.t + ((off + i * step : Nat) : Int), n))
  let (f, n, k) := (hdrFmt t.h, hdrN t.h, t.group fa * hdrN t.h)
  let bit := t.group fa * hdrM t.h
  let vals := if isKb f then (kbBits f / 8 * (k / 32), kbBits f / 8 * ((k + n - 1) / 32 - k / 32 + 1))
    else (codeWidth f / 8 * k, codeWidth f / 8 * n)
  (if fresh then rows (hdrOff t.h) (hdrMs t.h) (cdiv (hdrKt t.h) 8) else [])
    ++ (if t.sub fa = 0 then
      rows (hdrOff t.h + bit / 8) (hdrMs t.h) (cdiv (hdrM t.h) 8) ++ rows (8 + vals.1) (hdrRs t.h) vals.2
      else [])

/-- What stands against a beat of a tile whose header has been judged; masks is what a first beat (fresh) finds in the masks. Bytes that are
poisoned are not judged: the beat consumes them (R288, R338). -/
def State.beatPre (s : State) (u : Issue) (t : Tile) (b : Nat) (fresh : Bool) (masks : Pre) : Pre :=
  let m := (s.core u.core).mx
  let first := t.sub m.fa == 0
  let (_, parts, bad) := s.scanPops u (t.bPop m.fa m.fb b)
  let sp := s.scalesPre u (t.lastBeat m.fa && m.endsBlock t.stream)
  let wait := (s.winPre u (t.reads m.fa fresh ++ parts)).and (if sp == .hold then .hold else .ok)
  let grp := if first then
      (match groupFails t.h (t.group m.fa) (tileMasks (s.tileRd u t.t) t.h) with
      | none => Pre.ok
      | some i => .trap (spmeta 6 i (t.group m.fa) t.t t.h t.beta))
    else .ok
  wait.and (if (s.poisonedRead u (t.reads m.fa fresh)).isSome then .ok else ((masks.and grp).and sp).and (trapIf bad))

/-- What stands against a MACCS (R288). -/
def State.maccsPre (s : State) (u : Issue) (a b : Nat) : Pre :=
  let m := (s.core u.core).mx
  let win := s.winSize u
  if m.starved a || m.starved b then .block
  else match m.tileOf a with
    | some t => s.beatPre u t b false .ok
    | none =>
      let (off, fits) := m.popAt win a 8
      (s.winPre u [(off, 8)]).and (
        if !fits then .trap (popTrap off)
        else if off % 8 ≠ 0 then .trap (trapRec causeAlign 1 (off64 off) 0 0)
        else if (s.poisonedRead u [(off, 8)]).isSome then .ok
        else
          let h := s.tileRd u off 0 8
          if hdrReason (some m.fa) h ≠ 0 then .trap (spmeta (hdrReason (some m.fa) h) 127 511 off h 0)
          else if !m.extentFits win a off h then .trap (popTrap off)
          else
            let r := maskReason h (tileMasks (s.tileRd u off) h)
            s.beatPre u { stream := a, t := off, hdr := BitVec.ofNat 64 h, beta := 0 } b true
              (if r = 0 then .ok else .trap (spmeta r 127 511 off h 0)))

/-- The tile that a beat belongs to: the one in progress, or one that begins with its header (R286, R290). -/
def State.beatTile (s : State) (u : Issue) (m : Matrix) (a : Nat) : Tile :=
  match m.tileOf a with
  | some t => t
  | none =>
    let off := (m.popAt (s.winSize u) a 8).1
    { stream := a, t := off, hdr := BitVec.ofNat 64 (s.tileRd u off 0 8), beta := 0 }

/-- The window bytes that a beat reads, as far as it comes: the header at a tile's first beat, then, if that is good, the masks and values
it needs, and its pop for B (R286, R288). -/
def State.beatReads (s : State) (u : Issue) (a b : Nat) : List (Int × Nat) :=
  let m := (s.core u.core).mx
  let t := s.beatTile u m a
  let fresh := (m.tileOf a).isNone
  let good := !fresh || (hdrReason (some m.fa) t.h == 0 && m.extentFits (s.winSize u) a t.t t.h)
  (if fresh then [(t.t, 8)] else [])
    ++ (if good then t.reads m.fa fresh ++ (s.scanPops u (t.bPop m.fa m.fb b)).2.1 else [])

/-- A tile with the masks and kept values of its current group read, at the group's first beat. -/
def State.readGroup (s : State) (u : Issue) (fa : Nat) (t : Tile) : Tile :=
  if t.sub fa = 0 then
    let rd := s.tileRd u t.t
    let g := t.group fa
    let masks := tileMasks rd t.h
    { t with
      rows := []
      grp := (List.range 64).map (fun i => (groupMask t.h (masks.getD i 0) g,
        (List.range (hdrN t.h)).map (fun k => tileValue rd t.h i (g * hdrN t.h + k)))) }
  else t

/-- The terms of row i of a group: its kept values with the B rows of their positions (R75, R286). -/
def Tile.terms (t : Tile) (i : Nat) : List (FVal × List FVal) :=
  let (mask, vals) := t.grp.getD i (0, [])
  (vals.zip (setBits (hdrM t.h) mask)).map (fun p => (p.1, t.rows.getD p.2 []))

/-- A sparse beat (R286). -/
def State.sparseBeat (s : State) (u : Issue) (a b : Nat) (guard : Bool) : State :=
  let m := (s.core u.core).mx
  let fa := m.fa
  let t := s.readGroup u fa (s.beatTile u m a)
  let nb := t.nb fa
  let (v, m1) := if nb = 0 then (0, m) else s.pop u m b (nb * arrayBytes m.fb 64)
  let t := { t with rows := t.rows ++ (List.range nb).map (fun q => (List.range 64).map (fun j => arrayElem m.fb v (64 * q + j))) }
  let ends := t.lastBeat fa && m.endsBlock a
  let m2 := if t.lastBeat fa then { m1.popped a with tile := none } else { m1 with tile := some { t with beta := t.beta + 1 } }
  s.beat u m2 (sparseLat fa t.h) (guard && t.sub fa + 1 == beatsPerGroup fa t.h) ends t.terms

/-! ## Rows in and out (R270, R272, R273) -/

/-- A bank's new rows, from its latest, as an operation of latency 2. -/
def State.bankMod (s : State) (u : Issue) (b : Nat) (f : Tab Vec → Tab Vec) : State :=
  let m := (s.core u.core).mx
  s.bankOp u m 2 b (f (m.latest b)) 0 false

/-- Bank and flags of MPUSH's and MDRAIN's field d. -/
def bankOf (d : R11) : Nat := d.toNat % 2
def shOf (d : R11) : Bool := bitAt d.toNat 1
def zOf (d : R11) : Bool := bitAt d.toNat 2

/-- One row replaced, and the bank rotated under .SH. -/
def putRow (row : Nat) (v : Vec) (sh : Bool) (t : Tab Vec) : Tab Vec :=
  let t := tset t 0 row v
  if sh then rotateBank t else t

/-- Bytes of MPUSH's pop. -/
def pushBytes (fmt : Nat) : Nat := arrayBytes fmt 64

/-- The row of 64 elements that MPUSH pops, decoded exactly into FP32 (R272). -/
def pushRow (fmt v : Nat) : Vec :=
  if fmt = 0 then BitVec.ofNat 2048 v
  else rowOf ((List.range 64).map (fun j => (roundVal fp32 .rne false true (arrayElem fmt v j)).bits))

/-- What stands against an MPUSH. -/
def State.mpushPre (s : State) (u : Issue) (a c : R11) : Pre :=
  if c.toNat = 2 then s.popsPre u [(a.toNat, pushBytes ((s.core u.core).mx.stream a.toNat).fmt)] .ok else .ok

/-- Whether a seat runs in trusted mode: trap mode is interlocked (R18, R149). -/
def Seat.trusted (t : Seat) : Bool := bitAt t.mode.modectl.toNat 0 && !t.tm

/-- MDRAIN's wait for its bank in interlocked mode (R267). -/
def State.drainPre (s : State) (u : Issue) (d : R11) : Pre :=
  let k := s.core u.core
  if (s.seat u.core u.seat).trusted || k.mx.lastDone (bankOf d) ≤ k.now then .ok else .hold

/-- What stands against an MCFG (R269). -/
def State.mcfgPre (s : State) (u : Issue) : Pre :=
  let n := (s.core u.core).mx.scales.length + (s.seat u.core u.seat).scalesDue
  if n = 0 then .ok else .trap (trapRec causeQimbal 3 n 0 0)

/-! ## Meanings -/

/-- MCFG (R269): FA and FB in b, BANK and SCL in c. -/
def execMcfg (g : Guard) (b c : R11) (s : State) : Host.Outcome State Fault Refusal :=
  guarded s g s.mcfgPre (fun u s' => s'.modMx u (fun m => { m with
    fa := field b.toNat 0 4, fb := field b.toNat 4 4, bank := c.toNat % 2, scl := bitAt c.toNat 1, h := [], tile := none }))

/-- MZERO (R270). -/
def execMzero (g : Guard) (d : R11) (s : State) : Host.Outcome State Fault Refusal :=
  simple s g (fun u =>
    let s' := s.bankMod u (bankOf d) (fun _ => [])
    s'.modMx u (fun m => if m.bank = bankOf d then { m with h := [] } else m))

/-- MACC (R271). -/
def execMacc (g : Guard) (a b : R11) (s : State) : Host.Outcome State Fault Refusal := maccForm s g a b

/-- MACC.ZG (R271, R88). -/
def execMaccZg (g : Guard) (a b : R11) (s : State) : Host.Outcome State Fault Refusal := maccForm s g a b

/-- MACCS (R286). -/
def execMaccs (g : Guard) (a b : R11) (s : State) : Host.Outcome State Fault Refusal :=
  onIssue s (fun u => gate (s.maccsPre u a.toNat b.toNat) s u (fun s' =>
    (s'.actFirst u (s.beatReads u a.toNat b.toNat)).sparseBeat u a.toNat b.toNat (s.guard u g)))

/-- MPUSH (R272). -/
def execMpush (g : Guard) (d a b c : R11) (s : State) : Host.Outcome State Fault Refusal :=
  guarded s g (fun u => s.mpushPre u a c) (fun u s' =>
    if c.toNat = 2 then
      let m := (s.core u.core).mx
      let fmt := (m.stream a.toNat).fmt
      let (v, m) := s.pop u m a.toNat (pushBytes fmt)
      (s'.actFirst u (s.scanPops u [(a.toNat, pushBytes fmt)]).2.1).bankOp u m 2 (bankOf d)
        (putRow b.toNat (pushRow fmt v) (shOf d) (m.latest (bankOf d))) 0 false
    else
      let v := BitVec.ofNat 2048 (s.rd u (if c.toNat = 0 then .v else .w) a.toNat)
      s'.bankMod u (bankOf d) (putRow b.toNat v (shOf d)))

/-- MSHIFT (R270). -/
def execMshift (g : Guard) (d : R11) (s : State) : Host.Outcome State Fault Refusal :=
  simple s g (fun u => s.bankMod u (bankOf d) rotateBank)

/-- MDRAIN (R273): the row is read into fl whatever the guard is (R11). -/
def execMdrain (g : Guard) (d a : R11) (s : State) : Host.Outcome State Fault Refusal :=
  onIssue s (fun u => gate (s.drainPre u d) s u (fun s' =>
    let s' := s'.modMx u (fun m => { m with fl := tget (m.bankRows (bankOf d)) 0 a.toNat })
    if s.guard u g && (zOf d || shOf d) then
      s'.bankMod u (bankOf d) (fun t =>
        let t := if zOf d then tset t 0 a.toNat 0 else t
        if shOf d then rotateBank t else t)
    else s'))

/-- BANK_OP_COMPLETE (R267). -/
def execBankOpComplete (c : Nat) (s : State) : Host.Outcome State Fault Refusal := .next (s.settleBanks c)

end Sys2Proof.Machine
end

