-- ==== Sys2Proof/Machine/Sparsity.lean ====
section
/-! DEFINITION. Commands of a core's engines (R291, R299), and the sparsity unit (R291 to R294). -/

namespace Sys2Proof.Machine

open Sys2Proof

/-! ## Issuing engine commands -/

/-- A command issued on a timeline of the strand's core: its number. Issuing is a release (R236, R291, R299). -/
def State.issueCmd (s : State) (u : Issue) (t : Nat) : Nat × State :=
  let (ten, _, _) := s.who u
  let (n, l) := (s.eline ten u.core t).issue
  (n, (s.setEline ten u.core t l).releaseSeat u.core u.seat)

/-- Whether every access that precedes a command of a seat's strand has performed (R299): those the seat has under way, and those that the
strand has taken with it into a record, until it has been resumed. -/
def State.marked (s : State) (c i mark ten lid idx : Nat) : Bool :=
  (s.seat c i).accs.all (fun a => a.performed || mark ≤ a.id)
    && s.dies.all (fun p => p.2.recs.all (fun r => !r.img.runs ten lid idx || r.img.accs.isEmpty))
    && s.cores.all (fun p => p.2.seats.all (fun q => !(q.2.restore && q.2.runs ten lid idx) || q.2.accs.isEmpty))

/-! ## Operand words (R292) -/

/-- A dense descriptor's offset, stride, element size and format. -/
def descOff (d : Nat) : Nat := field d 0 28
def descStride (d : Nat) : Nat := field d 32 28
def descFmt (d : Nat) : Nat := field d 60 4
def descSize (d : Nat) : Nat := if descFmt d = 0 then 4 else 2
/-- The offset of element k of row i. -/
def descAt (d i k : Nat) : Nat := descOff d + i * descStride d + k * descSize d
/-- The end of a region of 64 rows of kt elements. -/
def descEnd (d kt : Nat) : Nat := descAt d 63 kt
def descBad (d : Nat) : Bool := field d 28 4 != 0 || 2 < descFmt d
def descAlign (d : Nat) : Option Nat :=
  if descOff d % descSize d ≠ 0 then some (descOff d) else if descStride d % descSize d ≠ 0 then some (descStride d) else none

/-- The header a parameter word stands for, with OFF as SPRUNE writes it. -/
def paramHdr (p : Nat) : Nat :=
  let h := field p 42 22 * 2 ^ 42
  h + (8 + 64 * hdrRs h)

/-- Whether a parameter word is invalid. -/
def paramBad (p : Nat) : Bool := field p 0 41 != 0 || hdrReason none (paramHdr p) != 0

/-- An offset operand as a signed offset. -/
def offOf (x : Nat) : Int := sextN 64 x

/-- The checks of an S form in the order of R292: the operand words that are invalid, the offsets or strides not aligned, and the
regions (start and end) outside the window; t is the tile operand. -/
def State.unitPre (s : State) (u : Issue) (t : Int) (bad : List (Bool × Nat)) (align : List (Option Int)) (regions : List (Int × Int)) : Pre :=
  match bad.find? (fun p => p.1) with
  | some p => .trap (spmeta 7 127 511 t p.2 0)
  | none => match firstSome id align with
    | some x => .trap (trapRec causeAlign 1 (off64 x) 0 0)
    | none => match regions.find? (fun p => decide (p.1 < 0) || decide ((s.winSize u : Int) < p.2)) with
      | some p => .trap (popTrap p.1)
      | none => .ok

/-- The alignment of a tile operand. -/
def tileAlign (t : Int) : Option Int := if t % 8 ≠ 0 then some t else none

/-- The alignment of a descriptor. -/
def denseAlign (d : Nat) : Option Int := (descAlign d).map (fun (x : Nat) => (x : Int))

/-- The region of a tile whose header is known, and the region of a header alone. -/
def tileRegion (t : Int) (h : Nat) : Int × Int := (t, t + hdrExt h)
def headerRegion (t : Int) : Int × Int := (t, t + 8)

/-- The regions of a dense descriptor. -/
def denseRegion (d kt : Nat) : Int × Int := ((descOff d : Int), (descEnd d kt : Int))

/-! ## Writing tiles -/

/-- A kept value as it is stored, with its exact value. -/
abbrev Kept := Nat × FVal

/-- A value as SPRUNE stores it: rounded to nearest even, saturating (R293). -/
def keptOf (fmt : Nat) (v : FVal) : Kept := ((convVal false true .rne fmt v).bits, v)

/-- A row of kept values packed; block formats 32 at a time (R58, R59, R282). -/
def packRow (fmt : Nat) (vals : List Kept) : Nat :=
  if isKb fmt then
    packList (kbBits fmt) ((List.range (vals.length / 32)).map (fun b =>
      (kbEncode fmt (fun i => (vals.getD (32 * b + i) (0, .fin false 0 0)).2)).1))
  else packList (codeWidth fmt) (vals.map Prod.fst)

/-- One row of a tile written at a pool address: its values and its mask (R282). -/
def State.writeTileRow (pa h : Nat) (masks : List Nat) (vals : List (List Kept)) (s : State) (i : Nat) : State :=
  (s.store (pa + 8 + i * hdrRs h) (arrayBytes (hdrFmt h) (hdrKr h)) 0 (packRow (hdrFmt h) (vals.getD i []))).store
    (pa + hdrOff h + i * hdrMs h) (cdiv (hdrKt h) 8) 0 (masks.getD i 0)

/-- A tile written at a pool address: header with its checksum, values and masks (R282, R293). -/
def State.writeTile (s : State) (pa h : Nat) (masks : List Nat) (vals : List (List Kept)) : State :=
  let h := setField h 24 8 (cksOf (hdrKt h) (hdrM h) masks)
  (List.range 64).foldl (State.writeTileRow pa h masks vals) (s.store pa 8 0 h)

/-- A dense row's elements as exact values. -/
def State.denseRow (s : State) (pa d kt i : Nat) : List FVal :=
  (List.range kt).map (fun k => unpack (codeFmt (descFmt d)) false (leRead s.mem (pa + descAt d i k) (descSize d)))

/-- Every row of a dense region. -/
def State.denseRows (s : State) (pa d kt : Nat) : List (List FVal) := (List.range 64).map (s.denseRow pa d kt)

/-! ## Selection (R293, R294) -/

/-- Whether magnitude a is above magnitude b: NaN above infinity, +0 equal to −0. -/
def magAbove (a b : FVal) : Bool :=
  match a, b with
  | .nan, .nan => false
  | .nan, .inf _ => true
  | .nan, .fin _ _ _ => true
  | .inf _, .nan => false
  | .inf _, .inf _ => false
  | .inf _, .fin _ _ _ => true
  | .fin _ _ _, .nan => false
  | .fin _ _ _, .inf _ => false
  | .fin _ m e, .fin _ n k => magLt n k m e

/-- The first n of some things in a ranking: x comes before y when better x y, or neither is better and x has the lower place. -/
def topOf (n : Nat) (xs : List Nat) (better : Nat → Nat → Bool) : List Nat :=
  xs.filter (fun x => (xs.filter (fun y => better y x || (!better x y && y < x))).length < n)

/-- The positions a row keeps, in rising order: the n largest of each group of m. -/
def pruneRow (n m kt : Nat) (row : List FVal) : List Nat :=
  let at_ (k : Nat) : FVal := row.getD k (.fin false 0 0)
  (List.range (kt / m)).flatMap (fun g =>
    topOf n ((List.range m).map (fun k => g * m + k)) (fun x y => magAbove (at_ x) (at_ y)))

/-- A mask of positions. -/
def maskOf (ps : List Nat) : Nat := (ps.map (fun p => 2 ^ p)).sum

/-- A tile of given kept positions for each row, written at a pool address. -/
def State.writeKept (s : State) (pa h : Nat) (rows : List (List FVal)) (keep : List (List Nat)) : State :=
  s.writeTile pa h (keep.map maskOf)
    ((rows.zip keep).map (fun p => p.2.map (fun k => keptOf (hdrFmt h) (p.1.getD k (.fin false 0 0)))))

/-- The score of diagonal δ of a block: the exact sum of its magnitudes. -/
def diagScore (rows : List (List FVal)) (m bi bg dl : Nat) : FVal :=
  (sumVal .rne ((List.range m).map (fun r => ((rows.getD (bi * m + r) []).getD (bg * m + (r + dl) % m) (.fin false 0 0)).abs))).val

/-- The diagonals a block keeps. -/
def blockDiags (rows : List (List FVal)) (n m bi bg : Nat) : List Nat :=
  topOf n (List.range m) (fun x y => magAbove (diagScore rows m bi bg x) (diagScore rows m bi bg y))

/-- The positions that SPRUNET keeps in row i of a 64 × 64 source. -/
def pruneDiag (rows : List (List FVal)) (n m i : Nat) : List Nat :=
  (List.range (64 / m)).flatMap (fun g =>
    let ds := blockDiags rows n m (i / m) g
    ((List.range m).filter (fun k => ds.contains ((k + m - i % m) % m))).map (fun k => g * m + k))

/-- The transpose of 64 × 64 values, and of kept positions. -/
def transposeRows (rows : List (List FVal)) : List (List FVal) :=
  (List.range 64).map (fun r => rows.map (fun x => x.getD r (.fin false 0 0)))
def transposeKept (keep : List (List Nat)) : List (List Nat) :=
  (List.range 64).map (fun r => (List.range 64).filter (fun c => (keep.getD c []).contains r))

/-- One group regrown (R294): kept positions with their values, the gradient's row, and how many to exchange. -/
def regrowGroup (d m : Nat) (kept : List (Nat × Kept)) (grad : Nat → FVal) (g : Nat) : List (Nat × Kept) :=
  let n := kept.length
  let k := min d (min n (m - n))
  let val (p : Nat) : FVal := match kept.find? (fun q => q.1 = p) with
    | none => .fin false 0 0
    | some q => q.2.2
  let ps := kept.map Prod.fst
  let drop := topOf k ps (fun x y => magAbove (val y) (val x))
  let pruned := ((List.range m).map (fun j => g * m + j)).filter (fun p => !ps.contains p)
  let revive := topOf k pruned (fun x y => magAbove (grad x) (grad y))
  ((List.range m).map (fun j => g * m + j)).filterMap (fun p =>
    if revive.contains p then some (p, (0, .fin false 0 0))
    else if drop.contains p then none
    else kept.find? (fun q => q.1 = p))

/-! ## Commands -/

/-- A command of the unit issued on timeline 9 (R291). -/
def State.issueUnit (s : State) (u : Issue) (op : UnitOp) (a b c : Word) (dst : Option Reg) : State :=
  let (ten, lid, idx) := s.who u
  let mark := (s.core u.core).nextId
  let (n, s) := s.issueCmd u 9
  s.modCore u.core (fun k => { k with unit := k.unit ++ [{ num := n, op := op, a := a, b := b, c := c, ten := ten, lid := lid, idx := idx, seat := u.seat, mark := mark, dst := dst, seq := u.seq }] })

/-- The bytes of a command's tile, from a pool address. -/
def State.rdAt (s : State) (pa off n : Nat) : Nat := leRead s.mem (pa + off) n

/-- What a command finds wrong with its tile at t in a window: a status, 0 for nothing (R294). upto is the last reason judged of the
masks: 2, or 6. -/
def State.tileStatus (s : State) (win pa : Nat) (t : Int) (upto : Nat) : Nat :=
  let h := s.rdAt pa 0 8
  let r := hdrReason none h
  if r ≠ 0 then 0x30 + r
  else if (win : Int) < t + hdrExt h then 0x34
  else
    let masks := tileMasks (s.rdAt pa) h
    if masks.any (fun x => x / 2 ^ hdrKt h != 0) then 0x32
    else if upto < 6 then 0
    else if maskReason h masks ≠ 0 then 0x30 + maskReason h masks
    else if (List.range (hdrG h)).any (fun g => (groupFails h g masks).isSome) then 0x36
    else 0

/-- The kept values of a group of a row: positions with stored bits and exact values. -/
def State.groupKept (s : State) (pa h i g : Nat) : List (Nat × Kept) :=
  let rd := s.rdAt pa
  let mask := groupMask h (rd (hdrOff h + i * hdrMs h) (cdiv (hdrKt h) 8)) g
  ((setBits (hdrM h) mask).zipIdx).map (fun p =>
    let k := g * hdrN h + p.2
    let n := codeWidth (hdrFmt h) / 8
    let raw := if isKb (hdrFmt h) then 0 else rd (8 + i * hdrRs h + k * n) n
    (g * hdrM h + p.1, (raw, tileValue rd h i k)))

/-- Every kept value of a row. -/
def State.rowKept (s : State) (pa h i : Nat) : List (Nat × Kept) := (List.range (hdrG h)).flatMap (s.groupKept pa h i)

/-- SPRUNE (R293). -/
def State.doSprune (s : State) (base : Nat) (x : UnitCmd) : State :=
  let h := paramHdr x.c.toNat
  let rows := s.denseRows base x.a.toNat (hdrKt h)
  s.writeKept (base + x.b.toNat) h rows (rows.map (pruneRow (hdrN h) (hdrM h) (hdrKt h)))

/-- SPRUNET (R294). -/
def State.doSprunet (s : State) (base : Nat) (x : UnitCmd) : State :=
  let h := setField (paramHdr x.c.toNat) 41 1 1
  let rows := s.denseRows base x.a.toNat 64
  let keep := (List.range 64).map (pruneDiag rows (hdrN h) (hdrM h))
  let s := s.writeKept (base + field x.b.toNat 0 28) h rows keep
  s.writeKept (base + field x.b.toNat 32 28) h (transposeRows rows) (transposeKept keep)

/-- SREGROW (R294): status 0 and the state after, or a failure. -/
def State.doSregrow (s : State) (win base : Nat) (x : UnitCmd) : Nat × State :=
  let pa := base + x.b.toNat
  let st := s.tileStatus win pa x.b.toNat 6
  let h := s.rdAt pa 0 8
  let d := field x.c.toNat 0 6
  if st ≠ 0 then (st, s)
  else if win < descEnd x.a.toNat (hdrKt h) then (0x11, s)
  else
    let h' := setField h 35 6 (min 63 (hdrRg h + 1))
    if d = 0 then (0, s.store pa 8 0 h')
    else
      let rows := (List.range 64).map (fun i =>
        let grad := s.denseRow base x.a.toNat (hdrKt h) i
        (List.range (hdrG h)).flatMap (fun g =>
          regrowGroup d (hdrM h) (s.groupKept pa h i g) (fun k => grad.getD k (.fin false 0 0)) g))
      (0, s.writeTile pa (setField h' 41 1 0) (rows.map (fun r => maskOf (r.map Prod.fst))) (rows.map (fun r => r.map Prod.snd)))

/-- SEXPAND (R294). -/
def State.doSexpand (s : State) (win base : Nat) (x : UnitCmd) : Nat × State :=
  let pa := base + x.a.toNat
  let st := s.tileStatus win pa x.a.toNat 6
  let h := s.rdAt pa 0 8
  let d := x.b.toNat
  if st ≠ 0 then (st, s)
  else if win < descEnd d (hdrKt h) then (0x11, s)
  else
    (0, (List.range 64).foldl (fun (t : State) i =>
      let kept := s.rowKept pa h i
      (List.range (hdrKt h)).foldl (fun (t : State) k =>
        let v := match kept.find? (fun q => q.1 = k) with
          | none => 0
          | some q => (convVal false true .rne (descFmt d) q.2.2).bits
        t.store (base + descAt d i k) (descSize d) 0 v) t) s)

/-- SCHECK's predicate (R294). -/
def State.scheckVal (s : State) (win base : Nat) (t : Int) : Bool :=
  !(t < 0 || t % 8 ≠ 0 || (win : Int) < t + 8) && s.tileStatus win (base + t.toNat) t 6 == 0

/-- SHDR.CK (R294). -/
def State.doShdrCk (s : State) (win base : Nat) (x : UnitCmd) : Nat × State :=
  let pa := base + x.a.toNat
  let st := s.tileStatus win pa x.a.toNat 2
  let h := s.rdAt pa 0 8
  if st ≠ 0 then (st, s) else (0, s.store (pa + 3) 1 0 (cksOf (hdrKt h) (hdrM h) (tileMasks (s.rdAt pa) h)))

/-- A predicate returned to the strand that asked for it, if its seat still runs it. -/
def State.returnPred (s : State) (c : Nat) (x : UnitCmd) (v : Bool) : State :=
  match (s.seat c x.seat).runs x.ten x.lid x.idx, x.dst with
  | true, some g => s.deliverLast c x.seat g (b2n v)
  | _, _ => s

/-- What a command does in its window: its status and the state after. -/
def State.doUnit (s : State) (c win base : Nat) (x : UnitCmd) : Nat × State :=
  match x.op with
  | .sprune => (0, s.doSprune base x)
  | .sprunet => (0, s.doSprunet base x)
  | .sregrow => s.doSregrow win base x
  | .sexpand => s.doSexpand win base x
  | .scheck => (0, s.returnPred c x (s.scheckVal win base (offOf x.a.toNat)))
  | .shdrCk => s.doShdrCk win base x

/-- What a command reads of a tile at t, as far as it comes (R285): the header; the masks, if that and the extent are good; and, where values
says so and the tile is well formed, the values. -/
def State.tileReads (s : State) (win base t : Nat) (values : Bool) : List (Nat × Nat) :=
  let h := s.rdAt (base + t) 0 8
  let rows (off step n : Nat) : List (Nat × Nat) := (List.range 64).map (fun i => (t + off + i * step, n))
  (t, 8) :: (if hdrReason none h ≠ 0 || win < t + hdrExt h then []
    else rows (hdrOff h) (hdrMs h) (cdiv (hdrKt h) 8)
      ++ (if values && s.tileStatus win (base + t) t 6 == 0 then rows 8 (hdrRs h) (arrayBytes (hdrFmt h) (hdrKr h)) else []))

/-- The window bytes that a command reads and writes, in the order in which it comes to them, for the consumption of poisoned units (R285,
R294, R338). -/
def State.unitParts (s : State) (win base : Nat) (x : UnitCmd) : List (Nat × Nat) :=
  let dense (d kt : Nat) : List (Nat × Nat) := (List.range 64).map (fun i => (descAt d i 0, kt * descSize d))
  let kt (t : Nat) : Nat := hdrKt (s.rdAt (base + t) 0 8)
  let goes (t d : Nat) : Bool := s.tileStatus win (base + t) t 6 == 0 && decide (descEnd d (kt t) ≤ win)
  match x.op with
  | .sprune => dense x.a.toNat (hdrKt (paramHdr x.c.toNat)) ++ [(x.b.toNat, hdrExt (paramHdr x.c.toNat))]
  | .sprunet => dense x.a.toNat 64 ++ [(field x.b.toNat 0 28, hdrExt (paramHdr x.c.toNat)), (field x.b.toNat 32 28, hdrExt (paramHdr x.c.toNat))]
  | .sregrow =>
    let t := x.b.toNat
    let on := goes t x.a.toNat && field x.c.toNat 0 6 != 0
    s.tileReads win base t on ++ (if on then dense x.a.toNat (kt t) else [])
  | .sexpand =>
    let t := x.a.toNat
    let on := goes t x.b.toNat
    s.tileReads win base t on ++ (if on then dense x.b.toNat (kt t) else [])
  | .scheck =>
    let t := offOf x.a.toNat
    if t < 0 || t % 8 ≠ 0 || (win : Int) < t + 8 then [] else s.tileReads win base t.toNat false
  | .shdrCk => s.tileReads win base x.a.toNat false

/-! ## Meanings -/

/-- What stands against an SPRUNE (R292). -/
def State.sprunePre (s : State) (u : Issue) (a b c : R11) : Pre :=
  let (d, t, p) := (s.rd u .e a.toNat, offOf (s.rd u .e b.toNat), s.rd u .e c.toNat)
  s.unitPre u t [(descBad d, d), (paramBad p, p)] [denseAlign d, tileAlign t]
    [denseRegion d (hdrKt (paramHdr p)), tileRegion t (paramHdr p)]

/-- What stands against an SPRUNET (R292, R294). -/
def State.sprunetPre (s : State) (u : Issue) (a b c : R11) : Pre :=
  let (d, t, p) := (s.rd u .e a.toNat, s.rd u .e b.toNat, s.rd u .e c.toNat)
  let (t1, t2) : Int × Int := (field t 0 28, field t 32 28)
  s.unitPre u t1 [(descBad d, d), (field t 28 4 != 0 || field t 60 4 != 0, t), (paramBad p || hdrKt p != 64, p)]
    [denseAlign d, tileAlign t1, tileAlign t2]
    [denseRegion d 64, tileRegion t1 (paramHdr p), tileRegion t2 (paramHdr p)]

/-- What stands against an SREGROW (R292, R294). -/
def State.sregrowPre (s : State) (u : Issue) (a b c : R11) : Pre :=
  let (d, t, p) := (s.rd u .e a.toNat, offOf (s.rd u .e b.toNat), s.rd u .e c.toNat)
  s.unitPre u t [(descBad d, d), (decide (32 < p), p)] [denseAlign d, tileAlign t] [headerRegion t]

/-- What stands against an SEXPAND (R292, R294). -/
def State.sexpandPre (s : State) (u : Issue) (a b : R11) : Pre :=
  let (t, d) := (offOf (s.rd u .e a.toNat), s.rd u .e b.toNat)
  s.unitPre u t [(descBad d, d)] [tileAlign t, denseAlign d] [headerRegion t]

/-- SPRUNE (R292, R293). -/
def execSprune (g : Guard) (a b c : R11) (s : State) : Host.Outcome State Fault Refusal :=
  guarded s g (fun u => s.sprunePre u a b c) (fun u s' =>
    s'.issueUnit u .sprune (s.eword u a) (s.eword u b) (s.eword u c) none)

/-- SPRUNET (R292, R294). -/
def execSprunet (g : Guard) (a b c : R11) (s : State) : Host.Outcome State Fault Refusal :=
  guarded s g (fun u => s.sprunetPre u a b c) (fun u s' =>
    s'.issueUnit u .sprunet (s.eword u a) (s.eword u b) (s.eword u c) none)

/-- SREGROW (R292, R294). -/
def execSregrow (g : Guard) (a b c : R11) (s : State) : Host.Outcome State Fault Refusal :=
  guarded s g (fun u => s.sregrowPre u a b c) (fun u s' =>
    s'.issueUnit u .sregrow (s.eword u a) (s.eword u b) (s.eword u c) none)

/-- SEXPAND (R292, R294). -/
def execSexpand (g : Guard) (a b : R11) (s : State) : Host.Outcome State Fault Refusal :=
  guarded s g (fun u => s.sexpandPre u a b) (fun u s' =>
    s'.issueUnit u .sexpand (s.eword u a) (s.eword u b) 0 none)

/-- SCHECK (R294). -/
def execScheck (g : Guard) (d a : R11) (s : State) : Host.Outcome State Fault Refusal :=
  simple s g (fun u => s.issueUnit u .scheck (s.eword u a) 0 0 (some (s.dst u .q d.toNat)))

/-- The checks of the SHDR variants. -/
def State.shdrPre (s : State) (u : Issue) (a : R11) : Pre :=
  let t := offOf (s.rd u .e a.toNat)
  s.unitPre u t [] [tileAlign t] [headerRegion t]

/-- SHDR (R294): a Plain load of the header. -/
def execShdr (g : Guard) (d a : R11) (s : State) : Host.Outcome State Fault Refusal :=
  guarded s g (fun u => s.shdrPre u a) (fun u s' =>
    let t := s.rd u .e a.toNat
    let pas := [s.winPa u t]
    s'.pushPool u { blankAcc 8 (.load false) true t 8 with dst := some (s.dst u .e d.toNat) } pas (poolLat u.core pas 8 14))

/-- SHDR.W (R294): a Plain store of the header. -/
def execShdrW (g : Guard) (a c : R11) (s : State) : Host.Outcome State Fault Refusal :=
  guarded s g (fun u => s.shdrPre u a) (fun u s' =>
    let t := s.rd u .e a.toNat
    s'.pushPool u { blankAcc 8 .store true t 8 with data := s.rd u .e c.toNat } [s.winPa u t] 1)

/-- SHDR.CK (R294). -/
def execShdrCk (g : Guard) (a : R11) (s : State) : Host.Outcome State Fault Refusal :=
  guarded s g (fun u => s.shdrPre u a) (fun u s' => s'.issueUnit u .shdrCk (s.eword u a) 0 0 none)

/-- SPARSITY_CMD_COMPLETE (R291, R294): the oldest command of the unit acts, once what precedes it has performed; one that meets a
poisoned unit consumes the error and never completes (R338). -/
def execSparsityCmdComplete (c : Nat) (s : State) : Host.Outcome State Fault Refusal :=
  match (s.core c).unit with
  | [] => .next s
  | x :: r =>
    if x.dead || (s.die (dieOf c)).halted.isSome || !s.marked c x.seat x.mark x.ten x.lid x.idx then .next s
    else
      let d := dieOf c
      let base := s.windowPa x.ten x.lid d 0
      let win := s.windowSize x.ten x.lid d
      match firstSome (fun p => s.poisonIn (base + p.1) p.2) ((s.unitParts win base x).filter (fun p => p.1 + p.2 ≤ win)) with
      | some p => .next ((s.consume x.ten x.lid 2 4 (64 * p) (2 ^ 64 - 1)).modCore c (fun k => { k with unit := { x with dead := true } :: r }))
      | none =>
        let (st, s) := s.doUnit c win base x
        .next ((s.modCore c (fun k => { k with unit := r })).finishEngine x.ten c 9 x.num st)

end Sys2Proof.Machine
end

