-- ==== Sys2Proof/Machine/Engine.lean ====
section
/-! DEFINITION. Accesses of the copy and index engines: translation, homes, CHECKED pages and losses (R301, R310, R321, R324,
R338). -/

namespace Sys2Proof.Machine

open Sys2Proof

/-- The agent an engine acts for: the core it stands at, the strand, the engine's source port (R249), the command's number, and the modules lost
while it had a request outstanding to them (R382), and the translation it has asked for (R218). -/
structure Eng where
  core : Nat
  ten : Nat
  lid : Nat
  idx : Nat
  port : Nat
  num : Nat
  gone : List Nat := []
  ask : Option Ask := none
deriving DecidableEq, Repr

/-- The command as tracking entries name it (R324). -/
def Eng.cmd (e : Eng) : Nat := 1 + e.num * 16384 + e.port

/-- Why an engine's access does not go through: a failure with a status, a page not present with the KIND of its PAGE record, an error
consumed (class, physical and virtual address), a loss of a module, a home that does not answer yet, or a translation that is missing. -/
inductive Stop where
  | status (n : Nat)
  | page (va kind : Nat)
  | err (cls pa va : Nat)
  | lost (m : Nat)
  | wait (pa : Nat)
  | walk (va : Nat) (need : Need)
deriving DecidableEq, Repr

/-- What a home says to an engine's part at a physical and virtual address. -/
def Home.stop (pa va : Nat) : Home → Option Stop
  | .ok => none
  | .retired => some (.status 0x10)
  | .denied => some (.status 0x10)
  | .poison cls p => some (.err cls p va)
  | .integrity p => some (.err 4 p va)
  | .lost m => some (.lost m)
  | .silent => some (.wait pa)

/-- What a home answers to an engine: a module lost while the command had a request outstanding to it stays lost for it (R382). -/
def State.homeEng (s : State) (e : Eng) (pa key : Nat) : Home :=
  match moduleOf pa with
  | some m => if e.gone.contains m then .lost m else s.homeTen none e.ten pa key
  | none => s.homeTen none e.ten pa key

/-- A part within one line at a global address (R218, R310, R324). -/
def State.engPart (s : State) (e : Eng) (need : Need) (m : Mode) (va n : Nat) : Except Stop Part :=
  if 2 ^ 56 ≤ va then .error (.status 0x10)
  else match (match s.translate e.core e.ten e.lid va need with
    | .miss => (answerOf e.ask va need).getD .miss
    | x => x) with
    | .fail _ => .error (.status 0x10)
    | .absent => .error (.page va (needKind need))
    | .miss => .error (.walk va need)
    | .ok pa key cons => match (s.homeEng e pa key).stop pa va with
      | some x => .error x
      | none =>
        if cons = 1 && (s.raceAt e.ten e.lid e.idx m pa n).isSome then .error (.status 0x16) else .ok (pa, n, key)

/-- A range of global addresses cut at the ends of lines; k bounds the number of parts. -/
def State.engParts (s : State) (e : Eng) (need : Need) (m : Mode) : Nat → Nat → Nat → Except Stop (List Part)
  | 0, _, _ => .ok []
  | k + 1, va, n =>
    if n = 0 then .ok []
    else
      let h := min n (64 - va % 64)
      match s.engPart e need m (va % 2 ^ 64) h with
      | .error x => .error x
      | .ok p => match s.engParts e need m k (va + h) (n - h) with
        | .error x => .error x
        | .ok r => .ok (p :: r)

/-- A range of the strand's window on the engine's die: its limit, and the units it shares. -/
def State.engPool (s : State) (e : Eng) (off : Int) (n : Nat) : Except Stop (List Part) :=
  let d := dieOf e.core
  if off < 0 || (s.windowSize e.ten e.lid d : Int) < off + n then .error (.status 0x11)
  else
    let pa := s.windowPa e.ten e.lid d off.toNat
    match s.poisonIn pa n with
    | some p => .error (.err 2 (64 * p) (2 ^ 64 - 1))
    | none => if (s.die d).halted.isSome then .error (.wait pa) else .ok [(pa, n, 0)]

/-- A range in either space. -/
def State.engRange (s : State) (e : Eng) (pool : Bool) (need : Need) (m : Mode) (a : Int) (n : Nat) : Except Stop (List Part) :=
  if pool then s.engPool e a n else s.engParts e need m (n / 64 + 2) (wrapN 64 a) n

/-- What an engine's access has left beside its effect: its entry in the line of a CHECKED page, and the answer of another die (R324, R364). -/
def State.engTouch (s : State) (e : Eng) (need : Need) (m : Mode) (va n : Nat) : State :=
  match s.translate e.core e.ten e.lid va need with
  | .ok pa _ cons =>
    let s := if cons = 1 then s.noteBy e.ten e.lid e.idx e.cmd m pa n else s
    s.heardFrom (dieOf e.core) pa
  | .fail _ => s
  | .absent => s
  | .miss => s

/-- The same for a range cut at the ends of lines. -/
def State.engTouches (s : State) (e : Eng) (need : Need) (m : Mode) : Nat → Nat → Nat → State
  | 0, _, _ => s
  | k + 1, va, n =>
    if n = 0 then s
    else
      let h := min n (64 - va % 64)
      (s.engTouch e need m (va % 2 ^ 64) h).engTouches e need m k (va + h) (n - h)

/-- The same for a range in either space. -/
def State.engAct (s : State) (e : Eng) (pool : Bool) (need : Need) (m : Mode) (a : Int) (n : Nat) : State :=
  if pool then s else s.engTouches e need m (n / 64 + 2) (wrapN 64 a) n

/-- An addition or a reduction that has left the engine's die: its request is numbered, and the home keeps the old value in its replay
cache (R249, R250). -/
def State.engReply (s : State) (e : Eng) (pa m : Nat) : State :=
  let away (s : State) (d : Nat) : State :=
    if e.port < 8192 && d == dieOf e.core then s
    else
      let (n, s) := s.nextSeq e.port d
      s.keepReply d e.port n [m]
  match placeOf pa with
  | .hbm d => away s d
  | .pool d => away s d
  | .peer m => (s.nextSeq e.port (64 + m)).2
  | .host => s
  | .tl => s
  | .none => s

/-- A wait for a home noted with the tick it began (R364). -/
def waitNote (old : Option (Nat × Nat)) (now : Nat) : Option Stop → Option (Nat × Nat)
  | some (.wait pa) => some (match old with
    | none => (pa, now)
    | some (q, t) => if q = pa then (q, t) else (pa, now))
  | _ => none

/-- A page an engine waits for (R310, R220): a PAGE record is posted once. -/
def State.enginePage (s : State) (e : Eng) (va kind : Nat) : State := s.postPage (dieOf e.core) e.ten e.lid va kind

/-- An error an engine consumes (R338, R342): its command never completes. -/
def State.engineErr (s : State) (e : Eng) (agent cls pa va : Nat) : State := s.consumeAt e.ten e.lid cls agent pa va

/-- An element of a format added to another at its home (R246, R308): floating point under RNE, integers wrapping. -/
def redAdd (fmt m v : Nat) : Nat :=
  if 8 ≤ fmt then (m + v) % 2 ^ codeWidth fmt else (fAdd (codeFmt fmt) .rne false m v).bits

/-- The maximum of two elements of a format (R65, R308). -/
def redMax (fmt m v : Nat) : Nat :=
  if 8 ≤ fmt then (if sextN (codeWidth fmt) m < sextN (codeWidth fmt) v then v else m) else (fMinMax (codeFmt fmt) false true m v).bits

end Sys2Proof.Machine
end

