-- ==== Sys2Proof/Machine/Copy.lean ====
section
/-! DEFINITION. Copies: packets, geometry, conversion and reduction, COPY and COPYP, and a copy's completion (R304 to R313). -/

namespace Sys2Proof.Machine

open Sys2Proof

/-! ## The packet (R305, R306) -/

def CopyCmd.word (x : CopyCmd) (k : Nat) : Nat := (x.words.getD k 0).toNat
def CopyCmd.ctl (x : CopyCmd) : Nat := x.word 3
def CopyCmd.type (x : CopyCmd) : Nat := field (x.word 0) 48 8
def CopyCmd.sfmt (x : CopyCmd) : Nat := field x.ctl 4 4
def CopyCmd.dfmt (x : CopyCmd) : Nat := field x.ctl 8 4
def CopyCmd.red (x : CopyCmd) : Nat := field x.ctl 18 2
def CopyCmd.nd (x : CopyCmd) : Nat := field x.ctl 20 4
def CopyCmd.inc (x : CopyCmd) : Nat := field x.ctl 44 4
def CopyCmd.toRing (x : CopyCmd) : Bool := bitAt x.ctl 16
def CopyCmd.srcPool (x : CopyCmd) : Bool := bitAt x.ctl 14
def CopyCmd.dstPool (x : CopyCmd) : Bool := bitAt x.ctl 15
def CopyCmd.ringNum (x : CopyCmd) : Nat := field (x.word 2) 0 3
/-- Elements of dimension 0. -/
def CopyCmd.e0 (x : CopyCmd) : Nat := field (x.word 4) 0 32 + 1
/-- The words of the dimensions above 0 that are in use. -/
def CopyCmd.dims (x : CopyCmd) : List Nat := (List.range x.nd).map (fun k => x.word (5 + k))
/-- The words beyond. -/
def CopyCmd.rest (x : CopyCmd) : List Word := x.words.drop (5 + x.nd)

def dimCnt (w : Nat) : Nat := field w 0 12 + 1
def dimSrc (w : Nat) : Int := sextN 26 (field w 12 26)
def dimDst (w : Nat) : Int := sextN 26 (field w 38 26)

/-- A legal format of a copy. -/
def copyFmt (f : Nat) : Bool := f < 12

/-- Whether formats, reduction and .NS are legal together, the destination's place aside (R308). -/
def CopyCmd.fmtsOk (x : CopyCmd) : Bool :=
  let (sf, df) := (x.sfmt, x.dfmt)
  copyFmt sf && copyFmt df && (sf == df || fmtPairOk sf df)
    && (!bitAt x.ctl 17 || df == 3 || df == 4)
    && (!(isKb sf || isKb df) || x.e0 % 32 == 0)
    && (x.red == 0 || (x.red < 3 && (df == 0 || df == 1 || df == 2 || df == 10) && !isKb sf))

/-- Whether the zero fields of a packet are zero (R305 to R307). -/
def CopyCmd.zerosOk (x : CopyCmd) (hdrMask : Nat) : Bool :=
  x.word 0 &&& hdrMask == 0
    && field x.ctl 24 11 == 0 && field x.ctl 12 2 == 0 && field x.ctl 0 4 == 0
    && field (x.word 4) 32 32 == 0
    && x.rest.all (fun w => w == 0)
    && (!x.toRing || (field (x.word 2) 3 5 == 0 && field (x.word 2) 36 28 == 0))

/-- Header bits that must be zero: those of R181, NDEP and RERUN, with HINT's zero bits where HINT is read. -/
def copyHdrMask (queued : Bool) : Nat := 0x7F003F00FFFFFFFF + (if queued then 0x7000000000 else 0)

/-- Bytes of one element. -/
def elemBytes (f : Nat) : Nat := codeWidth f / 8

/-- Whether one side of a copy is aligned (R307). -/
def sideAligned (fmt addr : Nat) (steps : List Int) : Bool :=
  isKb fmt || (addr % elemBytes fmt == 0 && steps.all (fun x => x % (elemBytes fmt : Int) == 0))

def CopyCmd.aligned (x : CopyCmd) : Bool :=
  sideAligned x.sfmt (x.word 1) (x.dims.map dimSrc)
    && sideAligned x.dfmt (if x.toRing then field (x.word 2) 8 28 else x.word 2) (x.dims.map dimDst)

/-- The status that a packet fails with as it stands, 0 for none (R304, R310, R313): enabled is the copies expert enable, claim says
that the seat holds the M claim. -/
def CopyCmd.judge (x : CopyCmd) (enabled claim queued : Bool) : Nat :=
  if x.type = 3 && !enabled then 0x17
  else if (x.type ≠ 2 && x.type ≠ 3) || !x.zerosOk (copyHdrMask queued) || x.words.length < 5 + x.nd || !x.fmtsOk then 0x15
  else if queued && (x.srcPool || x.dstPool) then 0x15
  else if x.toRing && (queued || !claim) then 0x19
  else if !x.aligned then 0x12
  else 0

/-! ## Geometry (R307) -/

/-- Elements moved at a time: 32 where a side is a block format. -/
def CopyCmd.unitElems (x : CopyCmd) : Nat := if isKb x.sfmt || isKb x.dfmt then 32 else 1
/-- Bytes of a unit in a format. -/
def CopyCmd.unitBytes (x : CopyCmd) (f : Nat) : Nat := if isKb f then kbBits f / 8 else x.unitElems * elemBytes f
/-- Units of dimension 0, and of the whole copy. -/
def CopyCmd.units0 (x : CopyCmd) : Nat := x.e0 / x.unitElems
def CopyCmd.units (x : CopyCmd) : Nat := x.dims.foldl (fun a w => a * dimCnt w) x.units0

/-- The offsets that the dimensions above 0 add to source and destination, for an index over them. -/
def dimOffsets : List Nat → Nat → Int × Int
  | [], _ => (0, 0)
  | w :: r, k =>
    let i := k % dimCnt w
    let (a, b) := dimOffsets r (k / dimCnt w)
    (a + i * dimSrc w, b + i * dimDst w)

/-- Source and destination offsets of a unit from SRC and DST. -/
def CopyCmd.offsets (x : CopyCmd) (k : Nat) : Int × Int :=
  let (a, b) := dimOffsets x.dims (k / x.units0)
  let u := k % x.units0
  (a + (u * x.unitBytes x.sfmt : Nat), b + (u * x.unitBytes x.dfmt : Nat))

/-- A unit converted (R308). -/
def CopyCmd.convert (x : CopyCmd) (v : Nat) : Nat :=
  let (sf, df) := (x.sfmt, x.dfmt)
  if sf = df then v
  else if isKb df then (kbEncode df (fun i => convSource false sf df (field v (codeWidth sf * i) (codeWidth sf)))).1
  else if isKb sf then packElems (codeWidth df) (fun i => (convVal false (!bitAt x.ctl 17) .rne df (kbElem sf v i)).bits) 32
  else (convElem false (!bitAt x.ctl 17) .rne sf df v).bits

/-- The destination range of a unit: for a ring, its tile (R307). -/
def State.copyDst (s : State) (e : Eng) (x : CopyCmd) (off : Int) (n : Nat) : Except Stop (List Part) :=
  let red := x.red != 0
  match x.ring with
  | some (g, tile) =>
    let o := (field (x.word 2) 8 28 : Int) + off
    let r := (s.core e.core).mx.ring g
    if o < 0 || (r.tile : Int) < o + n then .error (.status 0x11) else s.engPool e (tile + o) n
  | none =>
    let a := if x.dstPool then sextN 64 (x.word 2) + off else (x.word 2 : Int) + off
    s.engRange e x.dstPool (if red then .atomic else .write) (if red then 4 else 2) a n

/-- Whether a destination may be reduced into: this package's pool or HBM (R308). -/
def redPlace (ps : List Part) : Bool :=
  ps.all (fun p => match placeOf p.1 with
    | .hbm _ => true
    | .pool _ => true
    | .host => false
    | .peer _ => false
    | .tl => false
    | .none => false)

/-- One unit read: its value as the destination takes it. -/
def State.copyRead (s : State) (e : Eng) (x : CopyCmd) (k : Nat) : Except Stop (Nat × State) :=
  let (a, _) := x.offsets k
  let src := if x.srcPool then sextN 64 (x.word 1) + a else (x.word 1 : Int) + a
  let n := x.unitBytes x.sfmt
  match s.engRange e x.srcPool .read 0 src n with
  | .error z => .error z
  | .ok ps => .ok (x.convert (s.partsVal ps), (s.partsFill ps).engAct e x.srcPool .read 0 src n)

/-- A value written to the destination of a unit, or reduced into it (R308). -/
def State.copyWrite (s : State) (e : Eng) (x : CopyCmd) (k v : Nat) : Except Stop State :=
  let (_, b) := x.offsets k
  let n := x.unitBytes x.dfmt
  let dst := if x.dstPool then sextN 64 (x.word 2) + b else (x.word 2 : Int) + b
  match s.copyDst e x b n with
  | .error z => .error z
  | .ok qs =>
    let pool := x.ring.isSome || x.dstPool
    if x.red = 0 then .ok ((s.partsStore qs v).engAct e pool .write 2 dst n)
    else if !redPlace qs then .error (.status 0x15)
    else
      let m := s.partsVal qs
      let s := s.partsStore qs (if x.red = 1 then redAdd x.dfmt m v else redMax x.dfmt m v)
      .ok ((s.engReply e ((qs.map Prod.fst).headD 0) m).engAct e pool .atomic 4 dst n)

/-- A copy under way: the state, the command with how far it has come, and what stops it. -/
structure CopyRun where
  s : State
  x : CopyCmd
  stop : Option Stop := none
deriving DecidableEq, Repr

/-- Whether a unit has been written. -/
def CopyCmd.wrote (x : CopyCmd) (k : Nat) : Bool := if x.red = 0 then k < x.next else x.did.contains k

/-- The value read for a unit that has not been written. -/
def CopyCmd.held (x : CopyCmd) (k : Nat) : Option Nat := (x.got.find? (fun p => p.1 == k)).map Prod.snd

/-- A unit read, unless it has been. -/
def CopyRun.read (e : Eng) (r : CopyRun) (k : Nat) : CopyRun :=
  if r.stop.isSome || r.x.units ≤ k || r.x.wrote k || (r.x.held k).isSome then r
  else match r.s.copyRead e r.x k with
    | .error z => { r with stop := some z }
    | .ok (v, s) => { r with s := s, x := { r.x with got := (k, v) :: r.x.got } }

/-- A unit written, unless it has been; without a reduction the units are written in their order, so that the highest linear index remains
(R301). -/
def CopyRun.write (e : Eng) (r : CopyRun) (k : Nat) : CopyRun :=
  if r.x.units ≤ k || r.x.wrote k || (r.x.red = 0 && k ≠ r.x.next) then r
  else
    let r := r.read e k
    match r.stop, r.x.held k with
    | none, some v => match r.s.copyWrite e r.x k v with
      | .error z => { r with stop := some z }
      | .ok s => { r with s := s, x := { r.x with
          got := r.x.got.filter (fun p => p.1 != k)
          next := if r.x.red = 0 then k + 1 else r.x.next
          did := if r.x.red = 0 then r.x.did else k :: r.x.did } }
    | _, _ => r

/-- One move of an order: 2k reads unit k, 2k + 1 writes it (log 14). -/
def CopyRun.move (e : Eng) (r : CopyRun) (m : Nat) : CopyRun := if m % 2 = 0 then r.read e (m / 2) else r.write e (m / 2)

/-- The units that have still to be written. -/
def CopyCmd.left (x : CopyCmd) : List Nat := if x.red = 0 then (List.range x.units).drop x.next else (List.range x.units).filter (fun k => !x.wrote k)

/-- A copy run on: some moves of an order, or, where that names none, all that is left. -/
def State.copyMoves (s : State) (e : Eng) (x : CopyCmd) (order : List Nat) : CopyRun :=
  if order.isEmpty then x.left.foldl (CopyRun.write e) { s := s, x := x } else order.foldl (CopyRun.move e) { s := s, x := x }

/-! ## Completion (R309, R310) -/

/-- The remote signal of a copy: a status, 0 when it was applied. -/
def State.remoteSignal (s : State) (x : CopyCmd) : Nat × State :=
  let c := 128 * field x.ctl 42 2 + 8 * field x.ctl 38 4 + field x.ctl 35 3
  let n := field x.ctl 48 8
  let k := s.core c
  if k.absent || k.ten != some x.ten then (0x18, s)
  else
    let v := k.semVal n + x.inc
    (if 65535 < v then 0x14 else 0, s.setCore c (k.setSem n (min 65535 v)))

/-- A copy that runs now: the state, the command with how far it has come, and its status once nothing more is to be read or written. A page
not present is noted on the command (R310). -/
def State.runCopy (s : State) (e : Eng) (x : CopyCmd) (order : List Nat) : State × CopyCmd × Option Nat :=
  if x.ended.isSome || x.status ≠ 0 then (s, x, some (x.ended.getD x.status))
  else
    let r := s.copyMoves e x order
    let y := { r.x with waits := waitNote x.waits s.tbase r.stop, ask := none }
    match r.stop with
    | none => (r.s, y, if order.isEmpty then some 0 else none)
    | some (.status n) => (r.s, y, some n)
    | some (.lost _) => (r.s, y, some 0x13)
    | some (.page va kind) => (r.s.enginePage e va kind, { y with stuck := some va }, none)
    | some (.err cls pa va) => (r.s.engineErr e 2 cls pa va, { y with dead := true }, none)
    | some (.wait _) => (r.s, y, none)
    | some (.walk va need) => (r.s, { y with ask := askFor x.ask va need }, none)

/-- The remote signal of a copy that has not failed, and its status (R309 step 2). -/
def State.signalCopy (s : State) (x : CopyCmd) (st : Nat) : Nat × State :=
  if st ≠ 0 || x.inc = 0 then (st, s) else s.remoteSignal x

/-- A channel's oldest command changed. -/
def Core.modChan (k : Core) (ch : Nat) (f : List CopyCmd → List CopyCmd) : Core :=
  { k with chans := tput k.chans ch (f (tget k.chans [] ch)) }

/-- The tile that a copy fills noted as filled, and with all that precede it counted (R280, R309 step 1). -/
def Matrix.fillTile (m : Matrix) (ch : Nat) (x : CopyCmd) (count : Bool) : Matrix :=
  match x.ring with
  | none => m
  | some (g, _) =>
    let r := (m.ring g).filled (ch, x.num)
    m.setRing g (if count then r.count r.resv else r)

/-- Whether the tile that a copy of a channel fills has been counted (R280). -/
def Matrix.counted (m : Matrix) (ch : Nat) (x : CopyCmd) : Bool :=
  match x.ring with
  | none => true
  | some (g, _) => !(m.ring g).resv.any (fun p => p.1 == (ch, x.num))

/-- A strand's copy that has ended with a status, at the head of its channel: its tile is counted first; the remote signal, the channel's timeline
and COMPL's follow in that order (R309). -/
def State.endChan (s : State) (c ch : Nat) (e : Eng) (x : CopyCmd) (st : Nat) : State :=
  let s := s.modCore c (fun k => { k with mx := k.mx.fillTile ch x true })
  if !(s.core c).mx.counted ch x then s.modCore c (fun k => k.modChan ch (fun l => { x with ended := some st } :: l.tail))
  else
    let s := s.modCore c (fun k => k.modChan ch List.tail)
    let (st, s) := (s.releaseCmd e.cmd).signalCopy x st
    (s.finishEngine x.ten c ch x.num st).finishCopy x st

/-- A strand's copy at the head of its channel run on; completed in the sequence of R309 once it has ended. -/
def State.completeChan (s : State) (c ch : Nat) (order : List Nat) : State :=
  match tget (s.core c).chans [] ch with
  | [] => s
  | x :: _ =>
    if x.stuck.isSome || x.dead || (s.die (dieOf c)).halted.isSome || !s.marked c x.seat x.mark x.ten x.lid x.idx then s
    else
      let e : Eng := ⟨c, x.ten, x.lid, x.idx, 16 * c + 4 + ch, x.num, x.gone, x.ask⟩
      match s.runCopy e x order with
      | (s, y, none) => s.modCore c (fun k =>
          let k := k.modChan ch (fun l => y :: l.tail)
          { k with mx := if y.left.isEmpty then k.mx.fillTile ch y false else k.mx })
      | (s, y, some st) => s.endChan c ch e y st

/-- The k-th queue copy of a tenancy run on, and completed once it has ended: its engine stands at die 0 (R313, log 26). -/
def State.completeQueued (s : State) (ten k : Nat) (order : List Nat) : State :=
  match (s.qcopies.filter (fun x => x.ten == ten))[k]? with
  | none => s
  | some x =>
    if x.stuck.isSome || x.dead || (s.die 0).halted.isSome then s
    else
      let same (y : CopyCmd) : Bool := y.ten == ten && y.num == x.num
      let e : Eng := ⟨0, ten, 0, 0, 8192, x.num, x.gone, x.ask⟩
      match s.runCopy e x order with
      | (s, y, none) => { s with qcopies := modifyFirst same (fun _ => y) s.qcopies }
      | (s, _, some st) =>
        let (st, s) := (s.releaseCmd e.cmd).signalCopy x st
        { s with qcopies := dropFirst same s.qcopies }.finishCopy x st

/-! ## COPY and COPYP (R311, R312) -/

/-- The command that a COPY or COPYP asks for, before it has a number. -/
def State.copyCmd (s : State) (u : Issue) (words : List Word) : CopyCmd :=
  let (ten, lid, idx) := s.who u
  let t := s.seat u.core u.seat
  let x : CopyCmd := { num := 0, words := words, ten := ten, lid := lid, idx := idx, seat := u.seat, mark := (s.core u.core).nextId }
  { x with status := x.judge (t.expert 5) t.claims false }

/-- What stands against a copy's issue: a full channel, and a ring with no free tile (R280, R304). -/
def State.copyPre (s : State) (u : Issue) (ch : Nat) (x : CopyCmd) : Pre :=
  if 16 ≤ (tget (s.core u.core).chans [] ch).length then .hold
  else if x.toRing && (x.status == 0 || x.status == 0x12) && ((s.core u.core).mx.ring x.ringNum).free == 0 then .block
  else .ok

/-- A copy issued: it takes its number, reserves its tile and its place on COPY's timelines, and the number returns. -/
def State.issueCopy (s : State) (u : Issue) (ch : Nat) (d : R11) (x : CopyCmd) : State :=
  let (n, s) := s.issueCmd u ch
  let (cn, s) := s.issueCompl x.ten x.handle
  let res := if x.toRing && (x.status == 0 || x.status == 0x12) then ((s.core u.core).mx.ring x.ringNum).reserve (ch, n) else none
  let s := match res with
    | none => s
    | some (_, r) => s.modMx u (fun m => m.setRing x.ringNum r)
  let y := { x with num := n, compl := cn, ring := res.map (fun p => (x.ringNum, p.1)) }
  (s.modCore u.core (fun k => k.modChan ch (fun l => l ++ [y]))).resultVar u 9 2 .e d.toNat n

/-- The words of the COPY packet that seven e registers form. -/
def State.copyWords (s : State) (u : Issue) (a : R11) : List Word :=
  BitVec.ofNat 64 (2 * 2 ^ 48) :: (List.range 7).map (fun k => BitVec.ofNat 64 (s.rd u .e (a.toNat + k)))

/-- n words at a window offset, as the strand reads them. -/
def State.poolWords (s : State) (u : Issue) (off n : Nat) : List Word :=
  (List.range n).map (fun k => BitVec.ofNat 64 (s.winBytes u (off + 8 * k) 8))

/-- The bytes of the packet at an offset: by its TYPE (R312). -/
def State.packetBytes (s : State) (u : Issue) (off : Nat) : Nat := if field (s.winBytes u off 8) 48 8 = 3 then 128 else 64

/-- COPYP's packet. -/
def State.copypCmd (s : State) (u : Issue) (a : R11) : CopyCmd :=
  let off := s.rd u .e a.toNat
  s.copyCmd u (s.poolWords u off (s.packetBytes u off / 8))

/-- The checks of COPYP (R312): its packet is read when nothing earlier holds it back. -/
def State.copypPre (s : State) (u : Issue) (a : R11) (ch : Nat) : Pre :=
  let off := s.rd u .e a.toNat
  let soff := sextN 64 off
  let trap := popTrap soff
  if off % 64 ≠ 0 then .trap (trapRec causeAlign 1 off 0 0)
  else if soff < 0 || (s.winSize u : Int) < soff + 64 then .trap trap
  else (s.winPre u [(soff, 128)]).and (
    if (s.winSize u : Int) < soff + s.packetBytes u off then .trap trap
    else s.copyPre u ch (s.copypCmd u a))

/-- COPY (R311). -/
def execCopy (g : Guard) (d a b : R11) (s : State) : Host.Outcome State Fault Refusal :=
  guarded s g (fun u => s.copyPre u b.toNat (s.copyCmd u (s.copyWords u a))) (fun u s' =>
    s'.issueCopy u b.toNat d (s.copyCmd u (s.copyWords u a)))

/-- COPYP (R312). -/
def execCopyp (g : Guard) (d a b : R11) (s : State) : Host.Outcome State Fault Refusal :=
  guarded s g (fun u => s.copypPre u a b.toNat) (fun u s' =>
    (s'.actFirst u [(sextN 64 (s.rd u .e a.toNat), 128)]).issueCopy u b.toNat d (s.copypCmd u a))

/-- COPY_COMPLETE (R309). -/
def execCopyComplete (r : CopyRef) (order : List Nat) (s : State) : Host.Outcome State Fault Refusal :=
  match r with
  | .chan c ch => .next (s.completeChan c ch order)
  | .queued ten k => .next (s.completeQueued ten k order)

end Sys2Proof.Machine
end

