-- ==== Sys2Proof/Machine/Index.lean ====
section
/-! DEFINITION. The X slot: lane forms, gathers and scatters of the index engine, hash tables and coordinate walks (R314 to R323). -/

namespace Sys2Proof.Machine

open Sys2Proof

/-! ## Lane forms (R315) -/

/-- The 32-bit lanes of an xv register. -/
def State.xlanes (s : State) (u : Issue) (n : Nat) : List Nat :=
  let v := s.rd u .xv n
  (List.range 64).map (fun l => field v (32 * l) 32)

/-- A lane of an xv register. -/
def State.xlane (s : State) (u : Issue) (n l : Nat) : Nat := field (s.rd u .xv n) (32 * l) 32

/-- A lane form: latency 2. -/
def xForm (s : State) (g : Guard) (d a : R11) (b : XB) (f : Nat → Nat → Nat) : Host.Outcome State Fault Refusal :=
  simple s g (fun u =>
    let bs := match b with
      | .reg n => s.xlanes u n.toNat
      | .lit k => List.replicate 64 k.toNat
    s.result u 7 2 .xv d.toNat (packList 32 (((s.xlanes u a.toNat).zip bs).map (fun p => f p.1 p.2))))

/-! ## Descriptors of gathers and scatters (R317, R319) -/

/-- The word of a descriptor: lanes 0 and 1, the base. -/
def State.xbase (s : State) (u : Issue) (c : R11) : Nat := s.xlane u c.toNat 0 + 2 ^ 32 * s.xlane u c.toNat 1

/-- The lanes of a gather or scatter: index, address and whether it is in range (R318). -/
def State.idxLanes (s : State) (u : Issue) (gr : Gran) (a c : R11) : List (Nat × Nat × Bool) :=
  let w := s.xlane u c.toNat 3
  let bound := s.xlane u c.toNat 2
  ((s.xlanes u a.toNat).take (256 / gr.bytes)).map (fun k =>
    (k, (s.xbase u c + k * field w 0 26) % 2 ^ 64, decide (k < bound)))

/-- OOB's record (R320). -/
def oobTrap (reason lane index bound : Nat) : TrapRec := trapRec causeOob (lane * 2 ^ 8 + reason) index bound 0

/-- The address traps of one lane (R319 step 2). -/
def State.laneTrap (s : State) (u : Issue) (pool : Bool) (g adr : Nat) : Option TrapRec :=
  if !pool && 2 ^ 56 ≤ adr then some (trapRec causeXlate 0 adr 0 0)
  else if pool && s.winSize u < adr + g then some (trapRec causeXlate 1 adr 0 0)
  else if adr % 4 ≠ 0 then some (trapRec causeAlign (b2n pool) adr 0 0)
  else none

/-- The checks of a gather or scatter (R319); add says that it is an XSCATA. -/
def State.idxPre (s : State) (u : Issue) (gr : Gran) (a c : R11) (add : Bool) : Pre :=
  let w := s.xlane u c.toNat 3
  let bound := s.xlane u c.toNat 2
  let ty := field w 27 2
  let lanes := s.idxLanes u gr a c
  if field w 29 3 ≠ 0 || ty = 3 || (!add && ty ≠ 0) then .trap (oobTrap 2 0 0 bound)
  else match firstSome (fun p => if p.2.2 then s.laneTrap u (bitAt w 26) gr.bytes p.2.1 else none) lanes with
    | some r => .trap r
    | none =>
      if bitAt (s.seat u.core u.seat).mode.modectl.toNat 1 then
        (match lanes.zipIdx.find? (fun p => !p.1.2.2) with
        | none => .ok
        | some p => .trap (oobTrap 1 p.2 p.1.1 bound))
      else .ok

/-- Whether a seat's index queues are full (R314). -/
def State.idxFull (s : State) (u : Issue) : Bool :=
  let mine := (s.core u.core).idx.filter (fun x => x.seat == u.seat)
  decide (8 ≤ mine.length) || decide (8 ≤ (mine.filter (fun x => x.op == 0)).length + (s.seat u.core u.seat).dataq.length)

/-- A command issued on timeline 8: out-of-range lanes set bit 62 of its error word (R319). -/
def State.issueIdx (s : State) (u : Issue) (op : Nat) (gr : Gran) (a c : R11) (data : Nat) : State :=
  let (ten, lid, idx) := s.who u
  let w := s.xlane u c.toNat 3
  let lanes := (s.idxLanes u gr a c).map Prod.snd
  let mark := (s.core u.core).nextId
  let (n, s) := s.issueCmd u 8
  let s := if lanes.any (fun p => !p.2) then s.markOob ten u.core else s
  s.modCore u.core (fun k => { k with idx := k.idx ++ [{
    num := n, ten := ten, lid := lid, idx := idx, seat := u.seat, mark := mark, op := op, gran := gr.bytes, glob := !bitAt w 26
    lanes := lanes, data := BitVec.ofNat 2048 data, fmt := field w 27 2, bundle := u.pc, seq := u.seq, pushed := (s.core u.core).now }] })

/-- What stands against a plain form: it holds while the queues are full (R314). -/
def State.pushPre (s : State) (u : Issue) (op : Nat) (gr : Gran) (a c : R11) : Pre :=
  if s.idxFull u then .hold else s.idxPre u gr a c (op == 2)

/-- A plain form. -/
def idxForm (s : State) (g : Guard) (op : Nat) (gr : Gran) (a c : R11) (data : Issue → Nat) : Host.Outcome State Fault Refusal :=
  guarded s g (fun u => s.pushPre u op gr a c) (fun u s' => s'.issueIdx u op gr a c (data u))

/-- Whether the .NB forms are enabled (R177). -/
def State.nbq (s : State) (u : Issue) : Bool := bitAt (s.seat u.core u.seat).mode.modectl.toNat 3

/-- What stands against a .NB form (R314). -/
def State.pushNbPre (s : State) (u : Issue) (op : Nat) (gr : Gran) (a c : R11) : Pre :=
  if s.idxFull u then (if s.nbq u then .ok else .hold) else s.idxPre u gr a c (op == 2)

/-- A .NB form (R314). -/
def idxNbForm (s : State) (g : Guard) (op : Nat) (gr : Gran) (d a c : R11) (data : Issue → Nat) : Host.Outcome State Fault Refusal :=
  guarded s g (fun u => s.pushNbPre u op gr a c) (fun u s' =>
    if s.idxFull u then s'.result u 7 1 .q (d.toNat % 8) 0
    else (s'.issueIdx u op gr a c (data u)).result u 7 1 .q (d.toNat % 8) 1)

/-! ## Performing gathers and scatters (R318, R321) -/

/-- A command under way: the state, the command with how far it has come, and what stops it. -/
structure IdxRun where
  s : State
  x : IdxCmd
  stop : Option Stop := none
deriving DecidableEq, Repr

/-- The engine of a command. -/
def IdxCmd.eng (x : IdxCmd) (c : Nat) : Eng := ⟨c, x.ten, x.lid, x.idx, 16 * c + 12, x.num, x.gone, x.ask⟩

/-- Some lanes or elements done. -/
def IdxCmd.past (x : IdxCmd) (ks : List Nat) : IdxCmd := { x with did := ks ++ x.did }

/-- A failure noted: the first stays. -/
def IdxCmd.fail (x : IdxCmd) (n : Nat) : IdxCmd := { x with status := if x.status = 0 then n else x.status }

/-- Some lanes or elements that end in a failure, or in a loss, or cannot go on (R321). -/
def IdxRun.stopped (r : IdxRun) (ks : List Nat) (adr : Nat) (z : Stop) : IdxRun :=
  match z with
  | .status n => { r with x := (r.x.fail n).past ks }
  | .lost m => { r with x := { (r.x.fail 0x13).past ks with lost := r.x.lost ++ [(adr, m)] } }
  | .page _ _ => { r with stop := some z }
  | .walk _ _ => { r with stop := some z }
  | .err _ _ _ => { r with stop := some z }
  | .wait _ => { r with stop := some z }

/-- The element of an XSCATA: bytes and format (R317). -/
def IdxCmd.elemFmt (x : IdxCmd) : Nat := if x.fmt = 0 then 0 else if x.fmt = 1 then 2 else 10

/-- Whether a host home refuses an addition of a format (R244). -/
def addRefused (fmt : Nat) (ps : List Part) : Bool :=
  fmt != 10 && ps.any (fun p => match placeOf p.1 with
    | .host => true
    | .hbm _ => false
    | .pool _ => false
    | .peer _ => false
    | .tl => false
    | .none => false)

/-- Bytes and number of the elements of a granule of an XSCATA. -/
def IdxCmd.elemBytes (x : IdxCmd) : Nat := codeWidth x.elemFmt / 8
def IdxCmd.perLane (x : IdxCmd) : Nat := x.gran / x.elemBytes

/-- One granule gathered: 0 for a lane out of range or after a failure, the tephra value after a loss. -/
def IdxRun.gather (c : Nat) (r : IdxRun) (l : Nat) : IdxRun :=
  let x := r.x
  let lane := x.lanes.getD l (0, false)
  let keep (v : Nat) (r : IdxRun) : IdxRun := if r.stop.isSome then r else { r with x := { r.x with got := (l, v) :: r.x.got } }
  if r.stop.isSome || x.lanes.length ≤ l || x.did.contains l then r
  else if !lane.2 then keep 0 { r with x := x.past [l] }
  else match r.s.engRange (x.eng c) (!x.glob) .read 0 lane.1 x.gran with
    | .ok ps =>
      let s := (r.s.partsFill ps).engAct (x.eng c) (!x.glob) .read 0 lane.1 x.gran
      keep (r.s.partsVal ps) { r with s := s, x := x.past [l] }
    | .error z => keep (match z with
      | .lost _ => 2 ^ (8 * x.gran) - 1
      | _ => 0) (r.stopped [l] lane.1 z)

/-- One granule scattered; the lanes go in their order, so that the highest one's data remains (R318). -/
def IdxRun.scatter (c : Nat) (r : IdxRun) (l : Nat) : IdxRun :=
  let x := r.x
  let lane := x.lanes.getD l (0, false)
  if r.stop.isSome || x.lanes.length ≤ l || l ≠ x.did.length then r
  else if !lane.2 then { r with x := x.past [l] }
  else match r.s.engRange (x.eng c) (!x.glob) .write 2 lane.1 x.gran with
    | .ok ps =>
      let s := (r.s.partsStore ps (field x.data.toNat (8 * x.gran * l) (8 * x.gran))).engAct (x.eng c) (!x.glob) .write 2 lane.1 x.gran
      { r with s := s, x := x.past [l] }
    | .error z => r.stopped [l] lane.1 z

/-- One element added: k numbers the elements of all lanes. No element of a granule that does not go through as a whole is added (R321). -/
def IdxRun.add (c : Nat) (r : IdxRun) (k : Nat) : IdxRun :=
  let x := r.x
  let w := x.elemBytes
  let (l, j) := (k / x.perLane, k % x.perLane)
  let lane := x.lanes.getD l (0, false)
  let all := (List.range x.perLane).map (fun j => l * x.perLane + j)
  if r.stop.isSome || x.lanes.length ≤ l || x.did.contains k then r
  else if !lane.2 then { r with x := x.past all }
  else match r.s.engRange (x.eng c) (!x.glob) .atomic 4 lane.1 x.gran with
    | .error z => r.stopped all lane.1 z
    | .ok ps =>
      if addRefused x.elemFmt ps then r.stopped all lane.1 (.status 0x10)
      else
        let at_ : Int := (lane.1 + j * w : Nat)
        match r.s.engRange (x.eng c) (!x.glob) .atomic 4 at_ w with
        | .error z => r.stopped all lane.1 z
        | .ok qs =>
          let m := r.s.partsVal qs
          let s := r.s.partsStore qs (redAdd x.elemFmt m (field x.data.toNat (8 * (x.gran * l + w * j)) (8 * w)))
          let s := (s.engReply (x.eng c) ((qs.map Prod.fst).headD 0) m).engAct (x.eng c) (!x.glob) .atomic 4 at_ w
          { r with s := s, x := x.past [k] }

/-- How many lanes, or elements, a command has. -/
def IdxCmd.count (x : IdxCmd) : Nat := if x.op = 2 then x.lanes.length * x.perLane else x.lanes.length

/-- A command run on: some lanes or elements of an order, or, where that names none, all that are left (log 14). -/
def IdxCmd.run (x : IdxCmd) (s : State) (c : Nat) (order : List Nat) : IdxRun :=
  (if order.isEmpty then List.range x.count else order).foldl
    (if x.op = 0 then IdxRun.gather c else if x.op = 1 then IdxRun.scatter c else IdxRun.add c) { s := s, x := x }

/-- The least time from a push to its data: that of a gather of one granule of 256 bytes through the aperture or from HBM (R362). -/
def State.gatherLat (s : State) (c : Nat) (x : IdxCmd) : Nat :=
  let (adr, on) := x.lanes.headD (0, false)
  if x.op ≠ 0 || x.gran ≠ 256 || !x.glob || !on then 0
  else match s.foresee c x.ten x.lid adr .read with
    | .ok pa _ _ => (match placeOf pa with
      | .pool d => if dieDist (dieOf c) d = 0 then (if localSlice c pa then 20 else 26) else if dieDist (dieOf c) d = 1 then 70 else 86
      | .hbm d => if dieDist (dieOf c) d = 0 then 44 else if dieDist (dieOf c) d = 1 then 96 else 112
      | .host => 0
      | .peer _ => 0
      | .tl => 0
      | .none => 0)
    | .fail _ => 0
    | .absent => 0
    | .miss => 0

/-- What a gather returns: the granules of its lanes. -/
def IdxCmd.gathered (x : IdxCmd) : List Nat := (List.range x.lanes.length).map (fun l => ((x.got.find? (fun p => p.1 == l)).map Prod.snd).getD 0)

/-- The losses of a command reported to the strand that issued it, if its seat still runs it (R321, R383, R384). -/
def State.idxLosses (s : State) (c : Nat) (x : IdxCmd) (lost : List (Nat × Nat)) : State :=
  lost.foldl (fun (s : State) p =>
    if (s.seat c x.seat).runs x.ten x.lid x.idx then
      let s := s.modSeat c x.seat (fun t => t.lose (if x.op = 2 then 2 else 1) p.2)
      if bitAt (s.seat c x.seat).mode.modectl.toNat 2 then
        s.deferTrap c x.seat ⟨causeRemlost, 5, p.1, x.bundle.toNat, p.2, true, x.seq⟩
      else s
    else s) s

/-- An index command of a seat put back with how far it has come. -/
def Core.keepIdx (k : Core) (i : Nat) (x : IdxCmd) : Core := { k with idx := modifyFirst (fun y => y.seat == i) (fun _ => x) k.idx }

/-- The oldest index command of a seat run on; completed once nothing of it is left. -/
def State.completeIdx (s : State) (c i : Nat) (gathers : Bool) (order : List Nat) : State :=
  match (s.core c).idx.find? (fun x => x.seat == i) with
  | none => s
  | some x =>
    if (x.op == 0) != gathers || x.stuck.isSome || x.dead || (s.die (dieOf c)).halted.isSome || !s.marked c i x.mark x.ten x.lid x.idx
        || (order.isEmpty && decide ((s.core c).now < x.pushed + s.gatherLat c x)) then s
    else
      let r := x.run s c order
      let y := { r.x with waits := waitNote x.waits s.tbase r.stop, ask := none }
      match r.stop with
      | some (.page va kind) => (r.s.enginePage (x.eng c) va kind).modCore c (fun k => k.keepIdx i { y with stuck := some va })
      | some (.walk va need) => r.s.modCore c (fun k => k.keepIdx i { y with ask := askFor x.ask va need })
      | some (.err cls pa va) => (r.s.engineErr (x.eng c) 3 cls pa va).modCore c (fun k => k.keepIdx i { y with dead := true })
      | some _ => r.s.modCore c (fun k => k.keepIdx i y)
      | none =>
        if !order.isEmpty then r.s.modCore c (fun k => k.keepIdx i y)
        else
          let s := (r.s.releaseCmd (x.eng c).cmd).modCore c (fun k => { k with idx := dropFirst (fun y => y.seat == i) k.idx })
          let s := if gathers && (s.seat c i).runs x.ten x.lid x.idx then
              s.modSeat c i (fun t => { t with dataq := t.dataq ++ [BitVec.ofNat 2048 (packList (8 * x.gran) y.gathered)] })
            else s
          (s.idxLosses c x y.lost).finishEngine x.ten c 8 x.num y.status

/-! ## Meanings -/

/-- XADD (R315). -/
def execXadd (g : Guard) (d a : R11) (b : XB) (s : State) : Host.Outcome State Fault Refusal :=
  xForm s g d a b (fun x y => (x + y) % 2 ^ 32)

/-- XMUL (R315). -/
def execXmul (g : Guard) (d a : R11) (b : XB) (s : State) : Host.Outcome State Fault Refusal :=
  xForm s g d a b (fun x y => x * y % 2 ^ 32)

/-- XAND (R315). -/
def execXand (g : Guard) (d a : R11) (b : XB) (s : State) : Host.Outcome State Fault Refusal :=
  xForm s g d a b (fun x y => x &&& y)

/-- XSHL (R315). -/
def execXshl (g : Guard) (d a : R11) (b : XB) (s : State) : Host.Outcome State Fault Refusal :=
  xForm s g d a b (fun x y => x * 2 ^ (y % 32) % 2 ^ 32)

/-- XSHR (R315). -/
def execXshr (g : Guard) (d a : R11) (b : XB) (s : State) : Host.Outcome State Fault Refusal :=
  xForm s g d a b (fun x y => x / 2 ^ (y % 32))

/-- The offset of an XLDP: lane 0 of xv[a], zero-extended, and the immediate. -/
def State.xldpOff (s : State) (u : Issue) (a : R11) (imm : Imm) : Int :=
  sextN 64 (addr64 (s.xlane u a.toNat 0) imm.value.toNat)

/-- XLDP (R316). -/
def execXldp (g : Guard) (d a : R11) (imm : Imm) (s : State) : Host.Outcome State Fault Refusal :=
  guarded s g (fun u => s.lanePre u (s.xldpOff u a imm) 4) (fun u s' =>
    let off := s.xldpOff u a imm
    let pas := (laneOffs off 4).map (fun o => s.winPa u o.toNat)
    s'.pushPool u { blankAcc 7 .xldp true (off64 off) 4 with dst := some (s.dst u .xv d.toNat) } pas (poolLat u.core pas 12 20))

/-- XPUSH (R318). -/
def execXpush (g : Guard) (gr : Gran) (a c : R11) (s : State) : Host.Outcome State Fault Refusal :=
  idxForm s g 0 gr a c (fun _ => 0)

/-- XPUSH.NB (R314). -/
def execXpushNb (g : Guard) (gr : Gran) (d a c : R11) (s : State) : Host.Outcome State Fault Refusal :=
  idxNbForm s g 0 gr d a c (fun _ => 0)

/-- XSCAT (R318). -/
def execXscat (g : Guard) (gr : Gran) (a b c : R11) (s : State) : Host.Outcome State Fault Refusal :=
  idxForm s g 1 gr a c (fun u => s.rd u .xv b.toNat)

/-- XSCAT.NB (R314). -/
def execXscatNb (g : Guard) (gr : Gran) (d a b c : R11) (s : State) : Host.Outcome State Fault Refusal :=
  idxNbForm s g 1 gr d a c (fun u => s.rd u .xv b.toNat)

/-- XSCATA (R318). -/
def execXscata (g : Guard) (gr : Gran) (a b c : R11) (s : State) : Host.Outcome State Fault Refusal :=
  idxForm s g 2 gr a c (fun u => s.rd u .xv b.toNat)

/-- XSCATA.NB (R314). -/
def execXscataNb (g : Guard) (gr : Gran) (d a b c : R11) (s : State) : Host.Outcome State Fault Refusal :=
  idxNbForm s g 2 gr d a c (fun u => s.rd u .xv b.toNat)

/-- The checks of XHASH and XINS (R322), whose descriptor has no BOUND (log 31). -/
def State.hashPre (s : State) (u : Issue) (c : R11) : Pre :=
  let base := s.xlane u c.toNat 0
  let w := s.xlane u c.toNat 2
  if base % 8 ≠ 0 then .trap (trapRec causeAlign 1 base 0 0)
  else if s.xlane u c.toNat 1 ≠ 0 || w < 1 || 25 < w then .trap (oobTrap 2 0 0 0)
  else if s.winSize u < base + 8 * 2 ^ w then .trap (trapRec causeXlate 1 base 0 0)
  else .ok

/-- The probe of a table put under way: keys, and the values to insert. -/
def State.pushHash (s : State) (u : Issue) (kind : AccKind) (d c : R11) (keys vals : Nat) : State :=
  let base := s.xlane u c.toNat 0
  let pas := [s.winPa u base]
  s.pushPool u { blankAcc 7 kind true base (8 * 2 ^ s.xlane u c.toNat 2) with
    data := keys, data2 := vals, dst := some (s.dst u .xv d.toNat) } pas (poolLat u.core pas 12 20)

/-- XHASH (R322). -/
def execXhash (g : Guard) (d a c : R11) (s : State) : Host.Outcome State Fault Refusal :=
  guarded s g (fun u => s.hashPre u c) (fun u s' => s'.pushHash u .xhash d c (s.rd u .xv a.toNat) 0)

/-- XINS (R322). -/
def execXins (g : Guard) (d a b c : R11) (s : State) : Host.Outcome State Fault Refusal :=
  guarded s g (fun u => s.hashPre u c) (fun u s' => s'.pushHash u .xins d c (s.rd u .xv a.toNat) (s.rd u .xv b.toNat))

/-- The check of XWALK's descriptor (R323): INDEX, LANE and BOUND are 0, for the descriptor has no BOUND (R320; log 31). -/
def State.walkPre (s : State) (u : Issue) (csr : Bool) (c : R11) : Pre :=
  if s.xlane u c.toNat 1 ≠ 0 || s.xlane u c.toNat 3 ≠ 0 || (!csr && s.xlane u c.toNat 2 ≠ 0) then
    .trap (oobTrap 2 0 0 0)
  else .ok

/-- XWALK (R323): its reads lie anywhere in the window. -/
def execXwalk (g : Guard) (csr : Bool) (d a c : R11) (s : State) : Host.Outcome State Fault Refusal :=
  guarded s g (fun u => s.walkPre u csr c) (fun u s' =>
    s'.pushPool u { blankAcc 7 (.xwalk csr) true 0 (s.winSize u) with
      data := s.rd u .xv c.toNat, data2 := s.rd u .xv a.toNat
      dst := some (s.dst u .xv d.toNat), dst2 := some (s.dst u .xv a.toNat) } [s.winPa u 0] 1)

/-- GATHER_ARRIVE (R314, R318). -/
def execGatherArrive (c : Nat) (p : GatherPart) (s : State) : Host.Outcome State Fault Refusal := .next (s.completeIdx c p.seat true p.lanes)

/-- SCATTER_COMPLETE (R314, R318). -/
def execScatterComplete (c i : Nat) (order : List Nat) (s : State) : Host.Outcome State Fault Refusal :=
  .next (s.completeIdx c i false order)

end Sys2Proof.Machine
end

