-- ==== Sys2Proof/Machine/Integer.lean ====
section
/-! DEFINITION. The integer forms that the I and the J slot share (R102 to R104), and the copies between files of the K slot
(R113, R114). -/

namespace Sys2Proof.Machine

open Sys2Proof

/-- The integer file of a slot. -/
def ijFile : IJ → File
  | .i => .i | .j => .j

/-- The value of a register of the syllable's own file (R95). -/
def State.ijRead (s : State) (u : Issue) (x : IJ) (n : R11) : Nat := s.rd u (ijFile x) n.toNat

/-- An integer form: X[d] takes a value with latency 1 (R102). -/
def intForm (s : State) (g : Guard) (x : IJ) (d : R11) (k : Issue → Nat) : Host.Outcome State Fault Refusal :=
  simple s g (fun u => s.result u x.slot.pos 1 (ijFile x) d.toNat (k u))

/-- An integer form of two registers. -/
def intForm2 (s : State) (g : Guard) (x : IJ) (d a b : R11) (f : Nat → Nat → Nat) : Host.Outcome State Fault Refusal :=
  intForm s g x d (fun u => f (s.ijRead u x a) (s.ijRead u x b))

/-- Leading zero bits of the low n bits (R102). -/
def clzN : Nat → Nat → Nat
  | 0, _ => 0
  | n + 1, x => if bitAt x n then 0 else 1 + clzN n x

/-- Rotation of 64 bits left by r (R102). -/
def rotl64 (x r : Nat) : Nat := (x * 2 ^ (r % 64)) % 2 ^ 64 + x / 2 ^ (64 - r % 64)

/-- The comparison a condition code selects (R48, R104). -/
def intCmp (cc a b : Nat) : Bool :=
  if cc = 0 then a == b
  else if cc = 1 then a != b
  else if cc = 2 then decide (sextN 64 a < sextN 64 b)
  else if cc = 3 then decide (sextN 64 a ≤ sextN 64 b)
  else if cc = 4 then decide (a < b)
  else decide (a ≤ b)

/-- A bit field taken out (R103). -/
def bfx (x pos len : Nat) : Nat := x / 2 ^ pos % 2 ^ len

/-- A bit field put in (R103): bits that would pass bit 63 are dropped. -/
def bfi (old x pos len : Nat) : Nat := setField old pos (min len (64 - pos)) x

/-! ## Integer meanings -/

/-- ADD (R102). -/
def execAdd (g : Guard) (x : IJ) (d a b : R11) (s : State) : Host.Outcome State Fault Refusal :=
  intForm2 s g x d a b (fun p q => addr64 p q)

/-- SUB (R102). -/
def execSub (g : Guard) (x : IJ) (d a b : R11) (s : State) : Host.Outcome State Fault Refusal :=
  intForm2 s g x d a b (fun p q => (p + 2 ^ 64 - q) % 2 ^ 64)

/-- ADDI (R102). -/
def execAddi (g : Guard) (x : IJ) (d a : R11) (imm : Imm) (s : State) : Host.Outcome State Fault Refusal :=
  intForm s g x d (fun u => addr64 (s.ijRead u x a) imm.value.toNat)

/-- MUL (R102). -/
def execMul (g : Guard) (x : IJ) (d a b : R11) (s : State) : Host.Outcome State Fault Refusal :=
  intForm2 s g x d a b (fun p q => p * q % 2 ^ 64)

/-- MULH (R102). -/
def execMulh (g : Guard) (x : IJ) (d a b : R11) (s : State) : Host.Outcome State Fault Refusal :=
  intForm2 s g x d a b (fun p q => wrapN 128 (sextN 64 p * sextN 64 q) / 2 ^ 64)

/-- MULHU (R102). -/
def execMulhu (g : Guard) (x : IJ) (d a b : R11) (s : State) : Host.Outcome State Fault Refusal :=
  intForm2 s g x d a b (fun p q => p * q / 2 ^ 64)

/-- AND (R102). -/
def execAnd (g : Guard) (x : IJ) (d a b : R11) (s : State) : Host.Outcome State Fault Refusal :=
  intForm2 s g x d a b (fun p q => p &&& q)

/-- OR (R102). -/
def execOr (g : Guard) (x : IJ) (d a b : R11) (s : State) : Host.Outcome State Fault Refusal :=
  intForm2 s g x d a b (fun p q => p ||| q)

/-- XOR (R102). -/
def execXor (g : Guard) (x : IJ) (d a b : R11) (s : State) : Host.Outcome State Fault Refusal :=
  intForm2 s g x d a b (fun p q => p ^^^ q)

/-- ANDN (R102). -/
def execAndn (g : Guard) (x : IJ) (d a b : R11) (s : State) : Host.Outcome State Fault Refusal :=
  intForm2 s g x d a b (fun p q => p &&& (2 ^ 64 - 1 - q))

/-- SHL (R102). -/
def execShl (g : Guard) (x : IJ) (d a b : R11) (s : State) : Host.Outcome State Fault Refusal :=
  intForm2 s g x d a b (fun p q => p * 2 ^ (q % 64) % 2 ^ 64)

/-- SHR (R102). -/
def execShr (g : Guard) (x : IJ) (d a b : R11) (s : State) : Host.Outcome State Fault Refusal :=
  intForm2 s g x d a b (fun p q => p / 2 ^ (q % 64))

/-- SAR (R102). -/
def execSar (g : Guard) (x : IJ) (d a b : R11) (s : State) : Host.Outcome State Fault Refusal :=
  intForm2 s g x d a b (fun p q => wrapN 64 (sextN 64 p / 2 ^ (q % 64)))

/-- ROT (R102). -/
def execRot (g : Guard) (x : IJ) (d a b : R11) (s : State) : Host.Outcome State Fault Refusal :=
  intForm2 s g x d a b (fun p q => rotl64 p q)

/-- MIN (R102). -/
def execMin (g : Guard) (x : IJ) (d a b : R11) (s : State) : Host.Outcome State Fault Refusal :=
  intForm2 s g x d a b (fun p q => if sextN 64 q < sextN 64 p then q else p)

/-- MAX (R102). -/
def execMax (g : Guard) (x : IJ) (d a b : R11) (s : State) : Host.Outcome State Fault Refusal :=
  intForm2 s g x d a b (fun p q => if sextN 64 p < sextN 64 q then q else p)

/-- MINU (R102). -/
def execMinu (g : Guard) (x : IJ) (d a b : R11) (s : State) : Host.Outcome State Fault Refusal :=
  intForm2 s g x d a b (fun p q => min p q)

/-- MAXU (R102). -/
def execMaxu (g : Guard) (x : IJ) (d a b : R11) (s : State) : Host.Outcome State Fault Refusal :=
  intForm2 s g x d a b (fun p q => max p q)

/-- CLZ (R102). -/
def execClz (g : Guard) (x : IJ) (d a : R11) (s : State) : Host.Outcome State Fault Refusal :=
  intForm s g x d (fun u => clzN 64 (s.ijRead u x a))

/-- POPC (R102). -/
def execPopc (g : Guard) (x : IJ) (d a : R11) (s : State) : Host.Outcome State Fault Refusal :=
  intForm s g x d (fun u => popCount 64 (s.ijRead u x a))

/-- BFX (R103). -/
def execBfx (g : Guard) (x : IJ) (d a pos len : R11) (s : State) : Host.Outcome State Fault Refusal :=
  intForm s g x d (fun u => bfx (s.ijRead u x a) pos.toNat len.toNat)

/-- BFI (R103). -/
def execBfi (g : Guard) (x : IJ) (d a pos len : R11) (s : State) : Host.Outcome State Fault Refusal :=
  intForm s g x d (fun u => bfi (s.ijRead u x d) (s.ijRead u x a) pos.toNat len.toNat)

/-- LI (R102). -/
def execLi (g : Guard) (x : IJ) (d : R11) (imm : Imm) (s : State) : Host.Outcome State Fault Refusal :=
  intForm s g x d (fun _ => imm.value.toNat)

/-- CMP (R104). -/
def execCmp (g : Guard) (x : IJ) (d a b cc : R11) (s : State) : Host.Outcome State Fault Refusal :=
  simple s g (fun u => s.result u x.slot.pos 1 .q (d.toNat % 8) (b2n (intCmp cc.toNat (s.ijRead u x a) (s.ijRead u x b))))

/-- SEL (R102). -/
def execSel (g : Guard) (x : IJ) (d a b c : R11) (s : State) : Host.Outcome State Fault Refusal :=
  intForm s g x d (fun u => if s.rd u .q (c.toNat % 8) = 1 then s.ijRead u x a else s.ijRead u x b)

/-! ## K slot -/

/-- A K form: a value into a register with a fixed latency, at the K position (R113). -/
def kForm (s : State) (g : Guard) (lat : Nat) (f : KFile) (d : R11) (k : Issue → Nat) : Host.Outcome State Fault Refusal :=
  simple s g (fun u => s.result u 10 lat f.file d.toNat (k u))

/-- A register of a file of a K syllable. -/
def State.kRead (s : State) (u : Issue) (f : KFile) (n : R11) : Nat := s.rd u f.file n.toNat

/-- The bit position and width of the element a selector names (R114). -/
def kElem (sel : Nat) : Nat × Nat := if bitAt sel 6 then (sel % 64 / 2 * 64, 64) else (sel % 64 * 32, 32)

/-- KMOV (R114). -/
def execKmov (g : Guard) (df sf : KFile) (d a : R11) (s : State) : Host.Outcome State Fault Refusal :=
  kForm s g 2 df d (fun u => s.kRead u sf a)

/-- KVEC (R114). -/
def execKvec (g : Guard) (df sf : KFile) (d a : R11) (s : State) : Host.Outcome State Fault Refusal :=
  kForm s g 3 df d (fun u => s.kRead u sf a)

/-- KEXT (R114): the selector is a register of the destination's file. -/
def execKext (g : Guard) (df sf : KFile) (d a b : R11) (s : State) : Host.Outcome State Fault Refusal :=
  kForm s g 3 df d (fun u =>
    let e := kElem (s.kRead u df b)
    field (s.kRead u sf a) e.1 e.2)

/-- KINS (R114): the selector is a register of the source's file, and the destination is read at issue. -/
def execKins (g : Guard) (df sf : KFile) (d a b : R11) (s : State) : Host.Outcome State Fault Refusal :=
  kForm s g 3 df d (fun u =>
    let e := kElem (s.kRead u sf b)
    setField (s.kRead u df d) e.1 e.2 (s.kRead u sf a))

/-- KBC (R114). -/
def execKbc (g : Guard) (df sf : KFile) (d a : R11) (s : State) : Host.Outcome State Fault Refusal :=
  kForm s g 3 df d (fun u => (mkVec 32 (fun _ => s.kRead u sf a)).toNat)

end Sys2Proof.Machine
end

