-- ==== Sys2Proof/Machine/Float.lean ====
section
/-! DEFINITION. The F slot: scalar floating point (R116 to R124). -/

namespace Sys2Proof.Machine

open Sys2Proof

/-- A value in the low bits of an f register, as a format of w bits reads it (R9). -/
def State.frd (s : State) (u : Issue) (w : Nat) (n : R11) : Nat := s.rd u .fr n.toNat % 2 ^ w

/-- A result of an F, V or W syllable with fixed latency and no flag. -/
def State.resultFpu (s : State) (u : Issue) (pos lat : Nat) (f : File) (n val : Nat) : State :=
  s.fly u pos lat (some (s.dst u f n)) val 0 true true

/-- A typed F form: F[d] takes a result with its flags (R118). -/
def fForm (s : State) (g : Guard) (lat : Nat) (d : R11) (k : Issue → FRes) : Host.Outcome State Fault Refusal :=
  simple s g (fun u => s.resultFp u 3 lat (some (s.dst u .fr d.toNat)) (k u).bits [(k u).fl])

/-- A typed F form of one source: format, FTZ and the value. -/
def fForm1 (s : State) (g : Guard) (t : FT) (lat : Nat) (d a : R11) (k : FFmt → Bool → Nat → FRes) :
    Host.Outcome State Fault Refusal :=
  fForm s g lat d (fun u => k (ftFmt t) (s.ftz u) (s.frd u (ftWidth t) a))

/-- A typed F form of two sources. -/
def fForm2 (s : State) (g : Guard) (t : FT) (lat : Nat) (d a b : R11) (k : FFmt → Bool → Nat → Nat → FRes) :
    Host.Outcome State Fault Refusal :=
  fForm s g lat d (fun u => k (ftFmt t) (s.ftz u) (s.frd u (ftWidth t) a) (s.frd u (ftWidth t) b))

/-- An F form that writes a predicate or a whole register and raises no flag. -/
def fPlain (s : State) (g : Guard) (lat : Nat) (f : File) (n : Nat) (k : Issue → Nat) : Host.Outcome State Fault Refusal :=
  simple s g (fun u => s.resultFpu u 3 lat f n (k u))

/-- The value of an FCVT result as the register holds it: an integer is sign-extended to 64 bits (R124). -/
def fcvtValue (dst bits : Nat) : Nat := if 8 ≤ dst then wrapN 64 (sextN (intWidth dst) bits) else bits

/-! ## Meanings -/

/-- FADD (R119). -/
def execFadd (g : Guard) (t : FT) (rm : RM) (d a b : R11) (s : State) : Host.Outcome State Fault Refusal :=
  fForm2 s g t 4 d a b (fun f z => fAdd f rm z)

/-- FSUB (R119). -/
def execFsub (g : Guard) (t : FT) (rm : RM) (d a b : R11) (s : State) : Host.Outcome State Fault Refusal :=
  fForm2 s g t 4 d a b (fun f z => fSub f rm z)

/-- FMUL (R119). -/
def execFmul (g : Guard) (t : FT) (rm : RM) (d a b : R11) (s : State) : Host.Outcome State Fault Refusal :=
  fForm2 s g t 4 d a b (fun f z => fMul f rm z)

/-- FFMA (R119, R71). -/
def execFfma (g : Guard) (t : FT) (rm : RM) (d a b c : R11) (s : State) : Host.Outcome State Fault Refusal :=
  fForm s g 4 d (fun u =>
    fFma (ftFmt t) rm (s.ftz u) false (s.frd u (ftWidth t) a) (s.frd u (ftWidth t) b) (s.frd u (ftWidth t) c))

/-- FDIV (R119). -/
def execFdiv (g : Guard) (t : FT) (rm : RM) (d a b : R11) (s : State) : Host.Outcome State Fault Refusal :=
  fForm2 s g t 14 d a b (fun f z => fDiv f rm z)

/-- FSQRT (R119). -/
def execFsqrt (g : Guard) (t : FT) (rm : RM) (d a : R11) (s : State) : Host.Outcome State Fault Refusal :=
  fForm1 s g t 14 d a (fun f z => fSqrt f rm z)

/-- FRSQ (R119). -/
def execFrsq (g : Guard) (t : FT) (rm : RM) (d a : R11) (s : State) : Host.Outcome State Fault Refusal :=
  fForm1 s g t 14 d a (fun f z => fRsq f rm z)

/-- FMIN (R120). -/
def execFmin (g : Guard) (t : FT) (d a b : R11) (s : State) : Host.Outcome State Fault Refusal :=
  fForm2 s g t 4 d a b (fun f z => fMinMax f z false)

/-- FMAX (R120). -/
def execFmax (g : Guard) (t : FT) (d a b : R11) (s : State) : Host.Outcome State Fault Refusal :=
  fForm2 s g t 4 d a b (fun f z => fMinMax f z true)

/-- FABS (R120). -/
def execFabs (g : Guard) (t : FT) (d a : R11) (s : State) : Host.Outcome State Fault Refusal :=
  fForm1 s g t 2 d a fAbs

/-- FNEG (R120). -/
def execFneg (g : Guard) (t : FT) (d a : R11) (s : State) : Host.Outcome State Fault Refusal :=
  fForm1 s g t 2 d a fNeg

/-- FCMP (R121). -/
def execFcmp (g : Guard) (t : FT) (d a b cc : R11) (s : State) : Host.Outcome State Fault Refusal :=
  fPlain s g 4 .q (d.toNat % 8) (fun u =>
    b2n (fCmp (ftFmt t) (s.ftz u) cc.toNat (s.frd u (ftWidth t) a) (s.frd u (ftWidth t) b)))

/-- FCLASS (R122). -/
def execFclass (g : Guard) (t : FT) (d a mask : R11) (s : State) : Host.Outcome State Fault Refusal :=
  fPlain s g 4 .q (d.toNat % 8) (fun u => b2n (bitAt mask.toNat (classOf (ftFmt t) (s.frd u (ftWidth t) a))))

/-- FCVT (R124): formats in c, .NS in bit 4 of b. -/
def execFcvt (g : Guard) (rm : RM) (d a b c : R11) (s : State) : Host.Outcome State Fault Refusal :=
  let src := c.toNat % 16
  let dst := c.toNat / 16 % 16
  fForm s g 4 d (fun u =>
    let r := convElem (s.ftz u) (!bitAt b.toNat 4) rm src dst (s.frd u (codeWidth src) a)
    ⟨fcvtValue dst r.bits, r.fl⟩)

/-- FSEL (R123). -/
def execFsel (g : Guard) (d a b c : R11) (s : State) : Host.Outcome State Fault Refusal :=
  fPlain s g 2 .fr d.toNat (fun u => if s.rd u .q (c.toNat % 8) = 1 then s.rd u .fr a.toNat else s.rd u .fr b.toNat)

/-- FLI (R123). -/
def execFli (g : Guard) (d : R11) (imm : Imm) (s : State) : Host.Outcome State Fault Refusal :=
  fPlain s g 1 .fr d.toNat (fun _ => imm.value.toNat)

/-- FLI.HI (R123): bits [28:0] of the immediate, three places up. -/
def execFliHi (g : Guard) (d : R11) (imm : Imm) (s : State) : Host.Outcome State Fault Refusal :=
  fPlain s g 1 .fr d.toNat (fun _ => imm.value.toNat % 2 ^ 29 * 8)

end Sys2Proof.Machine
end

