-- ==== Sys2Proof/Machine/Vector.lean ====
section
/-! DEFINITION. The V and the W slot: vector arithmetic, compares, conversions, rearrangement, integer lanes, indices, the index
data queue and the pool vector forms (R125 to R143). -/

namespace Sys2Proof.Machine

open Sys2Proof

/-- A vector result with the flags of its elements (R69): the elements of w bits side by side from element 0. -/
def State.resultVec (s : State) (u : Issue) (x : VW) (lat : Nat) (d : R11) (w : Nat) (rs : List FRes) : State :=
  s.resultFp u x.slot.pos lat (some (s.dst u (vwFile x) d.toNat)) (packList w (rs.map FRes.bits)) (rs.map FRes.fl)

/-- A typed form: element by element of its sources, under FTZ as the seat has it (R117, R128). -/
def vElem (s : State) (g : Guard) (x : VW) (t : FT) (lat : Nat) (d : R11) (src : List VSrc)
    (k : FFmt → Bool → Nat → Nat → Nat → FRes) : Host.Outcome State Fault Refusal :=
  vecForm s g x src (fun u vs s' =>
    let w := ftWidth t
    s'.resultVec u x lat d w ((List.range (2048 / w)).map (fun e =>
      k (ftFmt t) (s.ftz u) (elem (src1 vs) w e) (elem (src2 vs) w e) (elem (src3 vs) w e))))

/-- A form whose result is one vector value and which raises no flag. -/
def vPlain (s : State) (g : Guard) (x : VW) (lat : Nat) (d : R11) (src : List VSrc) (k : List Vec → Nat) :
    Host.Outcome State Fault Refusal :=
  vecForm s g x src (fun u vs s' => s'.resultFpu u x.slot.pos lat (vwFile x) d.toNat (k vs))

/-- An integer form of two elements of w bits (R138). -/
def vInt (s : State) (g : Guard) (x : VW) (w : IW) (d : R11) (a b : VSrc) (k : Nat → Nat → Nat → Nat) :
    Host.Outcome State Fault Refusal :=
  vPlain s g x 2 d [a, b] (fun vs => (mkVec w.bits (fun e => k w.bits (elem (src1 vs) w.bits e) (elem (src2 vs) w.bits e))).toNat)

/-- A bitwise form of 2,048 bits (R138). -/
def vBits (s : State) (g : Guard) (x : VW) (d : R11) (a b : VSrc) (k : Vec → Vec → Vec) : Host.Outcome State Fault Refusal :=
  vPlain s g x 2 d [a, b] (fun vs => (k (src1 vs) (src2 vs)).toNat)

/-- An approximate form (R135). -/
def vApprox (s : State) (g : Guard) (x : VW) (t : FT) (form : Nat) (d : R11) (a : VSrc) : Host.Outcome State Fault Refusal :=
  vElem s g x t 8 d [a] (fun _ ftz p _ _ => approx form t ftz p)

/-- The outcomes of a compare, element by element (R131). -/
def vCmpList (t : FT) (ftz : Bool) (cc : Nat) (a b : Vec) : List Bool :=
  (List.range (2048 / ftWidth t)).map (fun e => fCmp (ftFmt t) ftz cc (elem a (ftWidth t) e) (elem b (ftWidth t) e))

/-- A compare that writes a predicate (R131). -/
def vCmpPred (s : State) (g : Guard) (x : VW) (t : FT) (d : R11) (a b : VSrc) (cc : R11) (k : List Bool → Bool) :
    Host.Outcome State Fault Refusal :=
  vecForm s g x [a, b] (fun u vs s' =>
    s'.resultFpu u x.slot.pos 2 .q (d.toNat % 8) (b2n (k (vCmpList t (s.ftz u) cc.toNat (src1 vs) (src2 vs)))))

/-- One lane of VDOT (R133): a fused sum of two products into FP32. -/
def vDotLane (t : FT) (rm : RM) (ftz : Bool) (a b c : Vec) (l : Nat) : FRes :=
  let p := if t = .f32 then l / 2 * 2 else 2 * l
  let v (z : Vec) (e : Nat) : FVal := unpack (ftFmt t) ftz (elem z (ftWidth t) e)
  fused fp32 rm ftz [mulVal (v a p) (v b p), mulVal (v a (p + 1)) (v b (p + 1))] (unpack fp32 ftz (elem c 32 l))

/-! ## VCVT (R136) -/

/-- The exact value of source element i of a vector in a format, as a conversion into format d reads it. -/
def vcvtSource (ftz : Bool) (sf d : Nat) (a : Vec) (i : Nat) : FVal :=
  if isKb sf then kbElem sf (elem a (kbBits sf) (i / 32)) (i % 32)
  else convSource (ftz && !isKb d) sf d (elem a (codeWidth sf) i)

/-- A vector with elements of a format that is not a block format put from an element on. -/
def putElems (w : Nat) (v : Vec) (at0 : Nat) (rs : List Nat) : Vec :=
  BitVec.ofNat 2048 (setField v.toNat (w * at0) (w * rs.length) (packList w rs))

/-- The first source and the first destination element of a part, and how many it has (R136). -/
def vcvtPart (sf d p : Nat) : Nat × Nat × Nat :=
  let n := min (codeCount sf) (codeCount d)
  (n, if codeCount d < codeCount sf then p * n else 0, if codeCount sf < codeCount d then p * n else 0)

/-- VCVT's value and the flags of its elements, on the old destination (R136). -/
def vcvt (ftz sat : Bool) (rm : RM) (sf d p : Nat) (old a : Vec) : Vec × List Nat :=
  let (n, src0, dst0) := vcvtPart sf d p
  if isKb d then
    let bs := (List.range (n / 32)).map (fun b => kbEncode d (fun i => vcvtSource ftz sf d a (src0 + 32 * b + i)))
    let v := putElems (kbBits d) old (dst0 / 32) (bs.map Prod.fst)
    (BitVec.ofNat 2048 (v.toNat % 2 ^ (kbBits d * (2048 / kbBits d))), bs.flatMap (fun b => (List.range 32).map b.2))
  else
    let rs := (List.range n).map (fun i =>
      if isKb sf then convVal ftz sat rm d (vcvtSource ftz sf d a (src0 + i))
      else convElem ftz sat rm sf d (elem a (codeWidth sf) (src0 + i)))
    (putElems (codeWidth d) old dst0 (rs.map FRes.bits), rs.map FRes.fl)

/-! ## The index data queue (R140) -/

/-- Pushes of a seat that have not yet returned their data. -/
def State.pushesOut (s : State) (u : Issue) : Nat :=
  ((s.core u.core).idx.filter (fun x => x.seat == u.seat && x.op == 0)).length

/-- What a VPOPQ that needs n entries of the queue finds (R140, R281). -/
def State.popqPre (s : State) (u : Issue) (n : Nat) : Pre :=
  let have_ := (s.seat u.core u.seat).dataq.length
  let all := have_ + s.pushesOut u
  if n ≤ have_ then .ok else if n ≤ all then .hold else .trap (trapRec causeQimbal 1 all 0 0)

/-! ## Pool vector forms (R141, R142) -/

/-- The base offset of a pool vector form. -/
def State.vecOff (s : State) (u : Issue) (x : VW) (s4 : Bool) (a : R11) (imm : Imm) : Int :=
  sextN 64 (wrapN 64 ((s.rd u (vwIx x) (a.toNat % 16) * (if s4 then 4 else 256) : Nat) + sextN 64 imm.value.toNat))

/-- The stride of VLDPS. -/
def State.vecStride (s : State) (u : Issue) (x : VW) (a : R11) : Int := sextN 16 (s.rd u (vwIx x) (a.toNat / 16 % 16)) * 4

/-- A pool vector access: 64 lanes of 4 bytes at an offset and a stride. -/
def State.pushLanes (s : State) (u : Issue) (a : Acc) (off stride : Int) : State :=
  let pas := (laneOffs off stride).map (fun o => s.winPa u o.toNat)
  s.pushPool u a pas (poolLat u.core pas 12 20)

/-- A pool vector load (R142). -/
def vLoad (s : State) (g : Guard) (x : VW) (d : R11) (off stride : Issue → Int) : Host.Outcome State Fault Refusal :=
  guarded s g (fun u => s.lanePre u (off u) (stride u)) (fun u s' =>
    s'.pushLanes u { blankAcc x.slot.pos .vload true (off64 (off u)) 4 with dst := some (s.dst u (vwFile x) d.toNat) } (off u) (stride u))

/-! ## Meanings -/

/-- VADD (R128). -/
def execVadd (g : Guard) (x : VW) (t : FT) (rm : RM) (d : R11) (a b : VSrc) (s : State) : Host.Outcome State Fault Refusal :=
  vElem s g x t 4 d [a, b] (fun f z p q _ => fAdd f rm z p q)

/-- VSUB (R128). -/
def execVsub (g : Guard) (x : VW) (t : FT) (rm : RM) (d : R11) (a b : VSrc) (s : State) : Host.Outcome State Fault Refusal :=
  vElem s g x t 4 d [a, b] (fun f z p q _ => fSub f rm z p q)

/-- VMUL (R128). -/
def execVmul (g : Guard) (x : VW) (t : FT) (rm : RM) (d : R11) (a b : VSrc) (s : State) : Host.Outcome State Fault Refusal :=
  vElem s g x t 4 d [a, b] (fun f z p q _ => fMul f rm z p q)

/-- VFMA (R128, R71). -/
def execVfma (g : Guard) (x : VW) (t : FT) (rm : RM) (d : R11) (a b c : VSrc) (s : State) : Host.Outcome State Fault Refusal :=
  vElem s g x t 5 d [a, b, c] (fun f z p q r => fFma f rm z false p q r)

/-- VFMS (R128, R71). -/
def execVfms (g : Guard) (x : VW) (t : FT) (rm : RM) (d : R11) (a b c : VSrc) (s : State) : Host.Outcome State Fault Refusal :=
  vElem s g x t 5 d [a, b, c] (fun f z p q r => fFma f rm z true p q r)

/-- VMUL.ZG (R129): the result of VMUL; its resolved weight is taken at the bundle's issue (R88). -/
def execVmulZg (g : Guard) (x : VW) (t : FT) (rm : RM) (d : R11) (a b : VSrc) (s : State) : Host.Outcome State Fault Refusal :=
  vElem s g x t 4 d [a, b] (fun f z p q _ => fMul f rm z p q)

/-- VFMA.ZG (R129). -/
def execVfmaZg (g : Guard) (x : VW) (t : FT) (rm : RM) (d : R11) (a b c : VSrc) (s : State) : Host.Outcome State Fault Refusal :=
  vElem s g x t 5 d [a, b, c] (fun f z p q r => fFma f rm z false p q r)

/-- VFMS.ZG (R129). -/
def execVfmsZg (g : Guard) (x : VW) (t : FT) (rm : RM) (d : R11) (a b c : VSrc) (s : State) : Host.Outcome State Fault Refusal :=
  vElem s g x t 5 d [a, b, c] (fun f z p q r => fFma f rm z true p q r)

/-- VMIN (R130). -/
def execVmin (g : Guard) (x : VW) (t : FT) (d : R11) (a b : VSrc) (s : State) : Host.Outcome State Fault Refusal :=
  vElem s g x t 2 d [a, b] (fun f z p q _ => fMinMax f z false p q)

/-- VMAX (R130). -/
def execVmax (g : Guard) (x : VW) (t : FT) (d : R11) (a b : VSrc) (s : State) : Host.Outcome State Fault Refusal :=
  vElem s g x t 2 d [a, b] (fun f z p q _ => fMinMax f z true p q)

/-- VABS (R130). -/
def execVabs (g : Guard) (x : VW) (t : FT) (d : R11) (a : VSrc) (s : State) : Host.Outcome State Fault Refusal :=
  vElem s g x t 2 d [a] (fun f z p _ _ => fAbs f z p)

/-- VNEG (R130). -/
def execVneg (g : Guard) (x : VW) (t : FT) (d : R11) (a : VSrc) (s : State) : Host.Outcome State Fault Refusal :=
  vElem s g x t 2 d [a] (fun f z p _ _ => fNeg f z p)

/-- VCMP (R131): all ones or zero in each element. -/
def execVcmp (g : Guard) (x : VW) (t : FT) (d : R11) (a b : VSrc) (cc : R11) (s : State) : Host.Outcome State Fault Refusal :=
  vecForm s g x [a, b] (fun u vs s' =>
    let w := ftWidth t
    s'.resultFpu u x.slot.pos 2 (vwFile x) d.toNat
      (packList w ((vCmpList t (s.ftz u) cc.toNat (src1 vs) (src2 vs)).map (fun p => if p then 2 ^ w - 1 else 0))))

/-- VCMP.ANY (R131). -/
def execVcmpAny (g : Guard) (x : VW) (t : FT) (d : R11) (a b : VSrc) (cc : R11) (s : State) : Host.Outcome State Fault Refusal :=
  vCmpPred s g x t d a b cc (fun l => l.any id)

/-- VCMP.ALL (R131). -/
def execVcmpAll (g : Guard) (x : VW) (t : FT) (d : R11) (a b : VSrc) (cc : R11) (s : State) : Host.Outcome State Fault Refusal :=
  vCmpPred s g x t d a b cc (fun l => l.all id)

/-- VSEL (R132). -/
def execVsel (g : Guard) (x : VW) (w : IW) (d : R11) (a b c : VSrc) (s : State) : Host.Outcome State Fault Refusal :=
  vPlain s g x 2 d [a, b, c] (fun vs => (mkVec w.bits (fun e =>
    if elem (src3 vs) w.bits e != 0 then elem (src1 vs) w.bits e else elem (src2 vs) w.bits e)).toNat)

/-- VDOT (R133). -/
def execVdot (g : Guard) (x : VW) (t : FT) (rm : RM) (d : R11) (a b c : VSrc) (s : State) : Host.Outcome State Fault Refusal :=
  vecForm s g x [a, b, c] (fun u vs s' =>
    s'.resultVec u x 5 d 32 ((List.range 64).map (vDotLane t rm (s.ftz u) (src1 vs) (src2 vs) (src3 vs))))

/-- VRED (R134). -/
def execVred (g : Guard) (x : VW) (t : FT) (rm : RM) (d : R11) (a : VSrc) (s : State) : Host.Outcome State Fault Refusal :=
  vecForm s g x [a] (fun u vs s' => s'.resultVec u x 6 d (ftWidth t) [vRed t rm (s.ftz u) (src1 vs)])

/-- VSCAN (R134). -/
def execVscan (g : Guard) (x : VW) (t : FT) (rm : RM) (d : R11) (a : VSrc) (s : State) : Host.Outcome State Fault Refusal :=
  vecForm s g x [a] (fun u vs s' => s'.resultVec u x 8 d (ftWidth t) (vScan t rm (s.ftz u) (src1 vs)))

/-- VEXP2 (R135). -/
def execVexp2 (g : Guard) (x : VW) (t : FT) (d : R11) (a : VSrc) (s : State) : Host.Outcome State Fault Refusal :=
  vApprox s g x t 0 d a

/-- VLOG2 (R135). -/
def execVlog2 (g : Guard) (x : VW) (t : FT) (d : R11) (a : VSrc) (s : State) : Host.Outcome State Fault Refusal :=
  vApprox s g x t 1 d a

/-- VRCP (R135). -/
def execVrcp (g : Guard) (x : VW) (t : FT) (d : R11) (a : VSrc) (s : State) : Host.Outcome State Fault Refusal :=
  vApprox s g x t 2 d a

/-- VRSQ (R135). -/
def execVrsq (g : Guard) (x : VW) (t : FT) (d : R11) (a : VSrc) (s : State) : Host.Outcome State Fault Refusal :=
  vApprox s g x t 3 d a

/-- VCVT (R136): part and .NS in b, formats in c. -/
def execVcvt (g : Guard) (x : VW) (rm : RM) (d : R11) (a : VSrc) (b c : R11) (s : State) : Host.Outcome State Fault Refusal :=
  vecForm s g x [a] (fun u vs s' =>
    let old := BitVec.ofNat 2048 (s.rd u (vwFile x) d.toNat)
    let r := vcvt (s.ftz u) (!bitAt b.toNat 4) rm (c.toNat % 16) (c.toNat / 16 % 16) (b.toNat % 16) old (src1 vs)
    s'.resultFp u x.slot.pos 4 (some (s.dst u (vwFile x) d.toNat)) r.1.toNat r.2)

/-- VPERM (R137). -/
def execVperm (g : Guard) (x : VW) (d : R11) (a b c : VSrc) (s : State) : Host.Outcome State Fault Refusal :=
  vPlain s g x 3 d [a, b, c] (fun vs => (mkVec 32 (fun l =>
    let k := elem (src2 vs) 32 l % 128
    if k < 64 then elem (src1 vs) 32 k else elem (src3 vs) 32 (k - 64))).toNat)

/-- VBCAST (R137). -/
def execVbcast (g : Guard) (x : VW) (w : IW) (d : R11) (a : VSrc) (b : R11) (s : State) : Host.Outcome State Fault Refusal :=
  vPlain s g x 3 d [a] (fun vs => (mkVec w.bits (fun _ => elem (src1 vs) w.bits b.toNat)).toNat)

/-- VROTL (R137). -/
def execVrotl (g : Guard) (x : VW) (d : R11) (a : VSrc) (b : R11) (s : State) : Host.Outcome State Fault Refusal :=
  vPlain s g x 3 d [a] (fun vs => (mkVec 32 (fun l => elem (src1 vs) 32 ((l + 64 - b.toNat % 64) % 64))).toNat)

/-- VIADD (R138). -/
def execViadd (g : Guard) (x : VW) (w : IW) (d : R11) (a b : VSrc) (s : State) : Host.Outcome State Fault Refusal :=
  vInt s g x w d a b (fun _ p q => p + q)

/-- VIMUL (R138). -/
def execVimul (g : Guard) (x : VW) (w : IW) (d : R11) (a b : VSrc) (s : State) : Host.Outcome State Fault Refusal :=
  vInt s g x w d a b (fun _ p q => p * q)

/-- VAND (R138). -/
def execVand (g : Guard) (x : VW) (d : R11) (a b : VSrc) (s : State) : Host.Outcome State Fault Refusal :=
  vBits s g x d a b (fun p q => p &&& q)

/-- VOR (R138). -/
def execVor (g : Guard) (x : VW) (d : R11) (a b : VSrc) (s : State) : Host.Outcome State Fault Refusal :=
  vBits s g x d a b (fun p q => p ||| q)

/-- VXOR (R138). -/
def execVxor (g : Guard) (x : VW) (d : R11) (a b : VSrc) (s : State) : Host.Outcome State Fault Refusal :=
  vBits s g x d a b (fun p q => p ^^^ q)

/-- VSHL (R138). -/
def execVshl (g : Guard) (x : VW) (w : IW) (d : R11) (a b : VSrc) (s : State) : Host.Outcome State Fault Refusal :=
  vInt s g x w d a b (fun n p q => p * 2 ^ (q % n))

/-- VSHR (R138). -/
def execVshr (g : Guard) (x : VW) (w : IW) (d : R11) (a b : VSrc) (s : State) : Host.Outcome State Fault Refusal :=
  vInt s g x w d a b (fun n p q => p / 2 ^ (q % n))

/-- VIDX (R139): base in b, step in c. -/
def execVidx (g : Guard) (x : VW) (d b c : R11) (s : State) : Host.Outcome State Fault Refusal :=
  vPlain s g x 2 d [] (fun _ => (mkVec 32 (fun l => b.toNat + l * c.toNat)).toNat)

/-- VSETX (R139). -/
def execVsetx (g : Guard) (x : VW) (d : R11) (a : VSrc) (b : R11) (s : State) : Host.Outcome State Fault Refusal :=
  vecForm s g x [a] (fun u vs s' => s'.resultFpu u x.slot.pos 1 (vwIx x) d.toNat (elem (src1 vs) 32 b.toNat % 2 ^ 16))

/-- VSETX.ADD (R139): the literal is sign-extended from 11 bits. -/
def execVsetxAdd (g : Guard) (x : VW) (d a b : R11) (s : State) : Host.Outcome State Fault Refusal :=
  simple s g (fun u => s.resultFpu u x.slot.pos 1 (vwIx x) d.toNat (wrapN 16 (s.rd u (vwIx x) a.toNat + sextN 11 b.toNat)))

/-- VSETX.LI (R139). -/
def execVsetxLi (g : Guard) (x : VW) (d b : R11) (s : State) : Host.Outcome State Fault Refusal :=
  simple s g (fun u => s.resultFpu u x.slot.pos 1 (vwIx x) d.toNat b.toNat)

/-- VPOPQ (R140). -/
def execVpopq (g : Guard) (x : VW) (d : R11) (s : State) : Host.Outcome State Fault Refusal :=
  guarded s g (fun u => s.popqPre u 1) (fun u s' =>
    let q := (s.seat u.core u.seat).dataq
    (s'.modSeat u.core u.seat (fun t => { t with dataq := t.dataq.tail })).fly u x.slot.pos 2
      (some (s.dst u (vwFile x) d.toNat)) (q.headD 0).toNat 0 false true)

/-- VLDP (R142). -/
def execVldp (g : Guard) (x : VW) (s4 : Bool) (d a : R11) (imm : Imm) (s : State) : Host.Outcome State Fault Refusal :=
  vLoad s g x d (fun u => s.vecOff u x s4 a imm) (fun _ => 4)

/-- VSTP (R142): the data register is read at issue. -/
def execVstp (g : Guard) (x : VW) (s4 : Bool) (d a : R11) (imm : Imm) (s : State) : Host.Outcome State Fault Refusal :=
  guarded s g (fun u => s.lanePre u (s.vecOff u x s4 a imm) 4) (fun u s' =>
    let off := s.vecOff u x s4 a imm
    let pas := (laneOffs off 4).map (fun o => s.winPa u o.toNat)
    s'.pushPool u { blankAcc x.slot.pos .vstore true (off64 off) 4 with data := s.rd u (vwFile x) d.toNat } pas 1)

/-- VLDPS (R142). -/
def execVldps (g : Guard) (x : VW) (s4 : Bool) (d a : R11) (imm : Imm) (s : State) : Host.Outcome State Fault Refusal :=
  vLoad s g x d (fun u => s.vecOff u x s4 a imm) (fun u => s.vecStride u x a)

end Sys2Proof.Machine
end

