-- ==== Sys2Proof/Machine/Issue.lean ====
section
/-! DEFINITION. The issue of a bundle (R13 to R23, R29, R41, R82 to R91, R107, R156, R178, R192, R239, R254): a seat's next bundle is
fetched, decoded and judged, and it issues whole, waits, or is refused. -/

namespace Sys2Proof.Machine

open Sys2Proof

/-! ## What a syllable finds before its bundle issues -/

/-- A check that a syllable makes only when its guard holds (R11). -/
def State.whenGuard (s : State) (u : Issue) (g : Guard) (p : Pre) : Pre := if s.guard u g then p else .ok

/-- Whether the bundle holds a VPOPQ in the V slot whose guard is true: one in W then takes the entry after it. -/
def State.vPops (s : State) (u : Issue) : Bool :=
  u.syls.any (fun i => match i with
    | .vpopq g .v _ => s.guard u g
    | _ => false)

/-- What stands against a global access of the I slot. -/
def State.ldstPre (s : State) (u : Issue) (g : Guard) (va n : Nat) (m : Mode) : Pre := s.whenGuard u g (s.globalPre u va n m)

/-- What stands against an atomic of the I slot and of the J slot. -/
def State.agPre (s : State) (u : Issue) (g : Guard) (a : R11) (n : Nat) : Pre := s.whenGuard u g (s.atomPre u (s.rd u .i a.toNat) n)
def State.apPre (s : State) (u : Issue) (g : Guard) (a : R11) (n : Nat) : Pre := s.whenGuard u g (s.poolPre u (s.jOff u a 0) n n)

/-- What stands against a syllable, as its meaning judges it (R107). -/
def State.preOf (s : State) (u : Issue) : Instr → Pre
  | .call g _ _ => s.whenGuard u g (s.linkPre u)
  | .calli g _ _ => s.whenGuard u g (s.linkPre u)
  | .suspend g _ _ => s.whenGuard u g (s.tilePre u)
  | .yield g => s.whenGuard u g (s.tilePre u)
  | .halt g => s.whenGuard u g (s.haltPre u)
  | .tret g => s.whenGuard u g (s.tretPre u)
  | .ldg g z _ _ a imm => s.ldstPre u g (s.immVa u a imm) z.bytes 0
  | .stg g z _ a imm => s.ldstPre u g (s.immVa u a imm) z.bytes 2
  | .ldga g z _ _ a b => s.ldstPre u g (s.sumVa u a b) z.bytes 1
  | .stgl g z _ _ a b => s.ldstPre u g (s.sumVa u a b) z.bytes 3
  | .ldp g z _ _ a imm => s.whenGuard u g (s.poolPre u (s.jOff u a imm.value.toNat) z.bytes z.bytes)
  | .stp g z _ a imm => s.whenGuard u g (s.poolPre u (s.jOff u a imm.value.toNat) z.bytes z.bytes)
  | .ldpa g z _ _ a b => s.whenGuard u g (s.poolPre u (s.jOff u a (s.rd u .j b.toNat)) z.bytes z.bytes)
  | .stpl g z _ _ a b => s.whenGuard u g (s.poolPre u (s.jOff u a (s.rd u .j b.toNat)) z.bytes z.bytes)
  | .sqld g d a imm => s.whenGuard u g (s.sqldPre u d.toNat (s.jOff u a imm.value.toNat))
  | .agadd g w _ _ a _ => s.agPre u g a w.bytes
  | .agincw g w _ _ a _ => s.agPre u g a w.bytes
  | .agaddb g w _ _ a _ _ => s.agPre u g a w.bytes
  | .agcas g w _ _ a _ _ => s.agPre u g a w.bytes
  | .agxch g w _ _ a _ => s.agPre u g a w.bytes
  | .agmin g w _ _ a _ => s.agPre u g a w.bytes
  | .agmax g w _ _ a _ => s.agPre u g a w.bytes
  | .agand g w _ _ a _ => s.agPre u g a w.bytes
  | .agor g w _ _ a _ => s.agPre u g a w.bytes
  | .agxor g w _ _ a _ => s.agPre u g a w.bytes
  | .agfadd g w _ _ a _ => s.agPre u g a (fwBytes w)
  | .apadd g w _ _ a _ => s.apPre u g a w.bytes
  | .apincw g w _ _ a _ => s.apPre u g a w.bytes
  | .apaddb g w _ _ a _ _ => s.apPre u g a w.bytes
  | .apcas g w _ _ a _ _ => s.apPre u g a w.bytes
  | .apxch g w _ _ a _ => s.apPre u g a w.bytes
  | .apmin g w _ _ a _ => s.apPre u g a w.bytes
  | .apmax g w _ _ a _ => s.apPre u g a w.bytes
  | .apfadd g w _ _ a _ => s.apPre u g a (fwBytes w)
  | .vpopq g x _ => s.whenGuard u g (s.popqPre u (if x = .w && s.vPops u then 2 else 1))
  | .vldp g x s4 _ a imm => s.whenGuard u g (s.lanePre u (s.vecOff u x s4 a imm) 4)
  | .vstp g x s4 _ a imm => s.whenGuard u g (s.lanePre u (s.vecOff u x s4 a imm) 4)
  | .vldps g x s4 _ a imm => s.whenGuard u g (s.lanePre u (s.vecOff u x s4 a imm) (s.vecStride u x a))
  | .mcfg g _ _ => s.whenGuard u g (s.mcfgPre u)
  | .macc _ a b => s.maccPre u a.toNat b.toNat
  | .maccZg _ a b => s.maccPre u a.toNat b.toNat
  | .maccs _ a b => s.maccsPre u a.toNat b.toNat
  | .mpush g _ a _ c => s.whenGuard u g (s.mpushPre u a c)
  | .mdrain _ d _ => s.drainPre u d
  | .xldp g _ a imm => s.whenGuard u g (s.lanePre u (s.xldpOff u a imm) 4)
  | .xpush g gr a c => s.whenGuard u g (s.pushPre u 0 gr a c)
  | .xpushNb g gr _ a c => s.whenGuard u g (s.pushNbPre u 0 gr a c)
  | .xscat g gr a _ c => s.whenGuard u g (s.pushPre u 1 gr a c)
  | .xscatNb g gr _ a _ c => s.whenGuard u g (s.pushNbPre u 1 gr a c)
  | .xscata g gr a _ c => s.whenGuard u g (s.pushPre u 2 gr a c)
  | .xscataNb g gr _ a _ c => s.whenGuard u g (s.pushNbPre u 2 gr a c)
  | .xhash g _ _ c => s.whenGuard u g (s.hashPre u c)
  | .xins g _ _ _ c => s.whenGuard u g (s.hashPre u c)
  | .xwalk g csr _ _ c => s.whenGuard u g (s.walkPre u csr c)
  | .sprune g a b c => s.whenGuard u g (s.sprunePre u a b c)
  | .sprunet g a b c => s.whenGuard u g (s.sprunetPre u a b c)
  | .sregrow g a b c => s.whenGuard u g (s.sregrowPre u a b c)
  | .sexpand g a b => s.whenGuard u g (s.sexpandPre u a b)
  | .shdr g _ a => s.whenGuard u g (s.shdrPre u a)
  | .shdrW g a _ => s.whenGuard u g (s.shdrPre u a)
  | .shdrCk g a => s.whenGuard u g (s.shdrPre u a)
  | .csrrd g _ imm => s.whenGuard u g (if csrOf imm = 0x030 then s.fstatPre u else .ok)
  | .fence g sc k => s.whenGuard u g (s.fencePre u sc k)
  | .launch g _ a b => s.whenGuard u g (s.launchPre u (s.rd u .e a.toNat) b.toNat)
  | .copy g _ a b => s.whenGuard u g (s.copyPre u b.toNat (s.copyCmd u (s.copyWords u a)))
  | .copyp g _ a b => s.whenGuard u g (s.copypPre u a b.toNat)
  | .bpost g _ a _ _ => s.whenGuard u g (s.boardPre u (s.eword u a))
  | .bview g _ a => s.whenGuard u g (s.boardPre u (s.eword u a))
  | .bread g _ a _ _ => s.whenGuard u g (s.boardPre u (s.eword u a))
  | .badv g _ a _ => s.whenGuard u g (s.boardPre u (s.eword u a))
  | .bviewWord g _ _ _ => s.whenGuard u g (s.viewWordPre u)
  | .barr g _ a => s.whenGuard u g (s.barrPre u a.toNat)
  | .ringsetGeom g a b => s.whenGuard u g (s.ringPre u b.toNat (s.eword u a))
  | .ringsetAdvance g a b => s.whenGuard u g (s.ringAdvPre u b.toNat (field (s.rd u .e a.toNat) 0 9))
  | .tlbinv g a _ => s.whenGuard u g (flushPre (s.rd u .e a.toNat))
  | .icflush g a _ => s.whenGuard u g (flushPre (s.rd u .e a.toNat))
  | _ => .ok

/-- The state of a next outcome. -/
def nextOr (s : State) : Host.Outcome State Fault Refusal → State
  | .next t => t
  | _ => s

/-- A bundle's own access put under way, for what a later syllable of it reads at issue (R144, R227, R229, R276): the state is only
looked at. -/
def State.ownAccess (s : State) (u : Issue) (i : Instr) : State :=
  let t : State := { s with iss := some { u with checked := true } }
  match i with
  | .ldg g z sx d a imm => nextOr t (execLdg g z sx d a imm t)
  | .ldga g z sc d a b => nextOr t (execLdga g z sc d a b t)
  | .ldp g z sx d a imm => nextOr t (execLdp g z sx d a imm t)
  | .ldpa g z sc d a b => nextOr t (execLdpa g z sc d a b t)
  | .vldp g x s4 d a imm => nextOr t (execVldp g x s4 d a imm t)
  | .vldps g x s4 d a imm => nextOr t (execVldps g x s4 d a imm t)
  | .xldp g d a imm => nextOr t (execXldp g d a imm t)
  | .xhash g d a c => nextOr t (execXhash g d a c t)
  | .xwalk g csr d a c => nextOr t (execXwalk g csr d a c t)
  | .stg g z d a imm => nextOr t (execStg g z d a imm t)
  | .stgl g z sc d a b => nextOr t (execStgl g z sc d a b t)
  | .stp g z d a imm => nextOr t (execStp g z d a imm t)
  | .stpl g z sc d a b => nextOr t (execStpl g z sc d a b t)
  | .vstp g x s4 d a imm => nextOr t (execVstp g x s4 d a imm t)
  | .shdrW g a c => nextOr t (execShdrW g a c t)
  | .agadd g w o d a b => nextOr t (execAgadd g w o d a b t)
  | .agincw g w o d a b => nextOr t (execAgincw g w o d a b t)
  | .agaddb g w o d a b c => nextOr t (execAgaddb g w o d a b c t)
  | .agcas g w o d a b c => nextOr t (execAgcas g w o d a b c t)
  | .agxch g w o d a b => nextOr t (execAgxch g w o d a b t)
  | .agmin g w o d a b => nextOr t (execAgmin g w o d a b t)
  | .agmax g w o d a b => nextOr t (execAgmax g w o d a b t)
  | .agand g w o d a b => nextOr t (execAgand g w o d a b t)
  | .agor g w o d a b => nextOr t (execAgor g w o d a b t)
  | .agxor g w o d a b => nextOr t (execAgxor g w o d a b t)
  | .agfadd g w o d a b => nextOr t (execAgfadd g w o d a b t)
  | .apadd g w o d a b => nextOr t (execApadd g w o d a b t)
  | .apincw g w o d a b => nextOr t (execApincw g w o d a b t)
  | .apaddb g w o d a b c => nextOr t (execApaddb g w o d a b c t)
  | .apcas g w o d a b c => nextOr t (execApcas g w o d a b c t)
  | .apxch g w o d a b => nextOr t (execApxch g w o d a b t)
  | .apmin g w o d a b => nextOr t (execApmin g w o d a b t)
  | .apmax g w o d a b => nextOr t (execApmax g w o d a b t)
  | .apfadd g w o d a b => nextOr t (execApfadd g w o d a b t)
  | .xins g d a b c => nextOr t (execXins g d a b c t)
  | _ => s

/-- Window bytes that a syllable reads at issue: offset and count. -/
def State.issueReads (s : State) (u : Issue) : Instr → List (Int × Nat)
  | .macc _ a b => (s.scanPops u ((s.core u.core).mx.densePops a.toNat b.toNat)).2.1
  | .maccZg _ a b => (s.scanPops u ((s.core u.core).mx.densePops a.toNat b.toNat)).2.1
  | .maccs _ a b => s.beatReads u a.toNat b.toNat
  | .mpush g _ a _ c =>
    if s.guard u g && c.toNat == 2 then
      (s.scanPops u [(a.toNat, pushBytes ((s.core u.core).mx.stream a.toNat).fmt)]).2.1
    else []
  | .copyp g _ a _ => if s.guard u g then [(sextN 64 (s.rd u .e a.toNat), s.packetBytes u (s.rd u .e a.toNat))] else []
  | _ => []

/-- What the syllables of a bundle find, in slot order, each on a state in which the accesses of the bundle before it are under way;
and the first poisoned unit they would read. -/
def State.pres (s : State) (u : Issue) : List Instr → List Pre × Option Nat
  | [] => ([], none)
  | i :: r =>
    let p := s.preOf u i
    let bad := if p = .ok then s.poisonedRead u (s.issueReads u i) else none
    let (ps, bad') := (s.ownAccess u i).pres u r
    (p :: ps, match bad with
      | none => bad'
      | some x => some x)

/-! ## Interlocks (R16, R18 to R20, R178) -/

/-- The latency of a syllable's result: the figure of its entry, the least one for a variable latency (R16, R209). -/
def latencyOf : Instr → Nat
  | .kmov .. => 2 | .kvec .. => 3 | .kext .. => 3 | .kins .. => 3 | .kbc .. => 3
  | .ldg .. => 8 | .ldga .. => 8 | .ldp .. => 8 | .ldpa .. => 8
  | .agadd .. => 10 | .agincw .. => 10 | .agaddb .. => 10 | .agcas .. => 10 | .agxch .. => 10 | .agmin .. => 10 | .agmax .. => 10
  | .agand .. => 10 | .agor .. => 10 | .agxor .. => 10 | .agfadd .. => 10
  | .apadd .. => 10 | .apincw .. => 10 | .apaddb .. => 10 | .apcas .. => 10 | .apxch .. => 10 | .apmin .. => 10 | .apmax .. => 10
  | .apfadd .. => 10
  | .fadd .. => 4 | .fsub .. => 4 | .fmul .. => 4 | .ffma .. => 4 | .fdiv .. => 14 | .fsqrt .. => 14 | .frsq .. => 14
  | .fmin .. => 4 | .fmax .. => 4 | .fabs .. => 2 | .fneg .. => 2 | .fcmp .. => 4 | .fclass .. => 4 | .fcvt .. => 4 | .fsel .. => 2
  | .vadd .. => 4 | .vsub .. => 4 | .vmul .. => 4 | .vmulZg .. => 4 | .vfma .. => 5 | .vfms .. => 5 | .vfmaZg .. => 5
  | .vfmsZg .. => 5 | .vmin .. => 2 | .vmax .. => 2 | .vabs .. => 2 | .vneg .. => 2 | .vcmp .. => 2 | .vcmpAny .. => 2
  | .vcmpAll .. => 2 | .vsel .. => 2 | .vdot .. => 5 | .vred .. => 6 | .vscan .. => 8 | .vexp2 .. => 8 | .vlog2 .. => 8
  | .vrcp .. => 8 | .vrsq .. => 8 | .vcvt .. => 4 | .vperm .. => 3 | .vbcast .. => 3 | .vrotl .. => 3 | .viadd .. => 2
  | .vimul .. => 2 | .vand .. => 2 | .vor .. => 2 | .vxor .. => 2 | .vshl .. => 2 | .vshr .. => 2 | .vidx .. => 2
  | .vpopq .. => 2 | .vldp .. => 12 | .vldps .. => 12
  | .xadd .. => 2 | .xmul .. => 2 | .xand .. => 2 | .xshl .. => 2 | .xshr .. => 2 | .xldp .. => 12 | .xhash .. => 12 | .xins .. => 12
  | .xwalk .. => 12 | .shdr .. => 8 | .csrrd .. => 2 | .ringsetRd .. => 2 | .tlrd .. => 2 | .tlrdErr .. => 2 | .tlrdErrc .. => 2
  | .copy .. => 2 | .copyp .. => 2 | .launch .. => 8
  | _ => 1

/-- The register a reference names, as the seat stands (R33, R149). -/
def Seat.regOf (t : Seat) : RegRef → Reg
  | .reg f n => bank t.tm f n
  | .ind f x off => ⟨f, t.indirect f x off⟩

/-- The registers a syllable reads, and those it writes with the latency of the write; q0 is a constant (R11). -/
def Seat.readsOf (t : Seat) (x : Syl) : List Reg := (x.reads.map t.regOf).filter (fun r => r != ⟨.q, 0⟩)
def Seat.writesOf (t : Seat) (x : Syl) : List (Reg × Nat) :=
  ((x.writes.map t.regOf).filter (fun r => r != ⟨.q, 0⟩)).map (fun r => (r, latencyOf x.instr))

/-- The destinations of an access. -/
def Acc.dsts (a : Acc) : List Reg :=
  a.dst.toList ++ a.dst2.toList ++ (match a.kind with
    | .xwalk _ => (a.dst.map Reg.next).toList
    | _ => [])

/-- Whether a wait for an access's data blocks its seat: a global load, atomic or LAUNCH (R178). -/
def Acc.blocks (a : Acc) : Bool := !a.pool

/-- What holds a bundle that reads and writes some registers back: a blocking destination, an interlock, and whether a result of
fixed latency is among its reasons (R18 to R20). -/
structure Busy where
  block : Bool := false
  hold : Bool := false
  fixed : Bool := false
deriving DecidableEq, Repr

/-- Whether a flight holds back a bundle at a cycle (R18). -/
def Flight.stalls (x : Flight) (now : Nat) (rd : List Reg) (wr : List (Reg × Nat)) : Bool :=
  match x.dst with
  | none => false
  | some r => (rd.contains r && decide (now < x.ready)) || wr.any (fun p => p.1 == r && decide (now + p.2 < x.ready))

/-- What the results of earlier bundles that are on their way do to a bundle of a seat. -/
def State.busy (s : State) (c i : Nat) (syls : List Syl) : Busy :=
  let t := s.seat c i
  let now := (s.core c).now
  let rd := syls.flatMap t.readsOf
  let wr := syls.flatMap t.writesOf
  let uses (r : Reg) : Bool := rd.contains r || wr.any (fun p => p.1 == r)
  let fl := t.flights.filter (fun x => (!x.fixed || !t.trusted) && x.stalls now rd wr)
  let as_ := t.accs.filter (fun a => a.dsts.any uses)
  let sig := t.sigs.any (fun g => g.dst.toList.any uses)
  let un := (s.core c).unit.any (fun x => x.seat == i && t.runs x.ten x.lid x.idx && x.dst.toList.any uses)
  { block := as_.any Acc.blocks
    hold := !fl.isEmpty || !as_.isEmpty || sig || un
    fixed := fl.any Flight.fixed }

/-! ## Read ports (R23) -/

/-- The registers of a file that a syllable reads, each once. -/
def Seat.fileReads (t : Seat) (f : File) (x : Syl) : List Nat :=
  (((x.reads.map t.regOf).filter (fun r => r.file == f)).map Reg.n).eraseDups

/-- Reads beyond n of a list. -/
def excess (n k : Nat) : Nat := k - n

/-- Extra cycles of a bundle for its excess reads; the register that an MPUSH reads counts as store data (R272). -/
def Seat.portExcess (t : Seat) (syls : List Syl) : Nat :=
  let of (f : File) (slots : List Slot) : List Nat :=
    (syls.filter (fun x => slots.contains x.slot)).flatMap (t.fileReads f)
  let banks (l : List Nat) : Nat := ((List.range 8).map (fun b => excess 2 (l.filter (fun n => n % 8 == b)).length)).sum
  banks (of .v [.v, .w, .m, .k]) + banks (of .w [.v, .w, .m, .k]) + excess 4 (of .i [.i, .k]).length

/-! ## Resolved weights (R88) -/

/-- Whether a 32-bit lane is active: some product in it has two non-zero factors. -/
def laneActive (t : FT) (ftz : Bool) (a b : Vec) (l : Nat) : Bool :=
  let w := ftWidth t
  (List.range (32 / w)).any (fun e =>
    nonZero (unpack (ftFmt t) ftz (elem a w (32 / w * l + e))) && nonZero (unpack (ftFmt t) ftz (elem b w (32 / w * l + e))))

/-- What a zero-gated syllable saves: its part above a base, of which n of 64 remain. -/
def zgSaving (weight base n : Nat) : Nat := (weight - base) - cdiv ((weight - base) * n) 64

/-- What a V or W form saves. -/
def State.vSaving (s : State) (u : Issue) (weight : Nat) (g : Guard) (x : VW) (t : FT) (a b : VSrc) : Nat :=
  let vs := s.vsrcs u x 0 [a, b]
  let n := if s.guard u g then ((List.range 64).filter (laneActive t (s.ftz u) (src1 vs) (src2 vs))).length else 0
  zgSaving weight 40 n

/-- What a syllable saves of its static weight. -/
def State.saving (s : State) (u : Issue) (x : Syl) : Nat :=
  match x.instr with
  | .vmulZg g w t _ _ a b => s.vSaving u x.weight g w t a b
  | .vfmaZg g w t _ _ a b _ => s.vSaving u x.weight g w t a b
  | .vfmsZg g w t _ _ a b _ => s.vSaving u x.weight g w t a b
  | .maccZg g a b => zgSaving x.weight 120 (if s.guard u g then s.activeRows u a.toNat b.toNat else 0)
  | _ => 0

/-- What the syllables of a bundle save, each judged with the writes of the bundle before it under way (R276). -/
def State.savings (s : State) (u : Issue) : List Syl → Nat
  | [] => 0
  | x :: r => s.saving u x + (s.ownAccess u x.instr).savings u r

/-! ## The caldera check (R82 to R89) -/

/-- The outcome of the caldera check. -/
inductive Caldera where
  | pass
  | throttle
  | energy (r : TrapRec)
deriving DecidableEq, Repr

/-- Whether the gear in force changed in the last 16 cycles (R86). -/
def Core.gearChanged (k : Core) : Bool :=
  match k.changed with
  | none => false
  | some n => decide (k.now ≤ n + 15)

/-- ENERGY's record (R86). -/
def energyRec (k : Core) (resolved strict : Bool) (limit : Bool) (wsum decl : Nat) : TrapRec :=
  trapRec causeEnergy wsum decl
    (b2n resolved * 2 ^ 11 + b2n strict * 2 ^ 10 + b2n limit * 2 ^ 9 + b2n k.gearChanged * 2 ^ 8
      + (if k.gearChanged then k.pgear else k.gear) * 2 ^ 4 + k.gear)
    (if limit then 2 * allowance k.gear else 16 * allowance k.gear)

/-- The caldera check of a bundle of a seat. -/
def caldera (k : Core) (t : Seat) (decl : Nat) : Caldera :=
  let resolved := bitAt t.mode.emode.toNat 1
  let strict := bitAt t.mode.emode.toNat 0 && !t.tm
  let wsum := windowSum k resolved decl
  if 2 * allowance k.gear < decl then .energy (energyRec k resolved strict true wsum decl)
  else if 16 * allowance k.gear < wsum then
    (if strict then .energy (energyRec k resolved strict false wsum decl) else .throttle)
  else .pass

/-! ## Accesses that a home checks first (R239), and board requests (R254) -/

/-- The global accesses of a syllable: address, bytes and mode. -/
def State.globalsOf (s : State) (u : Issue) (i : Instr) : List (Nat × Nat × Mode) :=
  let on (g : Guard) (va n : Nat) (m : Mode) : List (Nat × Nat × Mode) := if s.guard u g then [(va, n, m)] else []
  let at_ (g : Guard) (a : R11) (n : Nat) : List (Nat × Nat × Mode) := on g (s.rd u .i a.toNat) n 4
  match i with
  | .ldg g z _ _ a imm => on g (s.immVa u a imm) z.bytes 0
  | .stg g z _ a imm => on g (s.immVa u a imm) z.bytes 2
  | .ldga g z _ _ a b => on g (s.sumVa u a b) z.bytes 1
  | .stgl g z _ _ a b => on g (s.sumVa u a b) z.bytes 3
  | .agadd g w _ _ a _ => at_ g a w.bytes
  | .agincw g w _ _ a _ => at_ g a w.bytes
  | .agaddb g w _ _ a _ _ => at_ g a w.bytes
  | .agcas g w _ _ a _ _ => at_ g a w.bytes
  | .agxch g w _ _ a _ => at_ g a w.bytes
  | .agmin g w _ _ a _ => at_ g a w.bytes
  | .agmax g w _ _ a _ => at_ g a w.bytes
  | .agand g w _ _ a _ => at_ g a w.bytes
  | .agor g w _ _ a _ => at_ g a w.bytes
  | .agxor g w _ _ a _ => at_ g a w.bytes
  | .agfadd g w _ _ a _ => at_ g a (fwBytes w)
  | .launch g _ a _ => on g (s.rd u .e a.toNat) 64 0
  | _ => []

/-- The permission an access of a mode needs, and its place on a CHECKED page of HBM. -/
def State.checkOf (s : State) (u : Issue) (p : Nat × Nat × Mode) : Option (Nat × Nat × Nat × Nat) :=
  let (ten, lid, _) := s.who u
  match s.foresee u.core ten lid p.1 (needOf p.2.2) with
  | .ok pa _ cons => if cons = 1 && isHbm pa then some (p.1, pa, p.2.1, p.2.2) else none
  | .fail _ => none
  | .absent => none
  | .miss => none

/-- The accesses of a bundle that homes check. -/
def State.checksOf (s : State) (u : Issue) : List (Nat × Nat × Nat × Nat) :=
  (u.syls.flatMap (s.globalsOf u)).filterMap (s.checkOf u)

/-- What an E syllable reads at issue of registers that the strand's registers do not hold, whatever the bundle's other syllables do to
them and however long it is held (R95, R197, R239, R254, R279, R303). -/
def State.eRead (s : State) (u : Issue) : Instr → Option Nat
  | .csrrd _ _ imm => some (s.csr u.core u.seat (csrOf imm))
  | .tlrd _ _ b c => some ((s.eline (s.who u).1 (s.lineCore u c) b.toNat).value % 2 ^ 64)
  | .tlrdErr _ _ b c => some (s.eline (s.who u).1 (s.lineCore u c) b.toNat).err.toNat
  | .ringsetRd _ _ b => some ((s.core u.core).mx.ring b.toNat).word
  | _ => none

/-- The board request of a syllable: kind, handle, participant and value (R255 to R258). -/
def State.boardReq (s : State) (u : Issue) : Instr → Option (Nat × Word × Word × Word)
  | .bpost g _ a b c => if s.guard u g then some (0, s.eword u a, s.eword u b, s.eword u c) else none
  | .bview g _ a => if s.guard u g then some (1, s.eword u a, 0, 0) else none
  | .bread g _ a b _ => if s.guard u g then some (2, s.eword u a, s.eword u b, 0) else none
  | .badv g _ a b => if s.guard u g then some (3, s.eword u a, 0, s.eword u b) else none
  | _ => none

/-! ## Fetch and decode (R13, R14, R29, R41) -/

/-- What the judgement of a seat's next bundle comes to. -/
inductive Verdict where
  /-- It issues. -/
  | issue (u : Issue)
  /-- A hold-line cycle; for a result of fixed latency, or an MDRAIN's bank (R19, R267). -/
  | hold (fixed : Bool)
  | throttle
  /-- Extra cycles for read-port excess (R23). -/
  | extra (n : Nat)
  | block
  | page (va kind : Nat)
  /-- A translation that it cannot do without is walked for (R218). -/
  | walk (va : Nat) (need : Need)
  /-- A precise trap at the bundle. -/
  | trap (r : TrapRec)
  /-- BADTGT of a branch's target, with its TPC (R29). -/
  | target (tpc : Word) (r : TrapRec)
  /-- A poisoned unit consumed (R338): class, agent, physical and virtual address. -/
  | consume (cls agent pa va : Nat)
  /-- It waits for homes: its CHECKED accesses and its board request (R239, R254). -/
  | send (u : Issue) (check : List (Nat × Nat × Nat × Nat)) (board : Option (Nat × Word × Word × Word))
deriving DecidableEq, Repr

/-- n words of code from an address on; otherwise the address of the first that could not be fetched, and why. -/
def State.fetchWords (s : State) (c ten lid : Nat) (fresh : Bool) : Nat → Nat → Except (Nat × Fetch) (List Word)
  | 0, _ => .ok []
  | n + 1, va => match s.codeFetch c ten lid va fresh with
    | .word w => match s.fetchWords c ten lid fresh n (va + 8) with
      | .ok ws => .ok (w :: ws)
      | .error e => .error e
    | f => .error (va, f)

/-- The class of a poisoned unit (R343). -/
def State.poisonClass (s : State) (pa : Nat) : Nat :=
  match s.homeOne pa 0 with
  | .poison cls _ => cls
  | _ => 1

/-- What a fetch that finds no word comes to (R13, R219, R382). -/
def State.fetchVerdict (s : State) (va : Nat) : Fetch → Verdict
  | .word _ => .block
  | .fail r => .trap (trapRec causeXlate 0 va 0 r)
  | .page => .page va 3
  | .lost m => .trap (trapRec causeRemlost 4 va 0 m)
  | .poison pa => .consume (s.poisonClass pa) 1 (pa / 64 * 64) va
  | .tag pa => .consume 4 1 (pa / 64 * 64) va
  | .silent => .hold false

/-- BADTGT at an address that is no bundle's (R29; for an address reached in sequence or by TVEC, R151, log 30). -/
def badTarget (t : Seat) : Verdict :=
  match t.target with
  | some x => .target x.tpc (trapRec causeBadtgt (align8 t.pc + (if x.mis then 1 else t.pc &&& 7)).toNat (b2n x.resumed) 0 0)
  | none => .trap (trapRec causeBadtgt t.pc.toNat 0 0 0)

/-- What decode asks of a seat. -/
def State.decCtx (s : State) (c : Nat) (t : Seat) (x : Strand) : DecCtx :=
  { vu := 128 * x.vu, wu := 128 * x.wu, claim := x.mclaim, delay := t.delay.count != 0
    fa := (s.core c).mx.fa, fb := (s.core c).mx.fb, lvl1 := t.lvl1 }

/-- The record of a decode trap (R42). -/
def decodeRec (e : DecTrap) : TrapRec := trapRec (if e.regRange then causeRegrange else causeIll) e.info0 e.info1 e.info2 0

/-- A seat's next bundle fetched and decoded: its words and its content. -/
def State.nextBundle (s : State) (c i : Nat) (x : Strand) (fresh : Bool) : Except Verdict (List Word × Bundle) :=
  let t := s.seat c i
  if t.pc &&& 7 ≠ 0 || (match t.target with
    | none => false
    | some y => y.mis) then .error (badTarget t)
  else match s.codeFetch c x.ten x.lid t.pc.toNat fresh with
    | .word w =>
      if !w.getLsbD 63 then .error (badTarget t)
      else match s.fetchWords c x.ten x.lid fresh (Bcw.of w).words t.pc.toNat with
        | .error (va, f) => .error (s.fetchVerdict va f)
        | .ok ws => match decodeBundle (s.decCtx c t x) ws with
          | .error e => .error (.trap (decodeRec e))
          | .ok b => .ok (ws, b)
    | f => .error (s.fetchVerdict t.pc.toNat f)

/-- A bundle put into an instruction buffer, in place of what stood there (R224). -/
def bufferBundle (ten va : Nat) (ws : List Word) (l : List Code) : List Code :=
  l.filter (fun x => !(x.ten == ten && overlaps x.va 8 va (8 * ws.length)))
    ++ (ws.zipIdx).map (fun p => ⟨ten, va + 8 * p.2, p.1, va, 8 * ws.length⟩)

/-- Whether a core's own instruction buffer supplies some word of a bundle. -/
def State.ownWord (s : State) (c ten : Nat) (fresh : Bool) (vas : List Nat) : Bool :=
  !fresh && vas.any (fun va => (s.core c).ibuf.any (fun x => x.ten == ten && x.va == va))

/-- A bundle that a core has fetched put into its own instruction buffer, and into its cluster's unless the core had words of it itself: what
another core has flushed does not come back through the cluster's (R223, R224). -/
def State.buffer (s : State) (c ten va : Nat) (ws : List Word) (own : Bool) : State :=
  let s := if own then s else s.modDie (dieOf c) (fun d => { d with
    clBuf := tput d.clBuf (clusterOf c) (bufferBundle ten va ws (tget d.clBuf [] (clusterOf c))) })
  s.modCore c (fun k => { k with ibuf := bufferBundle ten va ws k.ibuf })

/-- What the fetch of a word has left where no buffer supplied it: its line in the home's cache (R212). -/
def State.fetched (s : State) (c ten lid : Nat) (fresh : Bool) (va : Nat) : State :=
  if 2 ^ 56 ≤ va || (!fresh && (s.buffered c ten va).isSome) then s
  else match s.translate c ten lid va .fetch with
    | .ok pa key _ => s.prefetchLine pa key
    | .fail _ => s
    | .absent => s
    | .miss => s

/-- The words of the bundle at an address, as far as its BCW tells; none where the address is no bundle's (R29). -/
def State.bundleAddrs (s : State) (c ten lid : Nat) (fresh : Bool) (va : Nat) : List Nat :=
  if va % 8 ≠ 0 then []
  else match s.codeFetch c ten lid va fresh with
  | .word w => if w.getLsbD 63 then (List.range (Bcw.of w).words).map (fun k => va + 8 * k) else [va]
  | _ => [va]

/-- The first of some words whose translation is missing, all before it being fetched: the fetch asks for its walk (R13, R218). -/
def State.fetchMiss (s : State) (c ten lid : Nat) (fresh : Bool) : List Nat → Option Nat
  | [] => none
  | va :: r =>
    if va < 2 ^ 56 && (fresh || (s.buffered c ten va).isNone) && s.translate c ten lid va .fetch == .miss then some va
    else match s.codeFetch c ten lid va fresh with
      | .word _ => s.fetchMiss c ten lid fresh r
      | _ => none

/-- What a fetch without a cached translation comes to: what its walk has found, or the wait for it. -/
def State.missVerdict (s : State) (c i va : Nat) : Verdict :=
  match answerOf (s.seat c i).ask va .fetch with
  | some (.fail r) => s.fetchVerdict va (.fail r)
  | some .absent => s.fetchVerdict va .page
  | _ => .walk va .fetch

/-! ## The waits before a bundle (R174, R192, R223) -/

/-- A seat's wait tried: the state after, and whether nothing holds its next bundle back any more. -/
def State.tryWait (s : State) (c i : Nat) : State × Bool :=
  let t := s.seat c i
  let done (s : State) : State := s.modSeat c i (fun t => { t with wait := none })
  let (ten, _) := s.ownerOf c i
  let s := match t.wait with
    | none => s
    | some (.sem n _) => s.semComplete c n
    | some (.tl l n other) =>
      let k := match other with
        | none => c
        | some (cl, co) => 128 * dieOf c + 8 * cl + co
      if n.toNat ≤ (s.eline ten k l).value then done s else s
    | some (.phase _ _ _) => (s.arrivePhase c i).takePhase c i
    | some (.barr _ _ _ _ _) => s.takeBarr c i
    | some (.tlbinv base n cmds) =>
      if cmds ≤ s.pkg.tueNext - 1 || decide (s.pkg.tueWidx.toNat < cmds) then done (s.dropLocalTlb c ten base n) else s
    | some (.icflush base n seq) =>
      if t.accs.all (fun a => a.performed || !a.kind.writes || decide (seq ≤ a.seq && (seq < a.seq || 9 ≤ a.pos))) then
        done (s.dropBuffers c ten base n)
      else s
  (s, (s.seat c i).wait.isNone)

/-- A bundle's BCW wait tried: the state after, and whether it has been performed. -/
def State.tryBcw (s : State) (c i : Nat) (b : Bcw) : State × Bool :=
  if b.waitThr = 0 then (s, true)
  else
    let took (s : State) : Bool := match (s.seat c i).bcw with
      | .taken _ _ => true
      | .none => false
      | .pending _ _ => false
    if took s then (s, true)
    else
      let s := (s.modSeat c i (fun t => { t with bcw := .pending b.waitSem b.waitThr })).semComplete c b.waitSem
      (s, took s)

/-! ## The judgement -/

/-- The bundle a seat would issue. -/
def State.asIssue (s : State) (c i : Nat) (b : Bundle) : Issue :=
  let t := s.seat c i
  let sig := if b.bcw.sigInc = 0 then none else some (b.bcw.sigSem, b.bcw.sigInc)
  { core := c, seat := i, pc := t.pc, next := t.pc + BitVec.ofNat 64 (8 * b.bcw.words), seq := (s.core c).seq
    syls := b.syls.map Syl.instr, stall := b.bcw.stall, decl := b.bcw.weight
    sig0 := if b.bcw.sp then none else sig, sig1 := if b.bcw.sp then sig else none, hint := b.bcw.hint, cycle := (s.core c).now }

/-- Whether a syllable's hold is one that DEFICIT counts: an MDRAIN that waits for its bank (R267). -/
def fixedHold (i : Instr) (p : Pre) : Bool := i.isMdrain && p == .hold

/-- The first of the verdicts that interlocks and checks ask for. Interlocks come first, because a check reads guards and operands that
must be ready (R18); then a block, a page or a walk, a hold. -/
def preVerdict (syls : List Instr) (ps : List Pre) (b : Busy) : Option Verdict :=
  let hold := Verdict.hold (b.fixed || (syls.zip ps).any (fun p => fixedHold p.1 p.2))
  if b.block then some .block
  else if b.hold then some hold
  else if ps.contains .block then some .block
  else match firstSome (fun p => match p with
      | Pre.page va k => some (Verdict.page va k)
      | Pre.walk va need => some (Verdict.walk va need)
      | _ => none) ps with
    | some v => some v
    | none => if ps.contains .hold then some hold else none

/-- The first issue-time trap in slot order (R107). -/
def firstTrap (ps : List Pre) : Option TrapRec :=
  firstSome (fun p => match p with
    | Pre.trap r => some r
    | _ => none) ps

/-- A call that acts whose delay bundles' BCWs, fetched for the link, hold a poisoned unit or fail their tag check: the fetch
consumes it (R98, R338). -/
def State.linkPoison (s : State) (u : Issue) : Option Verdict :=
  if u.syls.any (fun i => match i with
    | .call g _ _ => s.guard u g
    | .calli g _ _ => s.guard u g
    | _ => false) then
    let (ten, lid, _) := s.who u
    match s.afterBundles u.core ten lid 2 u.next with
    | .error (va, .poison pa) => some (s.fetchVerdict va.toNat (.poison pa))
    | .error (va, .tag pa) => some (s.fetchVerdict va.toNat (.tag pa))
    | _ => none
  else none

/-- The first access of a bundle to a CHECKED page without a cached translation: the check needs its walk (R218, R239). -/
def State.checkMiss (s : State) (u : Issue) : Option Verdict :=
  let (ten, lid, _) := s.who u
  firstSome (fun p =>
    if (s.checkOf u p).isSome && s.unwalked u.core ten lid (s.seat u.core u.seat).ask p.1 (needOf p.2.2) then
      some (Verdict.walk p.1 (needOf p.2.2))
    else none) (u.syls.flatMap (s.globalsOf u))

/-- A bundle whose waits are over judged against interlocks, hold-line conditions, the caldera and its syllables' checks, in the order
of R15 and R107. -/
def State.judge (s : State) (c i : Nat) (b : Bundle) : Verdict :=
  let t := s.seat c i
  let u := s.asIssue c i b
  let (ps, bad) := s.pres u u.syls
  match preVerdict u.syls ps (s.busy c i b.syls) with
  | some v => v
  | none =>
    let n := t.portExcess b.syls
    if n ≠ 0 && !t.ported then .extra n
    else match caldera (s.core c) t u.decl with
      | .throttle => .throttle
      | .energy r => .trap r
      | .pass => match firstTrap ps with
        | some r => .trap r
        | none => match bad.map (fun p => Verdict.consume 2 0 (64 * p) (2 ^ 64 - 1)) <|> s.linkPoison u <|> s.checkMiss u with
          | some v => v
          | none =>
            let u := { u with saved := s.savings u b.syls, eval := firstSome (s.eRead u) u.syls }
            let check := s.checksOf u
            let board := firstSome (s.boardReq u) u.syls
            if check.isEmpty && board.isNone then .issue u else .send u check board

/-- Whether a seat can issue at all. -/
def State.seatOpen (s : State) (c i : Nat) : Bool :=
  let t := s.seat c i
  match t.strand with
  | none => false
  | some x =>
    t.killed.isNone && t.leave.isNone && !t.restore && !t.halted && !t.halting && t.stuck.isNone && t.held.isNone
      && !(s.tenancy x.ten).killed && (s.tenancy x.ten).doom.isNone

/-- A seat's next bundle judged: the state with what its waits have done, and the verdict (R15). The words fetched enter the
instruction buffers. -/
def State.attempt (s : State) (c i : Nat) (fresh : Bool) : State × Verdict :=
  match (s.seat c i).strand with
  | none => (s, .block)
  | some x =>
    if !s.seatOpen c i then (s, .block)
    else match s.tryWait c i with
      | (s, false) => (s, .block)
      | (s, true) =>
        let va := (s.seat c i).pc.toNat
        let vas := s.bundleAddrs c x.ten x.lid fresh va
        match s.fetchMiss c x.ten x.lid fresh vas with
        | some va => (s, s.missVerdict c i va)
        | none =>
          let next := s.nextBundle c i x fresh
          let own := s.ownWord c x.ten fresh vas
          let s := vas.foldl (fun s va => s.fetched c x.ten x.lid fresh va) s
          match next with
          | .error v => (s, v)
          | .ok (ws, b) =>
            let s := s.buffer c x.ten va ws own
            match s.tryBcw c i b.bcw with
            | (s, false) => (s, .block)
            | (s, true) => (s, s.judge c i b)

/-! ## Gears (R91) -/

/-- A core at a gear point in a cycle: the next write of the die's gear register is adopted, 9 to 15 as 8. Of several with one gear point the
last counts, so that the change is the one from the gear in force before that cycle (R86). -/
def Core.adoptGear (k : Core) (v at_ : Nat) : Core :=
  let g := min 8 v
  let (g0, old) := if k.changed = some at_ then (k.pgear, k.oldChange) else (k.gear, k.pgear, k.changed)
  let k := { k with gear := g, gearSeen := k.gearSeen + 1, oldChange := old }
  if g = g0 then { k with pgear := old.1, changed := old.2 } else { k with pgear := g0, changed := some at_ }

/-- The gear writes that have reached a core by now at the latest, each with its own gear point: 63 cycles after the write, and in force a
cycle later. -/
def State.arriveGears (s : State) (c : Nat) : State :=
  let k := s.core c
  let due := ((s.die (dieOf c)).gears.drop k.gearSeen).filter (fun p => decide (p.2 + 64 ≤ k.now))
  s.setCore c (due.foldl (fun k p => k.adoptGear p.1 (p.2 + 64)) k)

/-! ## What follows a verdict -/

/-- The number of the next bundle used. -/
def State.bumpSeq (s : State) (c : Nat) : State := s.modCore c (fun k => { k with seq := k.seq + 1 })

/-- No seat runs on the core until one is chosen (R178). -/
def State.unseat (s : State) (c i : Nat) : State :=
  s.modCore c (fun k => { k with running := none, last := i, bubbled := false, gaveUp := false })

/-- A cycle in which a seat's bundle does not issue. -/
def State.blockSeat (s : State) (c i : Nat) : State :=
  ((s.idle c 1).modSeat c i (fun t => { t with holding := false })).unseat c i

/-- A bundle held: the core stays with its seat (R178). -/
def State.holdSeat (s : State) (c i : Nat) : State := s.modSeat c i (fun t => { t with holding := true })

/-- DEFICIT's count for a hold of fixed latency, once for the bundle (R19). -/
def State.countDeficit (s : State) (c i : Nat) (fixed : Bool) : State :=
  if fixed && !(s.seat c i).counted then
    (s.modCore c (fun k => { k with deficit := k.deficit + 1 })).modSeat c i (fun t => { t with counted := true })
  else s

/-- The translation that a seat's bundle asked for needed no more. -/
def State.dropAsk (s : State) (c i : Nat) : State := s.modSeat c i (fun t => { t with ask := none })

/-- What a verdict does. -/
def State.carry (s : State) (c i : Nat) : Verdict → State
  | .issue u => { ((s.dropAsk c i).bumpSeq c).signalEarly u with iss := some { u with checked := true, sig0 := none } }
  | .hold fixed => ((s.countDeficit c i fixed).idle c 1).holdSeat c i
  | .throttle => ((s.modCore c (fun k => { k with ehold := k.ehold + 1 })).idle c 1).holdSeat c i
  | .extra n => (((s.modCore c (fun k => { k with bconf := k.bconf + BitVec.ofNat 64 n })).idle c n).modSeat c i (fun t =>
      { t with ported := true })).holdSeat c i
  | .block => s.blockSeat c i
  | .page va kind => ((s.dropAsk c i).blockSeat c i).pageSuspend c i va kind
  | .walk va need => ((s.idle c 1).holdSeat c i).modSeat c i (fun t => { t with ask := askFor t.ask va need })
  | .trap r => (s.dropAsk c i).preciseTrap c i r
  | .target tpc r => (s.idle c 1).takeTrap c i r tpc {} (if r.info0 % 2 = 1 then none else some (s.seat c i).pc)
  | .consume cls agent pa va =>
    let (ten, lid) := s.ownerOf c i
    (s.consumeAt ten lid cls agent pa va).blockSeat c i
  | .send u check board =>
    let due := (s.core c).now + (match board with
      | none => 0
      | some (_, h, _, _) => boardLat c h)
    let s := ((s.bumpSeq c).placeBundle u).modSeat c i (fun t => { t with
      ask := none
      held := some {
        iss := u, board := board, check := check, due := due, answer := none
        sent := if check.isEmpty then none else some s.tbase } })
    s.unseat c i

/-- A seat leaves at once: a BCW wait performed without issue is returned (R193). The bundle of a seat that waits for a board or a home
completes, or traps, first (R334). -/
def State.preemptNow (s : State) (c i : Nat) : State :=
  let s := if (s.seat c i).held.isSome then s else s.returnWait c i
  let s := s.modSeat c i (fun t => { t with leave := some .preempt })
  if (s.core c).running = some i then s.unseat c i else s

/-- Ticks from a request to yield until a seat is pre-empted at its next issue boundary: 50 microseconds (R186). -/
def preemptLimit : Nat := 50000

/-- Whether a seat at an issue boundary was asked to yield 50 microseconds ago or earlier, and has neither a trap to take first nor a tile in
progress (R186 step 3, R290). -/
def State.overdue (s : State) (c i : Nat) : Bool :=
  let t := s.seat c i
  (match t.preempt with
    | none => false
    | some k => decide (k + preemptLimit ≤ s.tbase)) && t.deferred.isEmpty && !s.inTile c i

/-- The pending deferred traps of a seat taken, before anything of its next bundle is looked at: the earliest, while the others wait for
the entry, which knows of every one found by then (R151, R156). -/
def State.takeDeferred (s : State) (c i : Nat) : State :=
  let t := s.seat c i
  match earliest t.deferred with
  | none => s
  | some r =>
    let dly := s.delayOf c i
    ((s.modSeat c i (fun t => { t with deferred := dropFirst (fun x => x == r) t.deferred })).idle c 1).takeTrap c i r t.pc dly none

/-- A seat with the TVEC of its tenancy, if that was written since it was last copied (R169). -/
def Seat.copyVec (t : Seat) (x : Tenancy) : Seat :=
  if t.vecn = some x.vecn then t else { t with vecn := some x.vecn, trap := { t.trap with vec := x.tvec &&& ~~~(6 : Word) } }

/-- What has completed by a core's cycle taken into a seat, with the TVEC of its tenancy (R12, R169). -/
def State.refresh (s : State) (c i : Nat) : State :=
  let now := (s.core c).now
  let (ten, _) := s.ownerOf c i
  ((s.modSeat c i (fun t => (t.commit now).copyVec (s.tenancy ten))).settleBanks c).settle c i

/-- Whether the hold line of a floating-point bundle under enabled traps still waits for a result of it: one on its way, of an access, a
SEMSIG's or an SCHECK's (R70). -/
def State.fpPending (s : State) (c i : Nat) : Bool :=
  let t := s.seat c i
  match t.fpWait with
  | none => false
  | some q => t.flights.any (fun x => x.seq == q && decide ((s.core c).now < x.ready)) || t.accs.any (fun a => a.seq == q)
    || t.sigs.any (fun g => g.seq == q && g.dst.isSome) || s.checking c i (some q)

/-- Whether no other seat can take over: the next bundle has been held, or a stall or a hold of the last one is not over (R17, R70,
R178). -/
def State.pinned (s : State) (c i : Nat) : Bool :=
  (s.seat c i).holding || s.fpPending c i || decide ((s.core c).now < (s.seat c i).stalled)

/-- One cycle of a core's running seat: a stall or a hold that is left of its last bundle, a pre-emption that is due, what its pending wait does,
a deferred trap, or its next bundle judged (R17, R70, R156, R174, R186). -/
def State.issueStep (s : State) (c i : Nat) (fresh : Bool) : State :=
  match (s.seat c i).strand with
  | none => s.unseat c i
  | some _ =>
    let s := s.refresh c i
    if s.fpPending c i then (s.idle c 1).holdSeat c i
    else if !s.seatOpen c i then s.blockSeat c i
    else if (s.seat c i).pend.isSome then s.idle c 1
    else if (s.core c).now < (s.seat c i).stalled then (s.idle c 1).holdSeat c i
    else if s.overdue c i then s.preemptNow c i
    else match s.tryWait c i with
      | (s, false) => s.blockSeat c i
      | (s, true) =>
        if !(s.seat c i).deferred.isEmpty then s.takeDeferred c i
        else
          let (s, v) := s.attempt c i fresh
          s.carry c i v

/-! ## The running seat (R178) -/

/-- The seats of a core. -/
def seatNums : List Nat := [0, 1, 2, 3]

/-- Whether something stands in the way of a step of a core: a bundle of some core being issued, a retired core, or a halted die. -/
def State.coreStill (s : State) (c : Nat) : Bool := s.iss.isSome || (s.core c).absent || (s.die (dieOf c)).halted.isSome

/-- The rank of a seat's strand among those that compete for the core: its priority, below every priority for an overrun launch
(R188). -/
def State.seatRank (s : State) (c i : Nat) : Nat :=
  match (s.seat c i).strand with
  | none => 0
  | some x => match s.launch x.ten x.lid with
    | none => x.prio + 1
    | some l => if l.overrun then 0 else x.prio + 1

/-- Whether a seat is ready: resident, neither blocked nor leaving. The state is only looked at. -/
def State.seatReady (s : State) (c i : Nat) : Bool :=
  if (s.seat c i).strand.isNone || !s.seatOpen c i then false
  else if (s.seat c i).pend.isSome then true
  else match (s.refresh c i).tryWait c i with
    | (_, false) => false
    | (s, true) => !(s.seat c i).deferred.isEmpty || (s.attempt c i false).2 != .block

/-- The better of two candidates: the one of higher rank, the first at equal rank. -/
def better (a : Option (Nat × Nat)) (b : Nat × Nat) : Option (Nat × Nat) :=
  match a with
  | none => some b
  | some x => if x.2 < b.2 then some b else some x

/-- The ready seat of highest priority, round robin from the seat after the last one (R178 step 1). -/
def State.pickSeat (s : State) (c : Nat) : Option Nat :=
  let last := (s.core c).last
  let order := [(last + 1) % 4, (last + 2) % 4, (last + 3) % 4, last % 4]
  (((order.filter (s.seatReady c)).map (fun i => (i, s.seatRank c i))).foldl better none).map Prod.fst

/-- Whether a seat other than one is ready, of at least a rank. -/
def State.otherReady (s : State) (c i rank : Nat) : Bool :=
  seatNums.any (fun j => j != i && decide (rank ≤ s.seatRank c j) && s.seatReady c j)

/-- Bundles that a seat issues before it yields its issue width (R178 step 3). -/
def quantum : Nat := 4096

/-- Whether a ready seat of higher priority takes over from the running one at this bundle boundary (R178 step 2). -/
def State.outranked (s : State) (c i : Nat) : Bool := !s.pinned c i && s.otherReady c i (s.seatRank c i + 1)

/-- Whether the running seat yields its issue width to a ready seat of the same priority or a higher one (R178 step 3). -/
def State.spent (s : State) (c i : Nat) : Bool :=
  let t := s.seat c i
  decide (quantum ≤ t.run) && !(bitAt t.mode.modectl.toNat 4 && t.expert 7) && !s.pinned c i
    && s.otherReady c i (s.seatRank c i)

/-- The running seat gives up its issue width without being blocked: the bubble passes (R178 step 4). -/
def State.giveUp (s : State) (c i : Nat) : State :=
  (s.idle c 1).modCore c (fun k => { k with running := none, last := i, bubbled := true, gaveUp := true })

/-- BUNDLE_ISSUE (R15, R22): one cycle of a core whose seat runs; a seat that has to give way issues nothing (R178). -/
def execBundleIssue (c : Nat) (fresh : Bool) (s : State) : Host.Outcome State Fault Refusal :=
  if s.coreStill c then .next s
  else match (s.core c).running with
    | none => .next s
    | some i =>
      let s' := s.settleSems c
      .next (if s'.outranked c i || s'.spent c i then s else (s'.arriveGears c).issueStep c i fresh)

end Sys2Proof.Machine
end

