-- ==== Sys2Proof/Machine/Walks.lean ====
section
/-! DEFINITION. Walks of the page tables, and the return of a load's data (R106, R218 to R220, R340). -/

namespace Sys2Proof.Machine

open Sys2Proof

/-! ## Walks (R218, R219) -/

/-- Whether an access waits for a page's translation. -/
def Acc.misses (a : Acc) (page : Nat) : Bool := a.pas.isNone && a.va / 2 ^ 16 == page

/-- Whether a seat knows already that a page it waits for is absent: it leaves for its page, is blocked on it in place, or is killed and the
page is posted (R220, R290, R333). -/
def Seat.pageKnown (t : Seat) (posted : Bool) : Bool :=
  t.stuck.isSome || (t.killed.isSome && posted) || (match t.leave with
    | some (.page _ _) => true
    | _ => false)

/-- The accesses on a die that wait for a page of a tenancy: core, seat and id. -/
def State.missing (s : State) (die ten page : Nat) : List (Nat × Nat × Nat) :=
  (s.cores.filter (fun p => dieOf p.1 == die)).flatMap (fun p =>
    (p.2.seats.filter (fun q => match q.2.strand with
      | none => false
      | some x => x.ten == ten && !q.2.pageKnown ((s.die die).posted.contains (ten, page)))).flatMap (fun q =>
        (q.2.accs.filter (fun a => a.misses page)).map (fun a => (p.1, q.1, a.id))))

/-- An access that fails its walk: the deferred XLATE, and no effect (R107). -/
def State.failMiss (s : State) (c i : Nat) (a : Acc) (r : Nat) : State :=
  (s.deferTrap c i (xlateDeferred a r)).endAcc c i { a with rel := false }

/-- An access given what its walk found (R219, R220). -/
def State.endMiss (s : State) (c i id : Nat) (found : Except Nat (Option Tlb)) : State :=
  match (s.seat c i).findAcc id with
  | none => s
  | some a => match found with
    | .error r => s.failMiss c i a r
    | .ok none =>
      if (s.seat c i).killed.isSome then
        let (ten, lid) := s.ownerOf c i
        s.postPage (dieOf c) ten lid a.va (needKind a.kind.need)
      else s.pageSuspend c i a.va (needKind a.kind.need)
    | .ok (some t) => match s.checkLeaf t a.va a.kind.need with
      | .ok pa key cons => (s.tlbFill c t).translated c i a pa key cons
      | .fail r => s.failMiss c i a r
      | .absent => s
      | .miss => s

/-! ## Translations asked for by fetches, bundles, engines and prefetches (R13, R108, R218) -/

/-- A translation asked for and not found yet, with its tenancy. -/
def openAsk (ten : Nat) (a : Option Ask) : Option (Nat × Ask) :=
  match a with
  | none => none
  | some x => if x.found.isNone then some (ten, x) else none

/-- What the seats and the engines of a core ask for. -/
def Core.asks (k : Core) : List (Nat × Ask) :=
  k.seats.filterMap (fun q => match q.2.strand with
    | none => none
    | some x => openAsk x.ten q.2.ask)
    ++ k.chans.flatMap (fun q => q.2.filterMap (fun x => openAsk x.ten x.ask))
    ++ k.idx.filterMap (fun x => openAsk x.ten x.ask)

/-- What the queue copies ask for, whose engine stands at core 0. -/
def State.queueAsks (s : State) : List (Nat × Ask) := s.qcopies.filterMap (fun x => openAsk x.ten x.ask)

/-- What a core of a die asks for. -/
def State.asksAt (s : State) (c : Nat) : List (Nat × Ask) := (s.core c).asks ++ (if c = 0 then s.queueAsks else [])

/-- The cores of a die, core 0 always among those of die 0. -/
def State.askers (s : State) (die : Nat) : List Nat := ((if die = 0 then [0] else []) ++ (s.cores.map Prod.fst).filter (fun c => dieOf c == die)).eraseDups

/-- The pages that a die is asked for: by bundles and engines, and by prefetches. -/
def State.pagesAsked (s : State) (die : Nat) : List (Nat × Nat) :=
  let asked : List (Nat × Nat) := (s.askers die).flatMap (fun c => (s.asksAt c).map (fun (p : Nat × Ask) => (p.1, p.2.va / 2 ^ 16)))
  (asked ++ (s.die die).prefs.map (fun (p : Nat × Nat × Nat) => (p.2.1, p.2.2 / 2 ^ 16))).eraseDups

/-- What a walk has found, for an access. -/
def State.leafFor (s : State) (found : Except Nat (Option Tlb)) (va : Nat) (need : Need) : Xlate :=
  match found with
  | .error r => .fail r
  | .ok none => .absent
  | .ok (some t) => s.checkLeaf t va need

/-- Whether a translation asked for is that of a walk's page. -/
def Ask.of (x : Ask) (t ten page : Nat) : Bool := t == ten && x.va / 2 ^ 16 == page && x.found.isNone

/-- A translation asked for once its walk has ended: a leaf to use is in the TLBs, and anything else is kept for the asker. -/
def State.answerAsk (s : State) (found : Except Nat (Option Tlb)) (ten page t : Nat) (a : Option Ask) : Option Ask :=
  match a with
  | none => none
  | some x =>
    if x.of t ten page then match s.leafFor found x.va x.need with
      | .ok _ _ _ => none
      | r => some { x with found := some r }
    else a

/-- A core's askers answered. -/
def State.answerCore (s : State) (found : Except Nat (Option Tlb)) (ten page : Nat) (k : Core) : Core :=
  { k with
    seats := k.seats.map (fun q => (q.1, match q.2.strand with
      | none => q.2
      | some x => { q.2 with ask := s.answerAsk found ten page x.ten q.2.ask }))
    chans := k.chans.map (fun q => (q.1, q.2.map (fun x => { x with ask := s.answerAsk found ten page x.ten x.ask })))
    idx := k.idx.map (fun x => { x with ask := s.answerAsk found ten page x.ten x.ask }) }

/-- A leaf entered in the TLBs of the cores of a die that asked for its page and may use it. -/
def State.fillAskers (s : State) (die ten page : Nat) : Except Nat (Option Tlb) → State
  | .ok (some t) =>
    let use (c : Nat) : Bool := (s.asksAt c).any (fun p => p.2.of p.1 ten page && (match s.checkLeaf t p.2.va p.2.need with
      | .ok _ _ _ => true
      | _ => false))
    ((s.askers die).filter use).foldl (fun (s : State) c => s.tlbFill c t) s
  | _ => s

/-- A prefetch whose walk has ended: its translation is loaded and its line comes into the cache, or it is dropped (R108). -/
def State.endPrefetch (s : State) (c va : Nat) : Except Nat (Option Tlb) → State
  | .ok (some t) => match s.checkLeaf t va .read with
    | .ok pa key _ => (s.tlbFill c t).prefetchLine pa key
    | _ => s
  | _ => s

/-- Those who asked a die for a page answered by its walk. -/
def State.answerAsks (s : State) (die ten page : Nat) (found : Except Nat (Option Tlb)) : State :=
  let s := s.fillAskers die ten page found
  let s : State := { s with
    cores := s.cores.map (fun (p : Nat × Core) => if dieOf p.1 = die then (p.1, s.answerCore found ten page p.2) else p)
    qcopies := if die = 0 then s.qcopies.map (fun x => { x with ask := s.answerAsk found ten page x.ten x.ask }) else s.qcopies }
  let mine (p : Nat × Nat × Nat) : Bool := p.2.1 == ten && p.2.2 / 2 ^ 16 == page
  let ps := (s.die die).prefs.filter mine
  ps.foldl (fun (s : State) (p : Nat × Nat × Nat) => s.endPrefetch p.1 p.2.2 found) (s.modDie die (fun d => { d with prefs := d.prefs.filter (fun p => !mine p) }))

/-- The walk of a page among a die's first n. -/
def Die.walkOf (d : Die) (ten page n : Nat) : Option Walk := (d.walks.take n).find? (fun w => w.ten == ten && w.page == page)

/-- WALK (R218): a page that a die is asked for, or an access of it waits for, begins to be walked on the tables as they are then (R216, R217),
while a miss slot is free; walks for one page are merged. -/
def execWalk (die ten page : Nat) (s : State) : Host.Outcome State Fault Refusal :=
  let d := s.die die
  if d.halted.isSome || (d.walkOf ten page 512).isSome || 512 ≤ d.walks.length
      || ((s.missing die ten page).isEmpty && !(s.pagesAsked die).contains (ten, page)) then .next s
  else .next (s.modDie die (fun d => { d with walks := d.walks ++ [s.beginWalk ten page] }))

/-- What a walk that has ended has left, with TCB_ROOT and the table bases back at their own values: the lines it read and the sectors it
mended (R212, R340). -/
def State.walked (s : State) (die : Nat) (w : Walk) : State :=
  let s' := ((s.rooted w).fixTables die w.ten (w.page * 2 ^ 16)).rooted (s.beginWalk w.ten w.page)
  s'.modDie die (fun d => { d with walks := d.walks.filter (fun x => x != w) })

/-- WALK_COMPLETE (R216 to R220, R340): the oldest 16 walks are at the walkers, each on the tables it began with; one that needs the replica of a
halted die waits (R365). -/
def execWalkComplete (die ten page : Nat) (s : State) : Host.Outcome State Fault Refusal :=
  match (s.die die).walkOf ten page 16 with
  | none => .next s
  | some w =>
    if (s.die die).halted.isSome || ((s.rooted w).walkStop die ten (page * 2 ^ 16)).isSome then .next s
    else
      let found := (s.rooted w).walk die ten (page * 2 ^ 16)
      let s := s.walked die w
      .next (((s.missing die ten page).foldl (fun (s : State) p => s.endMiss p.1 p.2.1 p.2.2 found) s).answerAsks die ten page found)

/-- LOAD_DATA_RETURN (R106, R110, R142, R202, R316, R322, R323): a load performs and its data returns. -/
def execLoadDataReturn (c i id : Nat) (s : State) : Host.Outcome State Fault Refusal :=
  match s.liveAcc c i id with
  | none => .next s
  | some a =>
    if !(s.seat c i).mayPerform (s.core c).now a then .next s
    else
      let (lanes, s) := s.nextLanes a
      match a.kind with
      | .load sx => .next (s.performLoad c i a sx lanes)
      | .vload => .next (s.performLoad c i a false lanes)
      | .xldp => .next (s.performLoad c i a false lanes)
      | .launch => .next (s.performLaunch c i a)
      | .xhash =>
        let (n, s) := s.someSteps
        .next (s.performHash c i a false n)
      | .xins =>
        let (n, s) := s.someSteps
        .next (s.performHash c i a true n)
      | .xwalk csr => .next (s.performWalk c i a csr)
      | .store => .next s
      | .vstore => .next s
      | .sqld => .next s
      | .atom _ => .next s

end Sys2Proof.Machine
end

