-- ==== Sys2Proof/Machine/Cores.lean ====
section
/-! DEFINITION. What happens on a core besides the issue of bundles: results that complete, the choice of the running seat, gears,
trap entry, and the debugger (R16, R91, R148 to R159, R178, R194). -/

namespace Sys2Proof.Machine

open Sys2Proof

/-! ## Completion (R16, R99, R194) -/

/-- Whether nothing that a seat has under way is still to complete, the wait of its last bundle included, so that it may end or leave
(R99). -/
def State.quiet (s : State) (c i : Nat) : Bool :=
  let t := s.seat c i
  t.flights.all (fun x => decide (x.ready ≤ (s.core c).now)) && t.accs.isEmpty && t.sigs.isEmpty && t.wait.isNone

/-- The arrivals and waits of a seat that is to leave it brought as far as they go (R99, R174). -/
def State.beforeSpill (s : State) (c i : Nat) : State :=
  let s := s.refresh c i
  let s := (s.arrivePhase c i).arriveBarr c i
  (s.tryWait c i).1

/-- BUNDLE_COMPLETE (R99, R194): results that have completed are taken in, signals whose bundles have completed are applied, and a
HALT whose strand has nothing left under way, a wait of its own bundle included, ends it. -/
def execBundleComplete (c i : Nat) (s : State) : Host.Outcome State Fault Refusal :=
  if s.coreStill c || (s.seat c i).held.isSome then .next s
  else
    let s := if (s.seat c i).leave = some .halt && (s.seat c i).killed.isNone then s.beforeSpill c i else s.refresh c i
    if (s.seat c i).leave = some .halt && (s.seat c i).killed.isNone && s.quiet c i then .next (s.endStrand c i 0) else .next s

/-- RESULT_WRITEBACK (R12, R16, R21): every result that has completed by the core's cycle reaches its register. -/
def execResultWriteback (c : Nat) (s : State) : Host.Outcome State Fault Refusal :=
  .next (seatNums.foldl (fun (s : State) i => if (s.seat c i).strand.isSome then s.refresh c i else s) s)

/-! ## The running seat (R178) -/

/-- A seat becomes the running seat; one that takes over from another in trusted mode is drained first (R148, R178). -/
def State.runSeat (s : State) (c i : Nat) : State :=
  let s := if (s.core c).last ≠ i && (s.seat c i).trusted then s.drain c i else s
  (s.modCore c (fun k => { k with running := some i, bubbled := false, gaveUp := false })).modSeat c i (fun t => { t with run := 0 })

/-- SEAT_SWITCH (R178): with no running seat the bubble passes and then a ready seat is chosen, or the core idles; a blocked seat that
became ready before another was chosen goes on without a bubble. At a bundle boundary a ready seat of higher priority takes over. -/
def execSeatSwitch (c : Nat) (s : State) : Host.Outcome State Fault Refusal :=
  if s.coreStill c then .next s
  else
    let k := s.core c
    let s := s.settleSems c
    match k.running with
    | some i =>
      .next (if s.outranked c i then s.giveUp c i else s)
    | none =>
      if !k.gaveUp && s.seatReady c k.last then .next (s.modCore c (fun k => { k with running := some k.last, bubbled := false }))
      else if k.bubbled then
        match s.pickSeat c with
        | none => .next (s.idle c 1)
        | some i => .next (s.runSeat c i)
      else .next ((s.idle c 1).modCore c (fun k => { k with bubbled := true }))

/-- QUANTUM_EXPIRY (R178). -/
def execQuantumExpiry (c : Nat) (s : State) : Host.Outcome State Fault Refusal :=
  if s.coreStill c then .next s
  else match (s.core c).running with
    | none => .next s
    | some i => .next (if s.spent c i then s.giveUp c i else s)

/-! ## Gears (R91) -/

/-- GEAR_WRITE: the power controller writes a die's gear register. -/
def execGearWrite (d : Nat) (v : BitVec 4) (s : State) : Host.Outcome State Fault Refusal :=
  .next (s.modDie d (fun x => { x with gear := v.toNat, gears := x.gears ++ [(v.toNat, s.cyc)] }))

/-- GEAR_POINT: the next value on its way to a core has arrived, and is in force from the core's present cycle on. -/
def execGearPoint (c : Nat) (s : State) : Host.Outcome State Fault Refusal :=
  if (s.die (dieOf c)).halted.isSome then .next s
  else
    let s := s.arriveGears c
    .next (match (s.die (dieOf c)).gears[(s.core c).gearSeen]? with
      | none => s
      | some (v, _) => s.modCore c (fun k => k.adoptGear v k.now))

/-! ## Traps (R151, R156) -/

/-- TRAP_ENTRY: a trap whose seat's loads have all returned is entered. -/
def execTrapEntry (c i : Nat) (s : State) : Host.Outcome State Fault Refusal :=
  if s.coreStill c then .next s
  else match (s.seat c i).pend with
    | none => .next s
    | some p => if (s.seat c i).loading then .next s else .next (s.enterTrap c i p)

/-- DEFERRED_TRAP: the running seat's pending deferred traps are taken before its next bundle is looked at. -/
def execDeferredTrap (c i : Nat) (s : State) : Host.Outcome State Fault Refusal :=
  if s.coreStill c || (s.core c).running != some i || !s.seatOpen c i || (s.seat c i).pend.isSome || (s.seat c i).wait.isSome then .next s
  else
    let s' := s.refresh c i
    .next (if s'.fpPending c i || (s.core c).now < (s.seat c i).stalled then s else s'.takeDeferred c i)

/-! ## The debugger (R157 to R159) -/

/-- Whether a seat stands at an issue boundary, where the debugger can halt it. -/
def State.haltable (s : State) (c i : Nat) : Bool :=
  let t := s.seat c i
  t.strand.isSome && t.killed.isNone && t.held.isNone && t.pend.isNone && !t.halted && !t.restore

/-- DEBUG_HALT (R157): a BCW wait performed without issue is returned (R193), and the seat stops issuing and halts once its loads and other
results have returned. -/
def execDebugHalt (c i : Nat) (s : State) : Host.Outcome State Fault Refusal :=
  if s.coreStill c || !s.haltable c i then .next s else .next ((s.returnWait c i).debugStop c i)

/-- A halted seat resumed with the delay state of its halt (R158). -/
def State.resumeHalted (s : State) (c i : Nat) (step : Bool) : State := s.modSeat c i (fun t => { t with halted := false, step := step })

/-- DEBUG_RESUME (R158). -/
def execDebugResume (c i : Nat) (s : State) : Host.Outcome State Fault Refusal :=
  if s.coreStill c || !(s.seat c i).halted then .next s else .next (s.resumeHalted c i false)

/-- DEBUG_STEP (R159). -/
def execDebugStep (c i : Nat) (s : State) : Host.Outcome State Fault Refusal :=
  if s.coreStill c || !(s.seat c i).halted then .next s else .next (s.resumeHalted c i true)

/-- A seat with one thing that the debugger writes; the halt pc and the halt delay state end a pending target check (log 70). -/
def Seat.debugWrite (t : Seat) (w : DbgReg) (n v : Nat) : Seat :=
  let x := BitVec.ofNat 64 v
  match w with
  | .i => t.put ⟨.i, n % 64⟩ v
  | .j => t.put ⟨.j, n % 64⟩ v
  | .f => t.put ⟨.fr, n % 64⟩ v
  | .e => t.put ⟨.e, n % 32⟩ v
  | .v => if n < t.alloc .v then t.put ⟨.v, n⟩ v else t
  | .w => if n < t.alloc .w then t.put ⟨.w, n⟩ v else t
  | .xv => t.put ⟨.xv, n % 64⟩ v
  | .vm => t.put ⟨.vm, n % 8⟩ v
  | .vx => t.put ⟨.vx, n % 16⟩ v
  | .wx => t.put ⟨.wx, n % 16⟩ v
  | .q => t.put ⟨.q, n % 8⟩ v
  | .tb => t.put ⟨.i, 64 + n % 8⟩ v
  | .tq => t.put ⟨.q, 8⟩ v
  | .hl => { t with regs := { t.regs with hl := tset t.regs.hl 0 (n % 6) (BitVec.ofNat 2048 v) } }
  | .tcause => { t with trap := { t.trap with cause := x &&& 0x3FF } }
  | .tpc => { t with trap := { t.trap with pc := x } }
  | .tdly => { t with trap := { t.trap with dly := x, fall := false } }
  | .tvec => { t with trap := { t.trap with vec := x &&& ~~~(6 : Word) } }
  | .tinfo => { t with trap := (match n % 4 with
      | 0 => { t.trap with info0 := x }
      | 1 => { t.trap with info1 := x }
      | 2 => { t.trap with info2 := x }
      | _ => { t.trap with info3 := x }) }
  | .haltPc => { t with pc := x, target := none }
  | .haltDly => { t with delay := unpackDelay x t.pc false, target := none }

/-- DEBUG_ACCESS (R157): a read changes nothing; a write changes a halted seat, but no latch that had captured a register's value
(R25). -/
def execDebugAccess (c i : Nat) (wr : Bool) (what : DbgReg) (n v : Nat) (s : State) : Host.Outcome State Fault Refusal :=
  if s.coreStill c || !(s.seat c i).halted || !wr then .next s else .next (s.modSeat c i (fun t => t.debugWrite what n v))

end Sys2Proof.Machine
end

