-- ==== Sys2Proof/Machine/Spill.lean ====
section
/-! DEFINITION. Spill areas: their layout in memory, and the state of a seat written to one and read from it (R170, R172, R174,
R265). -/

namespace Sys2Proof.Machine

open Sys2Proof

/-! ## Places of a layout -/

/-- One place of a layout: its offset and bytes, what is written there, and how a value read from there is taken. -/
structure Place1 (α : Type) where
  off : Nat
  n : Nat
  get : α → Nat
  put : Nat → α → α

/-- A run of n places of k bytes from an offset on. -/
def placeRun {α : Type} (off k n : Nat) (get : Nat → α → Nat) (put : Nat → Nat → α → α) : List (Place1 α) :=
  (List.range n).map (fun j => ⟨off + k * j, k, get j, put j⟩)

/-- Registers of a file from an offset on. -/
def regRun (off k n : Nat) (f : File) (first : Nat) : List (Place1 Seat) :=
  placeRun off k n (fun j t => readReg t.regs ⟨f, first + j⟩) (fun j v t => t.put ⟨f, first + j⟩ v)

/-! ## The spill area (R170, R174) -/

/-- The descriptor of a pending wait. -/
def waitWord (t : Seat) : Nat :=
  match t.wait with
  | some (.sem n v) => 1 * 2 ^ 60 + n * 2 ^ 48 + v * 2 ^ 32
  | some (.tl l _ none) => 2 * 2 ^ 60 + l * 2 ^ 56
  | some (.tl l _ (some (cl, co))) => 2 * 2 ^ 60 + l * 2 ^ 56 + 2 ^ 31 + cl * 2 ^ 24 + co * 2 ^ 20
  | some (.phase d _ _) => 3 * 2 ^ 60 + d * 2 ^ 8
  | some (.barr d id _ _ _) => 4 * 2 ^ 60 + d * 2 ^ 8 + id
  | some (.tlbinv _ _ _) => 0
  | some (.icflush _ _ _) => 0
  | none => 0

/-- The value word of a pending wait. -/
def waitValue (t : Seat) : Nat :=
  match t.wait with
  | some (.tl _ n _) => n.toNat
  | some (.phase _ num _) => num
  | some (.barr _ _ gen rst _) => gen + rst * 2 ^ 32
  | some (.sem _ _) => 0
  | some (.tlbinv _ _ _) => 0
  | some (.icflush _ _ _) => 0
  | none => 0

/-- The pending wait that two words stand for. -/
def waitOf (w v : Nat) : Option PWait :=
  let k := field w 60 4
  if k = 1 then some (.sem (field w 48 8) (field w 32 16))
  else if k = 2 then
    some (.tl (field w 56 4) (BitVec.ofNat 64 v) (if bitAt w 31 then some (field w 24 4, field w 20 4) else none))
  else if k = 3 then some (.phase (field w 8 5) v true)
  else if k = 4 then some (.barr (field w 8 5) (field w 0 6) (field v 0 32) (field v 32 16) true)
  else none

/-- The status word: predicates, the trap bank's, flags, and the entries in the data queue. -/
def statusWord (t : Seat) : Nat :=
  packElems 1 (fun k => if k = 0 then 0 else readReg t.regs ⟨.q, k⟩) 8 + readReg t.regs ⟨.q, 8⟩ * 2 ^ 8
    + field t.mode.fstat.toNat 0 5 * 2 ^ 9 + t.dataq.length * 2 ^ 14

/-- A seat with its status word read. -/
def putStatus (v : Nat) (t : Seat) : Seat :=
  let t := (List.range 8).foldl (fun (t : Seat) k => t.put ⟨.q, k⟩ (b2n (bitAt v k))) t
  { t.put ⟨.q, 8⟩ (b2n (bitAt v 8)) with
    mode := { t.mode with fstat := BitVec.ofNat 64 (field v 9 5) }
    dataq := List.replicate (min 8 (field v 14 4)) 0 }

/-- A register of 8 bytes; its reserved bits read 0 whatever stands in memory (R7). -/
def wordAt (off : Nat) (mask : Word) (get : Seat → Word) (put : Word → Seat → Seat) : Place1 Seat :=
  ⟨off, 8, fun t => (get t).toNat, fun v t => put (BitVec.ofNat 64 v &&& mask) t⟩

/-- The places of a spill area but for the matrix block and the vector registers. -/
def spillPlaces : List (Place1 Seat) :=
  [⟨0x0000, 8, fun t => t.delay.word.toNat, fun v t => { t with delay := unpackDelay (BitVec.ofNat 64 v) t.pc t.delay.falls }⟩,
   ⟨0x0008, 8, statusWord, putStatus⟩,
   wordAt 0x0010 0x3F (fun t => t.mode.fctl) (fun v t => { t with mode := { t.mode with fctl := v } }),
   wordAt 0x0018 3 (fun t => t.mode.emode) (fun v t => { t with mode := { t.mode with emode := v } }),
   wordAt 0x0020 0x1F (fun t => t.mode.modectl) (fun v t => { t with mode := { t.mode with modectl := v } }),
   wordAt 0x0028 0xFF07 (fun t => t.mode.srlost) (fun v t => { t with mode := { t.mode with srlost := clearSrlost v 0 } }),
   ⟨0x0030, 8, waitWord, fun v t => { t with wait := waitOf v (waitValue t) }⟩,
   ⟨0x0038, 8, waitValue, fun v t => { t with wait := waitOf (waitWord t) v }⟩,
   wordAt 0x0040 0x3FF (fun t => t.trap.cause) (fun v t => { t with trap := { t.trap with cause := v } }),
   wordAt 0x0048 (2 ^ 64 - 1) (fun t => t.trap.pc) (fun v t => { t with trap := { t.trap with pc := v } }),
   wordAt 0x0050 (2 ^ 64 - 1) (fun t => t.trap.dly) (fun v t => { t with trap := { t.trap with dly := v } }),
   wordAt 0x0058 (2 ^ 64 - 1) (fun t => t.trap.info0) (fun v t => { t with trap := { t.trap with info0 := v } }),
   wordAt 0x0060 (2 ^ 64 - 1) (fun t => t.trap.info1) (fun v t => { t with trap := { t.trap with info1 := v } }),
   wordAt 0x0068 (2 ^ 64 - 1) (fun t => t.trap.info2) (fun v t => { t with trap := { t.trap with info2 := v } }),
   wordAt 0x0070 (2 ^ 64 - 1) (fun t => t.trap.info3) (fun v t => { t with trap := { t.trap with info3 := v } })]
  ++ regRun 0x0080 8 64 .i 0 ++ regRun 0x0280 8 64 .j 0 ++ regRun 0x0480 8 64 .fr 0
  ++ regRun 0x0680 8 32 .e 0 ++ regRun 0x0780 8 8 .i 64 ++ regRun 0x07C0 2 16 .vx 0 ++ regRun 0x07E0 2 16 .wx 0
  ++ placeRun 0x0800 256 6 (fun j t => (tget t.regs.hl 0 j).toNat)
      (fun j v t => { t with regs := { t.regs with hl := tset t.regs.hl 0 j (BitVec.ofNat 2048 v) } })
  ++ regRun 0x0E00 256 64 .xv 0 ++ regRun 0x4E00 256 8 .vm 0

/-- The places of the entries of the index data queue. -/
def queuePlaces (n : Nat) : List (Place1 Seat) :=
  placeRun 0x5600 256 n (fun j t => (t.dataq.getD j 0).toNat)
    (fun j v t => { t with dataq := (t.dataq.zipIdx).map (fun p => if p.2 = j then BitVec.ofNat 2048 v else p.1) })

/-- Bytes of the part of a spill area before the vector registers. -/
def vectorsAt : Nat := 0x16000

/-- The ranges of a live word: file, first register, length (R172). -/
def liveRanges (w : Word) : List (File × Nat × Nat) :=
  (List.range 4).map (fun k =>
    let h := field w.toNat (16 * k) 16
    (if bitAt h 15 then File.w else File.v, 16 * field h 8 7, 16 * field h 0 8))

/-- The live word that covers a whole allocation. -/
def liveAll (x : Strand) : Word := BitVec.ofNat 64 (x.vu * 8 + 2 ^ 16 * (2 ^ 15 + x.wu * 8))

/-- Whether a live word covers a vector register. -/
def isLive (w : Word) (f : File) (n : Nat) : Bool := (liveRanges w).any (fun r => r.1 == f && r.2.1 ≤ n && n < r.2.1 + r.2.2)

/-- The places of the live vector registers of a strand. -/
def vectorPlaces (x : Strand) (live : Word) : List (Place1 Seat) :=
  ((List.range (128 * x.vu)).filter (isLive live .v)).flatMap (fun n => regRun (vectorsAt + 256 * n) 256 1 .v n)
    ++ ((List.range (128 * x.wu)).filter (isLive live .w)).flatMap (fun n => regRun (vectorsAt + 256 * (128 * x.vu + n)) 256 1 .w n)

/-- A seat's vector registers outside its live ranges read as zero (R172). -/
def Seat.clipLive (t : Seat) (live : Word) : Seat :=
  { t with regs := { t.regs with
      v := t.regs.v.filter (fun p => isLive live .v p.1)
      w := t.regs.w.filter (fun p => isLive live .w p.1) } }

/-! ## The matrix block (R265) -/

/-- A part of a stream register, and a ring's two words. -/
def Matrix.modStream (m : Matrix) (n : Nat) (f : Stream → Stream) : Matrix := m.setStream n (f (m.stream n))

/-- Taps steps and scale counter as one word. -/
def stepsWord (x : Stream) : Nat := packElems 8 (tget x.k 0) 4 + x.sc * 2 ^ 32

/-- A ring with its STATE word read. -/
def Ring.ofState (r : Ring) (v : Nat) : Ring :=
  { r with head := field v 0 8, tail := field v 8 8, fill := field v 16 9, free := field v 32 9 }

/-- The places of one stream. -/
def streamPlaces (n : Nat) : List (Place1 Matrix) :=
  let b := 0x5E00 + 0xC100 + 128 * n
  placeRun b 8 6 (fun j m => (m.stream n).word j) (fun j v m => m.modStream n (fun x => { x with w := tset x.w 0 j (BitVec.ofNat 64 v &&& streamMask j) }))
    ++ placeRun (b + 0x30) 8 4 (fun j m => (m.stream n).tapWord j)
        (fun j v m => m.modStream n (fun x => { x with tap := tset x.tap 0 j (BitVec.ofNat 64 v) }))
    ++ placeRun (b + 0x50) 2 4 (fun j m => tget (m.stream n).i 0 (j + 1)) (fun j v m => m.modStream n (fun x => { x with i := tset x.i 0 (j + 1) v }))
    ++ [⟨b + 0x58, 8, fun m => stepsWord (m.stream n), fun v m => m.modStream n (fun x =>
        { x with k := tabFrom 0 ((List.range 4).map (fun j => field v (8 * j) 8)), sc := field v 32 16 })⟩]

/-- The places of a bank's rows. -/
def rowPlaces (off : Nat) (rows : Matrix → Tab Vec) (put : Tab Vec → Matrix → Matrix) : List (Place1 Matrix) :=
  placeRun (0x5E00 + off) 256 64 (fun j m => (tget (rows m) 0 j).toNat) (fun j v m => put (tset (rows m) 0 j (BitVec.ofNat 2048 v)) m)

/-- The places of the matrix block. -/
def matrixPlaces : List (Place1 Matrix) :=
  rowPlaces 0 (fun m => m.a0) (fun t m => { m with a0 := t })
  ++ rowPlaces 0x4000 (fun m => m.a1) (fun t m => { m with a1 := t })
  ++ rowPlaces 0x8000 (fun m => m.h) (fun t m => { m with h := t })
  ++ [⟨0x5E00 + 0xC000, 8, fun m => m.fa + m.fb * 2 ^ 4 + m.bank * 2 ^ 8 + b2n m.scl * 2 ^ 9,
        fun v m => { m with fa := field v 0 4, fb := field v 4 4, bank := field v 8 1, scl := bitAt v 9 }⟩,
      ⟨0x5E00 + 0xC008, 8, fun m => m.scales.length, fun v m => { m with scales := List.replicate (min 32 v) 0 }⟩]
  ++ placeRun (0x5E00 + 0xC010) 2 32 (fun j m => m.scales.getD j 0)
      (fun j v m => { m with scales := (m.scales.zipIdx).map (fun p => if p.2 = j then v else p.1) })
  ++ (List.range 16).flatMap streamPlaces
  ++ (List.range 8).flatMap (fun n =>
      [⟨0x5E00 + 0xC900 + 16 * n, 8, fun m => (m.ring n).geom.toNat, fun v m => m.setRing n { m.ring n with geom := BitVec.ofNat 64 v &&& 0xFFFFFFFFFFFF }⟩,
       ⟨0x5E00 + 0xC908 + 16 * n, 8, fun m => (m.ring n).word, fun v m => m.setRing n ((m.ring n).ofState v)⟩])

/-- A place that holds zero. -/
def zeroPlace (off n : Nat) : Place1 Matrix := ⟨0x5E00 + off, n, fun _ => 0, fun _ m => m⟩

/-- The rest of the matrix block: zero. -/
def restPlaces : List (Place1 Matrix) :=
  [zeroPlace 0xC050 0xB0] ++ (List.range 16).map (fun n => zeroPlace (0xC160 + 128 * n) 32) ++ [zeroPlace 0xC980 0x3680]

/-! ## Writing and reading a spill area -/

/-- Some places written at a global address of a tenancy; the spill is agent 5 (R343). -/
def State.writePlaces {α : Type} (s : State) (ten lid base : Nat) (ps : List (Place1 α)) (x : α) : State :=
  ps.foldl (fun (s : State) p => s.agentStore (some 5) ten lid (base + p.off) p.n (p.get x)) s

/-- Some places read from there; one that cannot be read keeps what it was. -/
def State.readPlaces {α : Type} (s : State) (ten base : Nat) (ps : List (Place1 α)) (x : α) : α :=
  ps.foldl (fun x p => match s.agentLoad ten (base + p.off) p.n with
    | none => x
    | some v => p.put v x) x

/-- The lines of some places brought into their caches. -/
def State.fillPlaces {α : Type} (s : State) (ten lid base : Nat) (ps : List (Place1 α)) : State :=
  ps.foldl (fun (s : State) p => s.agentTouch (some 5) ten lid (base + p.off) p.n) s

/-- What stands against a spill or a restore of some places: an error that one of them finds, or a home that does not answer yet. -/
def State.placesStop {α : Type} (s : State) (ten base : Nat) (need : Need) (ps : List (Place1 α)) : Option AgentStop :=
  firstSome (fun p => match s.agentRange ten need (base + p.off) p.n with
    | .error (.err cls pa va) => some (.err cls pa va)
    | .error .wait => some .wait
    | .error _ => none
    | .ok _ => none) ps

/-- The places of a seat in its spill area: the fixed ones, its data queue and its live vector registers. -/
def seatPlaces (x : Strand) (t : Seat) (live : Word) : List (Place1 Seat) :=
  spillPlaces ++ queuePlaces t.dataq.length ++ vectorPlaces x live

/-- What stands against an access to an entry of a die's record area, which has no virtual address (R343). -/
def State.entryStop (s : State) (d e : Nat) : Option AgentStop :=
  match s.homeOne (s.entryPa d e) 0 with
  | .poison cls pa => some (.err cls pa (2 ^ 64 - 1))
  | .silent => some .wait
  | .ok => none
  | .retired => none
  | .denied => none
  | .integrity _ => none
  | .lost _ => none

/-- What stands against the spill of a seat and of the matrix it holds (R338). -/
def State.spillStop (s : State) (x : Strand) (t : Seat) (mx : Bool) (live : Word) : Option AgentStop :=
  s.placesStop x.ten x.spill .write (seatPlaces x t live) <|> (if mx then s.placesStop x.ten x.spill .write matrixPlaces else none)

/-- The state of a seat and of the matrix it holds written to its strand's spill area. -/
def State.spillOut (s : State) (x : Strand) (t : Seat) (mx : Option Matrix) (live : Word) : State :=
  let s := s.writePlaces x.ten x.lid x.spill (seatPlaces x t live) t
  match mx with
  | none => s
  | some m => s.writePlaces x.ten x.lid x.spill (matrixPlaces ++ restPlaces) m

/-- The state of a seat read back. -/
def State.spillIn (s : State) (x : Strand) (live : Word) (t : Seat) : Seat :=
  let t := s.readPlaces x.ten x.spill spillPlaces t
  s.readPlaces x.ten x.spill (queuePlaces t.dataq.length ++ vectorPlaces x live) t

/-- The matrix read back. -/
def State.matrixIn (s : State) (x : Strand) (m : Matrix) : Matrix := s.readPlaces x.ten x.spill matrixPlaces m

/-- What stands against the restore of a record (R338): an error, or a home that does not answer yet. -/
def State.restoreStop (s : State) (r : Rec) : Option AgentStop :=
  let x := r.strand
  s.placesStop x.ten x.spill .read (seatPlaces x (s.spillIn x r.live r.img) r.live)
    <|> (if r.mx.isSome then s.placesStop x.ten x.spill .read matrixPlaces else none)

/-- The lines that the restore of a record reads brought into their caches. -/
def State.restoreFill (s : State) (r : Rec) : State :=
  let x := r.strand
  let s := s.fillPlaces x.ten x.lid x.spill (seatPlaces x (s.spillIn x r.live r.img) r.live)
  if r.mx.isSome then s.fillPlaces x.ten x.lid x.spill matrixPlaces else s

/-- Bytes of a spill area (R170). -/
def spillBytes (vu wu : Nat) : Nat := vectorsAt + 32768 * (vu + wu)


end Sys2Proof.Machine
end

