-- ==== Sys2Proof/Machine/Strands.lean ====
section
/-! DEFINITION. Strands between seats: suspension, pre-emption, wakes, seating, resumption and the end of a killed strand (R99, R171 to
R176, R183, R186, R290, R333 to R335). -/

namespace Sys2Proof.Machine

open Sys2Proof

/-! ## Leaving a seat -/

/-- How a strand leaves: wake condition, live ranges, the core its wake is bound to, the timeline value it awaits, whether it goes to
the head of its ready list, whether its wake has come already, and whether it ends the strand's region (R234, R236). -/
structure Exit where
  wake : Word
  live : Word
  only : Option Nat := none
  goal : Nat := 0
  front : Bool := false
  ready : Bool := false
  clears : Bool := false
deriving DecidableEq, Repr

/-- An access that goes with its strand into a record: it is translated again when the strand is resumed (R221, R222), but in the pool and the
apertures, whose addresses no table gives. -/
def State.forget (s : State) (ten : Nat) (a : Acc) : Acc :=
  { a with due := 0, pas := if a.pool || s.inTimelines ten a.va || s.inAperture ten a.va then a.pas else none }

/-- The seat's state as its record keeps it (R10, R30, R170). -/
def State.image (s : State) (c i : Nat) (live : Word) : Seat :=
  let (ten, _) := s.ownerOf c i
  let d := s.delayOf c i
  let t := s.seat c i
  { t.clipLive live with
    delay := d.resume t.pc, flights := [], accs := t.accs.map (s.forget ten), bcw := .none, ported := false
    counted := false, holding := false, leave := none, preempt := none, run := 0, stuck := none, nowFlags := 0, nowAt := 0
    fpWait := none, stalled := 0, lastSeq := 0, paged := false, vecn := none, askedFor := none, restore := false, ask := none }

/-- The matrix state that leaves with a seat: fl is not kept. -/
def State.matrixOf (s : State) (c i : Nat) : Option Matrix :=
  if (s.seat c i).claims then some { (s.core c).mx.commit (2 ^ 64) with fl := 0, ops := [] } else none

/-- A record put into its die's lists: at the end, or at the head (R186). -/
def addRec (rs : List Rec) (r : Rec) : List Rec := if r.front then r :: rs else rs ++ [r]

/-- The record that a strand leaves at an entry. -/
def State.exitRec (s : State) (c i : Nat) (z : Exit) (x : Strand) (e : Nat) : Rec :=
  let x := match z.only with
    | none => x
    | some k => { x with core := k }
  { entry := e, img := { s.image c i z.live with strand := some x }, strand := x, mx := s.matrixOf c i, wake := z.wake, live := z.live
    only := z.only, goal := z.goal, front := z.front, ready := z.ready, cluster := clusterOf c, order := (s.die (dieOf c)).orders }

/-- A seat vacated for a record: the strand's state is spilled, the seat freed, and the record written and put into its list. -/
def State.vacate (s : State) (c i : Nat) (z : Exit) (r : Rec) : State :=
  let d := dieOf c
  let s := if z.clears then s.releaseSeat c i else s
  let s := (s.spillOut r.strand r.img r.mx z.live).freeSeat c i
  ((s.writeRec d r).modDie d (fun y => { y with orders := y.orders + 1 })).setRecs d (addRec (s.die d).recs r)

/-- What stands against the writing of a record and of its spill area. -/
def State.leaveStop (s : State) (c : Nat) (z : Exit) (r : Rec) : Option AgentStop :=
  s.entryStop (dieOf c) r.entry <|> s.spillStop r.strand r.img r.mx.isSome z.live

/-- A strand's spill and record, once their homes answer: while one does not nothing happens, and a spill that meets poison consumes
it and never ends (R338). -/
def State.leaveAs (s : State) (c i : Nat) (z : Exit) (r : Rec) : State :=
  match s.leaveStop c z r with
  | some (.err cls pa va) => (s.agentConsume (some 5) r.strand.ten r.strand.lid cls pa va).modSeat c i (fun t => { t with spoiled := true })
  | some _ => s
  | none => s.vacate c i z r

/-- A strand that leaves its seat becomes a record (R173): its state is spilled, the record is written, and the seat is freed. With no
free entry nothing happens. SUSPEND and YIELD clear the strand's tracking entries; pre-emption and a page wake do not (R236). -/
def State.leaveSeat (s : State) (c i : Nat) (z : Exit) : State :=
  match (s.seat c i).strand, (s.die (dieOf c)).freeEntry with
  | some x, some e => s.leaveAs c i z (s.exitRec c i z x e)
  | _, _ => s

/-- Whether the engines still owe a seat something that must come back before it is vacated: index pushes, a SCHECK, or copies reserved
into its rings (R173, R186). -/
def State.owed (s : State) (c i : Nat) : Bool :=
  let k := s.core c
  let t := s.seat c i
  k.idx.any (fun x => x.seat == i && x.op == 0 && t.runs x.ten x.lid x.idx)
    || k.unit.any (fun x => x.seat == i && x.dst.isSome && t.runs x.ten x.lid x.idx)
    || (t.claims && k.mx.rings.any (fun p => !p.2.resv.isEmpty))

/-- A timeline value whose low 56 bits are those of n (R171). -/
def goalOf (now n : Nat) : Nat := field now 56 8 * 2 ^ 56 + n % 2 ^ 56

/-- How a SUSPEND leaves (R171): a kind that only hardware writes counts as immediate. -/
def State.suspendExit (s : State) (c i : Nat) (wake live : Word) : Exit :=
  let w := wake.toNat
  let k := field w 60 4
  let (ten, _) := s.ownerOf c i
  let z : Exit := { wake := if k = 4 then 0 else wake, live := live, clears := true }
  if k = 1 && field w 32 16 != 0 then { z with only := some c }
  else if k = 2 && field w 56 4 < 10 then
    { z with only := some c, goal := goalOf (s.eline ten c (field w 56 4)).value (field w 0 56) }
  else if k = 1 || k = 2 then { z with only := some c, wake := 0 }
  else z

/-- The whole allocation of a seat's strand. -/
def State.liveOf (s : State) (c i : Nat) : Word :=
  match (s.seat c i).strand with
  | none => 0
  | some x => liveAll x

/-- Whether everything of a seat that waits for a page has come to an end that can: its results, and every access but those that wait for a
page and those that may not act before one of them (R107, R145). -/
def State.onlyMissing (s : State) (c i : Nat) : Bool :=
  let t := s.seat c i
  t.flights.all (fun x => decide (x.ready ≤ (s.core c).now)) && t.accs.all (fun a => a.pas.isNone || (!a.performed && !t.mayAct a))

/-- SUSPEND_SPILL (R99, R173, R220): a strand that suspends, yields, or waits for a page leaves once what R99 and R173 wait for is
done. -/
def execSuspendSpill (c i : Nat) (s : State) : Host.Outcome State Fault Refusal :=
  if s.coreStill c then .next s
  else
    let s := if (s.seat c i).leave = some .yield then s.beforeSpill c i else s.refresh c i
    let t := s.seat c i
    if t.killed.isSome || t.held.isSome || t.spoiled || s.owed c i then .next s
    else match t.leave with
      | some (.suspend w live) => .next (if s.quiet c i then s.leaveSeat c i (s.suspendExit c i w live) else s)
      | some .yield => .next (if s.quiet c i then s.leaveSeat c i { wake := 0, live := s.liveOf c i, clears := true } else s)
      | some (.page va _) =>
        .next (if s.onlyMissing c i then
          s.leaveSeat c i { wake := BitVec.ofNat 64 (4 * 2 ^ 60 + va % 2 ^ 56), live := s.liveOf c i, ready := t.paged } else s)
      | some .halt => .next s
      | some .preempt => .next s
      | none => .next s

/-! ## Pre-emption (R186, R334, R335) -/

/-- What vacates a seat with a pending wait (R174): a SEMWAIT and a CWAIT of the own core become wake conditions; a CWAIT.R, a PHASE and
a BARR stay, once their arrival is made; the waits of TLBINV and ICFLUSH must end first. -/
def State.waitExit (s : State) (c i : Nat) : Option Exit :=
  let live := s.liveOf c i
  let (ten, _) := s.ownerOf c i
  let z : Exit := { wake := 0, live := live, front := true }
  match (s.seat c i).wait with
  | none => some z
  | some (.sem n v) => some { z with wake := BitVec.ofNat 64 (1 * 2 ^ 60 + n * 2 ^ 48 + v * 2 ^ 32), only := some c }
  | some (.tl l n none) => some { z with
      wake := BitVec.ofNat 64 (2 * 2 ^ 60 + l * 2 ^ 56 + n.toNat % 2 ^ 56), only := some c
      goal := goalOf (s.eline ten c l).value n.toNat }
  | some (.tl _ _ (some _)) => some z
  | some (.phase _ _ arrived) => if arrived then some z else none
  | some (.barr _ _ _ _ arrived) => if arrived then some z else none
  | some (.tlbinv _ _ _) => none
  | some (.icflush _ _ _) => none

/-- A wait that a wake condition replaces is over for the seat. -/
def Seat.dropWait (t : Seat) : Seat :=
  { t with wait := match t.wait with
      | some (.sem _ _) => none
      | some (.tl _ _ none) => none
      | w => w }

/-- PREEMPT_SPILL (R186 steps 4 and 5, R335): a trap found before the spill is taken first. -/
def execPreemptSpill (c i : Nat) (s : State) : Host.Outcome State Fault Refusal :=
  if s.coreStill c || (s.seat c i).leave != some .preempt || (s.seat c i).killed.isSome || (s.seat c i).held.isSome || (s.seat c i).spoiled then .next s
  else
    let s := s.beforeSpill c i
    let t := s.seat c i
    if t.pend.isSome then .next s
    else if !t.deferred.isEmpty && t.wait.isNone then .next (s.takeDeferred c i)
    else if !t.accs.isEmpty || !t.sigs.isEmpty || s.owed c i then .next s
    else match s.waitExit c i with
      | none => .next s
      | some z => .next (((s.drainAll c i).modSeat c i Seat.dropWait).leaveSeat c i z)

/-! ## Wakes (R171, R221) -/

/-- Whether a record's wake condition, semaphores aside, is met. -/
def State.wakeMet (s : State) (r : Rec) : Bool :=
  let w := r.wake.toNat
  let k := r.kind
  if k = 1 then field w 32 16 == 0
  else if k = 2 then match r.only with
    | none => true
    | some c => decide (r.goal ≤ (s.eline r.strand.ten c (field w 56 4)).value)
  else if k = 3 then (tget (s.die (field w 48 2)).boards {} (field w 40 8)).level.toNat != field w 0 32
  else if k = 4 then false
  else if k = 5 then decide (field w 0 60 ≤ s.tbase % 2 ^ 60)
  else true

/-- Records made ready where a test says so; they join the ready lists. -/
def State.wakeWhere (s : State) (d : Nat) (p : Rec → Bool) : State :=
  let rs := (s.die d).recs
  s.setRecs d (joinReady rs (rs.map (fun r => if !r.ready && p r then { r with ready := true } else r)))

/-- WAKE_READY (R171, R191). -/
def execWakeReady (d e : Nat) (s : State) : Host.Outcome State Fault Refusal :=
  match (s.die d).recs.find? (fun r => r.entry == e) with
  | none => .next s
  | some r =>
    if r.ready || (s.die d).halted.isSome then .next s
    else match r.only with
      | some c =>
        if r.kind = 1 then .next (s.semComplete c (field r.wake.toNat 48 8))
        else if s.wakeMet r then .next (s.wakeWhere d (fun q => q.entry == e)) else .next s
      | none => if s.wakeMet r then .next (s.wakeWhere d (fun q => q.entry == e)) else .next s

/-! ## Seating (R176, R183) -/

/-- Strands resident on a core. -/
def Core.residents (k : Core) : List Strand := k.seats.filterMap (fun p => p.2.strand)

/-- Whether a core has no engine command of another tenancy left (R297). -/
def Core.engineFree (k : Core) (ten : Nat) : Bool :=
  k.chans.all (fun p => p.2.all (fun x => x.ten == ten)) && k.idx.all (fun x => x.ten == ten) && k.unit.all (fun x => x.ten == ten)

/-- Whether n strands with a strand's allocations can be seated on a core (R31, R176). -/
def State.fits (s : State) (c : Nat) (x : Strand) (n : Nat) : Bool :=
  let k := s.core c
  let rs := k.residents
  !k.absent && s.levelServes (clusterOf c) && !(tget (s.die (dieOf c)).clusters {} (clusterOf c)).draining
    && decide (rs.length + n ≤ 4) && (k.ten == some x.ten || (rs.isEmpty && k.engineFree x.ten))
    && decide ((rs.map Strand.vu).sum + n * x.vu ≤ 16) && decide ((rs.map Strand.wu).sum + n * x.wu ≤ 16)
    && (!x.mclaim || (decide (n ≤ 1) && !rs.any Strand.mclaim))

/-- The cores a record may take and how many strands must fit there: its wake's core, its group's core, or those of its cluster. -/
def State.coresFor (s : State) (d : Nat) (r : Rec) : List Nat × Nat :=
  let x := r.strand
  match r.only with
  | some c => ([c], 1)
  | none =>
    if x.pin = 2 then
      match s.launch x.ten x.lid with
      | none => ([x.core], 1)
      | some l => match tfind l.groupCore (l.group x.idx) with
        | some c => ([c], 1)
        | none => (coresOf d r.cluster, l.members (l.group x.idx))
    else (coresOf d (s.listOf d r), 1)

/-- The half of a cluster that a core belongs to: logical cores 0 to 3, or 4 to 7 (R347). -/
def halfOf (c : Nat) : Nat := c % 8 / 4

/-- The core a record is seated on, if there is one (R183 stage 4). -/
def State.placeRec (s : State) (d : Nat) (r : Rec) : Option Nat :=
  let (cs, n) := s.coresFor d r
  cs.find? (fun c => s.fits c r.strand n)

/-- Whether a strand's launch has overrun its budget (R188). -/
def State.overrun (s : State) (x : Strand) : Bool := (s.launch x.ten x.lid).any Launch.overrun

/-- The rank of a strand as a strand of a tenancy sees it: its priority, below every priority of its own tenancy for an overrun launch
(R188). -/
def State.rankFor (s : State) (ten : Nat) (x : Strand) : Nat := if s.overrun x && x.ten == ten then 0 else x.prio + 1

/-- Whether a strand ranks strictly above another. -/
def State.ranksOver (s : State) (x y : Strand) : Bool := decide (s.rankFor x.ten y < s.rankFor y.ten x)

/-- Whether a tenancy seats strands. -/
def State.alive (s : State) (ten : Nat) : Bool := !(s.tenancy ten).killed && (s.tenancy ten).doom.isNone

/-- Whether a record is on the ready list of a cluster. -/
def State.onList (s : State) (d cl : Nat) (r : Rec) : Bool := r.ready && s.listOf d r == cl && s.alive r.strand.ten

/-- The core, of those that a record may take, that one which finds no place is kept free for: a core whose seats have been asked to yield
for it, or else the one with the fewest strands (R186, R189, log 107). -/
def State.reservedCore (s : State) (d : Nat) (r : Rec) : Option Nat :=
  let cs := (s.coresFor d r).1.filter (fun c => !(s.core c).absent)
  cs.find? (fun c => [0, 1, 2, 3].any (fun i => (s.seat c i).askedFor == some r.entry)) <|> cs.foldl (fun (a : Option Nat) c => match a with
    | none => some c
    | some b => if (s.core c).residents.length < (s.core b).residents.length then some c else some b) none

/-- The core a record is seated on, in a list in which some stand before it and others after it: none that is kept for a record that finds no
place and ranks over it, or neither ranks below it nor is younger (R189, log 107), and in split mode one of the control core's half (R347). -/
def State.placeAmong (s : State) (d : Nat) (half : Option Nat) (older younger : List Rec) (r : Rec) : Option Nat :=
  let kept := (older.filter (fun q => !s.ranksOver r.strand q.strand) ++ younger.filter (fun q => s.ranksOver q.strand r.strand)).filter
    (fun q => (s.placeRec d q).isNone)
  let (cs, n) := s.coresFor d r
  cs.find? (fun c => s.fits c r.strand n && !(kept.filterMap (s.reservedCore d)).contains c && half.all (fun h => halfOf c == h))

/-- The records of a list that can be seated, each with its core, the oldest first (R183 stage 4). -/
def State.seatable (s : State) (d : Nat) (half : Option Nat) (older : List Rec) : List Rec → List (Rec × Nat)
  | [] => []
  | r :: rs => match s.placeAmong d half older rs r with
    | none => s.seatable d half (older ++ [r]) rs
    | some c => (r, c) :: s.seatable d half (older ++ [r]) rs

/-- The ready record that a cluster's sequencer, or one half of it, seats next with its core: of highest effective priority, the oldest
first; one of an overrun launch only where no other record of its tenancy can be seated (R183, R188). -/
def State.nextFor (s : State) (d cl : Nat) (half : Option Nat) : Option (Rec × Nat) :=
  let ps := s.seatable d half [] ((s.die d).recs.filter (s.onList d cl))
  (ps.filter (fun p => !s.overrun p.1.strand || ps.all (fun q => q.1.strand.ten != p.1.strand.ten || s.overrun q.1.strand))).foldl
    (fun a p => match a with
      | none => some p
      | some q => if q.1.strand.prio < p.1.strand.prio then some p else some q) none

/-- The record that a cluster seats next: in split mode its two control cores take turns, and one that can seat nothing lets the other go on
(R347, log 120). -/
def State.nextPlace (s : State) (d cl : Nat) : Option (Rec × Nat) :=
  let x := tget (s.die d).clusters {} cl
  if x.split then s.nextFor d cl (some x.turn) <|> s.nextFor d cl (some (1 - x.turn)) else s.nextFor d cl none

/-- The turn of a split cluster after one of its control cores has seated a record on a core (R347). -/
def State.passTurn (s : State) (c : Nat) : State :=
  let x := tget (s.die (dieOf c)).clusters {} (clusterOf c)
  if x.split then s.modDie (dieOf c) (fun y => { y with clusters := tput y.clusters (clusterOf c) { x with turn := 1 - halfOf c } }) else s

/-- A record taken off its die's lists. -/
def State.takeRec (s : State) (d e : Nat) : State := s.setRecs d ((s.die d).recs.filter (fun r => r.entry != e))

/-- A strand that is no longer anywhere ends with a status, its tracking entries with it (R184, R236). -/
def State.endRec (s : State) (d : Nat) (r : Rec) (status : Nat) : State :=
  ((s.takeRec d r.entry).releaseLines r.strand.ten r.strand.lid r.strand.idx).modLaunch r.strand.ten r.strand.lid (fun l =>
    { l with ended := r.strand.idx :: l.ended, status := worseStatus l.status status })

/-- The mode registers that a record's mode bits stand for (R68, R90, R168, R177). -/
def modesOf (m : Nat) : Modes :=
  { emode := BitVec.ofNat 64 (field m 1 2)
    modectl := BitVec.ofNat 64 (field m 0 1 + field m 3 4 * 2)
    fctl := BitVec.ofNat 64 (field m 7 1 * 32 + field m 8 1 * 28) }

/-- The seat of a strand that has never run (R10, R175). -/
def freshSeat (x : Strand) (l : Launch) : Seat :=
  let e : Tab Word := []
  let put (t : Tab Word) (k v : Nat) : Tab Word := tset t 0 k (BitVec.ofNat 64 v)
  let e := put e 0 l.arg.toNat
  let e := put e 1 (x.dom * 2 ^ 61 + x.z * 2 ^ 40 + x.y * 2 ^ 20 + x.x)
  let e := put e 2 x.idx
  let e := put e 3 ((l.gx - 1) + (l.gy - 1) * 2 ^ 20 + (l.gz - 1) * 2 ^ 40)
  let e := put e 4 (x.lid + x.ten * 2 ^ 32)
  { strand := some x, regs := { e := e }, mode := modesOf x.mode, pc := BitVec.ofNat 64 l.code }

/-- The lowest-numbered free seat of a core. -/
def Core.freeSeatNum (k : Core) : Option Nat := [0, 1, 2, 3].find? (fun i => (tget k.seats {} i).strand.isNone)

/-- A core taken over by a tenancy: its semaphores are cleared when it changes (R173, R176). -/
def Core.enter (k : Core) (ten : Nat) : Core := if k.ten = some ten then k else { k with ten := some ten, sem := [], semLast := [] }

/-- A launch whose first record is seated passes its switch point (R187), and a group that is placed keeps its core. -/
def Launch.seated (l : Launch) (x : Strand) (c tick : Nat) : Launch :=
  { l with
    switch := match l.switch with
      | none => some tick
      | some t => some t
    groupCore := if x.pin = 2 && (tfind l.groupCore (l.group x.idx)).isNone then tput l.groupCore (l.group x.idx) c else l.groupCore }

/-- The records of a core-domain group bound to the core that the group is placed on, in the record area too (R167, R179). -/
def State.placeGroup (s : State) (d c : Nat) (x : Strand) : State :=
  match s.launch x.ten x.lid with
  | none => s
  | some l =>
    if x.pin ≠ 2 || (tfind l.groupCore (l.group x.idx)).isSome then s
    else s.bindRecs d c (fun q => q.strand.ten == x.ten && q.strand.lid == x.lid && l.group q.strand.idx == l.group x.idx)

/-- A record put on a seat of a core; its state is restored before its first bundle issues. -/
def State.seatRec (s : State) (d : Nat) (r : Rec) (c i : Nat) : State :=
  let x := { r.strand with core := if r.strand.pin = 2 then c else r.strand.core }
  let lvl := s.svclvl == 1
  let t := if r.fresh then r.img else s.spillIn x r.live r.img
  let t := { t with strand := some x, restore := true, since := s.tbase, lvl1 := lvl, run := 0 }
  let mx := match r.mx with
    | none => (s.core c).mx
    | some m => if r.fresh then m else s.matrixIn x m
  let s := ((s.takeRec d r.entry).placeGroup d c x).modCore c (fun k => { k.enter x.ten with seats := tput k.seats i t, mx := mx })
  (s.passTurn c).modLaunch x.ten x.lid (fun l => l.seated x c s.tbase)

/-- SEAT_RECORD (R167, R183): the record a sequencer picks up is seated, or, if its checksum is wrong, its strand is killed with status
RECORD; a poisoned spill area is consumed (R338). -/
def execSeatRecord (d e : Nat) (s : State) : Host.Outcome State Fault Refusal :=
  match (s.die d).recs.find? (fun r => r.entry == e) with
  | none => .next s
  | some r =>
    if (s.die d).halted.isSome then .next s
    else match s.nextPlace d (s.listOf d r) with
      | none => .next s
      | some (q, c) =>
        if q != r then .next s
        else if (s.entryStop d e).isNone && !s.recGood d e then .next (s.endRec d r 4)
        else match (s.core c).freeSeatNum with
        | none => .next s
        | some i => match s.entryStop d e <|> (if r.fresh then none else s.restoreStop r) with
          | some (.err cls pa va) => .next (s.agentConsume (some 5) r.strand.ten r.strand.lid cls pa va)
          | some _ => .next s
          | none => .next ((if r.fresh then s else s.restoreFill r).seatRec d r c i)

/-- RESUME (R107, R173, R221, R368): a seated record's state is restored; an access that waited for its page performs first. -/
def execResume (c i : Nat) (s : State) : Host.Outcome State Fault Refusal :=
  let t := s.seat c i
  if s.coreStill c || !t.restore || t.strand.isNone || t.killed.isSome || t.leave.isSome || !t.accs.isEmpty then .next s
  else .next ((s.modSeat c i (fun t => { t with restore := false, leave := t.after, after := none })).endBarr c i true)

/-! ## Requests to yield (R186, R201) -/

/-- Whether a seat's strand is of the launch of a record and waits in PHASE (R201). -/
def Seat.inPhaseOf (t : Seat) (x : Strand) : Bool :=
  match t.strand, t.wait with
  | some y, some (.phase _ _ true) => y.ten == x.ten && y.lid == x.lid
  | _, _ => false

/-- Whether a record ranks over the strand of a seat (R186). -/
def State.overSeat (s : State) (c i : Nat) (r : Rec) : Bool := (s.seat c i).strand.any (fun y => s.ranksOver r.strand y)

/-- Whether a ready record has a claim on a seat: it finds no place, its cores include the seat's, and its rank is higher than the seat's and,
on a core of another tenancy, than that of every seat (R186), or the seat waits in PHASE of its launch (R201). -/
def State.claimsSeat (s : State) (c i : Nat) (r : Rec) : Bool :=
  let d := dieOf c
  r.ready && s.alive r.strand.ten && (s.placeRec d r).isNone && (s.coresFor d r).1.contains c
    && ((s.overSeat c i r && ((s.core c).ten == some r.strand.ten || (s.core c).residents.all (s.ranksOver r.strand)))
      || (s.seat c i).inPhaseOf r.strand)

/-- The rank of a seat as a tenancy sees it. -/
def State.seatRankFor (s : State) (ten c i : Nat) : Nat :=
  match (s.seat c i).strand with
  | none => 0
  | some y => s.rankFor ten y

/-- Whether a seat comes before another as the one that a tenancy's record pre-empts: lowest rank, longest resident, lowest number. -/
def State.victimBefore (s : State) (ten : Nat) (a b : Nat × Nat) : Bool :=
  let (ra, rb) := (s.seatRankFor ten a.1 a.2, s.seatRankFor ten b.1 b.2)
  let (ta, tb) := ((s.seat a.1 a.2).since, (s.seat b.1 b.2).since)
  ra < rb || (ra == rb && (ta < tb || (ta == tb && 4 * a.1 + a.2 < 4 * b.1 + b.2)))

/-- The seats that a record can ask for: one at a time, but every seat of a core of another tenancy (R186). -/
def State.victims (s : State) (d : Nat) (r : Rec) : List (Nat × Nat) :=
  let all := (s.coresFor d r).1.flatMap (fun c => seatNums.map (fun i => (c, i)))
  let asked := all.filter (fun p => (s.seat p.1 p.2).askedFor == some r.entry)
  all.filter (fun p =>
    let t := s.seat p.1 p.2
    t.strand.isSome && t.killed.isNone && t.leave.isNone && t.preempt.isNone && s.claimsSeat p.1 p.2 r
      && asked.all (fun q => q.1 == p.1 && (s.core p.1).ten != some r.strand.ten))

/-- Whether a seat is blocked (R178, R334). -/
def State.seatBlocked (s : State) (c i : Nat) : Bool := !s.seatReady c i && (s.seat c i).pend.isNone && !(s.seat c i).restore

/-- A seat asked to yield: a blocked one leaves at once (R334). -/
def State.askYield (s : State) (c i : Nat) : State :=
  let s := s.modSeat c i (fun t => { t with preempt := some s.tbase })
  if s.seatBlocked c i && !s.inTile c i then s.preemptNow c i else s

/-- A seat asked to yield for a record. -/
def State.askFor (s : State) (c i e : Nat) : State := (s.modSeat c i (fun t => { t with askedFor := some e })).askYield c i

/-- PREEMPT_REQUEST (R186 step 1). -/
def execPreemptRequest (c i : Nat) (s : State) : Host.Outcome State Fault Refusal :=
  let d := dieOf c
  if s.coreStill c || (s.seat c i).halted || (s.seat c i).halting then .next s
  else match (s.die d).recs.find? (fun r => (s.victims d r).contains (c, i)) with
    | none => .next s
    | some r =>
      if (s.victims d r).all (fun p => p = (c, i) || s.victimBefore r.strand.ten (c, i) p) then .next (s.askFor c i r.entry) else .next s

/-- PREEMPT_TIMEOUT (R186 step 3, R290, R334, R335): at an issue boundary outside a tile, with no trap to take first. A seat that yields at a
hint, but still waits for what the hint's bundle started, is blocked. -/
def execPreemptTimeout (c i : Nat) (s : State) : Host.Outcome State Fault Refusal :=
  let t := s.seat c i
  match t.preempt with
  | none => .next s
  | some tick =>
    if s.coreStill c || t.strand.isNone || t.killed.isSome || t.held.isSome || t.pend.isSome || t.halted || t.halting || t.restore
        || (t.leave.isSome && !(t.leave == some .yield && t.wait.isSome)) || !t.deferred.isEmpty || s.inTile c i then .next s
    else if s.tbase < tick + preemptLimit && !s.seatBlocked c i then .next s
    else .next (s.preemptNow c i)

/-! ## The end of a killed strand (R333) -/

/-- Whether an engine of a core still has a command of a strand. -/
def Core.working (k : Core) (x : Strand) : Bool :=
  k.chans.any (fun p => p.2.any (fun y => y.ten == x.ten && y.lid == x.lid && y.idx == x.idx))
    || k.idx.any (fun y => y.ten == x.ten && y.lid == x.lid && y.idx == x.idx)
    || k.unit.any (fun y => y.ten == x.ten && y.lid == x.lid && y.idx == x.idx)

/-- STRAND_KILL (R333): the seat is freed after the strand's signals and engine commands are done. -/
def execStrandKill (c i : Nat) (s : State) : Host.Outcome State Fault Refusal :=
  match (s.seat c i).killed, (s.seat c i).strand with
  | some status, some x =>
    if s.coreStill c then .next s
    else
      let s := s.settle c i
      let t := s.seat c i
      if t.accs.isEmpty && t.sigs.isEmpty && !(s.core c).working x then .next (s.endStrand c i status) else .next s
  | _, _ => .next s

end Sys2Proof.Machine
end

