-- ==== Sys2Proof/Machine/Launches.lean ====
section
/-! DEFINITION. The queue front end and the dispatcher: packets, the start of launches, records and windows, ageing, budgets, reruns and
cancellation (R180 to R189, R210, R313, R392). -/

namespace Sys2Proof.Machine

open Sys2Proof

/-! ## Whose turn it is (R183 stage 1) -/

/-- Whether the front end takes a tenancy's packets (R341, R385). -/
def State.serves (s : State) (ten : Nat) : Bool := s.alive ten && !(s.tenancy ten).frozen

/-- Whether a queue is held by a launch taken from it: one whose dependences are not met, or one that is to run again (R183, R188). -/
def State.queueHeld (s : State) (ten q : Nat) : Bool :=
  s.launches.any (fun l => l.ten == ten && l.queue == q && !l.started && (l.again || !l.deps.all (s.depMet ten)))

/-- Whether every packet taken from a queue has completed (R181). -/
def State.queueDone (s : State) (ten q : Nat) : Bool :=
  s.launches.all (fun l => l.ten != ten || l.queue != q) && s.qcopies.all (fun x => x.ten != ten || x.queue != some q)

/-- Header bits that are zero in every packet (R181); RERUN is one of them outside LAUNCH. -/
def Packet.headerOk (p : Packet) (rerun : Bool) : Bool :=
  p.word 0 &&& (0x7E000F70FFFFFFFF + (if rerun then 0 else 2 ^ 56)) == 0

/-- Whether the dependences of a packet name queue timelines (R181, R182). -/
def Packet.depsOk (p : Packet) : Bool := p.ndep != 3 && p.deps.all (fun d => d.1 != 255)

/-- A SIGNAL packet's form, and a WAITALL packet's, whose body is zero but for its dependences (R181). -/
def Packet.signalOk (p : Packet) : Bool := p.headerOk false && p.depsOk
def Packet.waitOk (p : Packet) : Bool :=
  p.headerOk false && p.depsOk && (List.range 4).all (fun j => p.word (1 + j) == 0)
    && field (p.word 5) 0 8 == 0 && field (p.word 5) 24 40 == 0

/-- Whether the front end can take a packet now (R181, R183): a SIGNAL and a WAITALL wait in their queue for what they need. -/
def State.takeable (s : State) (ten q : Nat) (p : Packet) : Bool :=
  if p.type = 4 then !p.signalOk || (p.deps.all (s.depMet ten) && !s.agentWaits ten .write (p.word 1) 8)
  else if p.type = 5 then !p.waitOk || (p.deps.all (s.depMet ten) && s.queueDone ten q)
  else true

/-- The packet the front end would take from a queue. -/
def State.nextPacket (s : State) (ten q : Nat) : Option Packet :=
  if !s.serves ten || s.queueHeld ten q || (s.die 0).halted.isSome then none
  else match s.headOf ten q with
    | none => none
    | some p => if s.takeable ten q p then some p else none

/-- The effective priority of a queue's next packet (R183). -/
def State.packetPrio (s : State) (ten q : Nat) (p : Packet) : Nat := min 3 (p.prio + (tget (s.tenancy ten).queues {} q).rise)

/-- The queues with a packet to take: priority, and 16 × tenancy + queue. -/
def State.waitingQueues (s : State) : List (Nat × Nat) :=
  s.tens.flatMap (fun t => t.2.queues.filterMap (fun q => match s.nextPacket t.1 q.1 with
    | none => none
    | some p => some (s.packetPrio t.1 q.1 p, 16 * t.1 + q.1)))

/-- How far a queue is behind the one last served, counting round (R183). -/
def roundDist (last n : Nat) : Nat := (n + 272 - last % 272 - 1) % 272

/-- Whether a queue is served next: none has a higher priority, and none of its own comes before it in the round. -/
def State.turnOf (s : State) (pr n : Nat) : Bool :=
  s.waitingQueues.all (fun x => x.1 < pr || (x.1 == pr && roundDist (tget s.pkg.turn 271 pr) n ≤ roundDist (tget s.pkg.turn 271 pr) x.2))

/-- The packet of a queue whose turn it is. -/
def State.served (s : State) (ten q : Nat) : Option Packet :=
  match s.nextPacket ten q with
  | none => none
  | some p => if s.turnOf (s.packetPrio ten q p) (16 * ten + q) then some p else none

/-- A packet taken: the read index moves past its slots (R180), and the queue's turn is over. -/
def State.takePacket (s : State) (ten q : Nat) (p : Packet) : State :=
  let pr := s.packetPrio ten q p
  let n := if p.type = 3 then 2 else 1
  let s := match s.queueOf ten q with
    | none => s
    | some (_, _, _, _, r) => s.agentStore none ten 0 r 8 ((p.k + n) % 2 ^ 64)
  let s : State := { s with pkg := { s.pkg with turn := tput s.pkg.turn pr (16 * ten + q) } }
  (s.modTenancy ten (fun x => { x with queues := tput x.queues q { tget x.queues {} q with since := none, rise := 0 } })).noteQueues ten

/-- A packet of one of some types taken and acted on. -/
def State.onPacket (s : State) (ten q : Nat) (types : Nat → Bool) (k : Packet → State → State) : State :=
  let s := if s.serves ten then s.probeQueue ten q else s
  match s.served ten q with
  | none => s
  | some p => if types p.type then k p (s.takePacket ten q p) else s

/-! ## LAUNCH packets (R181, R168, R183) -/

/-- The launch a packet describes. -/
def Packet.launch (p : Packet) (ten q key prio num : Nat) (expert : Nat) (met : Option Nat) : Launch :=
  let g := p.word 3
  let b := p.word 4
  let c := p.word 5
  { ten := ten, key := key, queue := q, code := p.word 1, arg := BitVec.ofNat 64 (p.word 2), dom := field g 61 3
    gx := field g 0 20 + 1, gy := field g 20 20 + 1, gz := field g 40 20 + 1, pool := field b 0 20 * 256
    vu := field b 20 5, wu := field b 25 5, mclaim := bitAt b 30, spc := field b 31 2 + 1, floor := field b 33 4
    svc := field b 37 2, diemask := field b 39 4, mode := field b 43 16, compl := field c 0 8, deps := p.deps
    budget := field c 24 8, rerun := bitAt (p.word 0) 56, parent := if p.dev then field c 32 32 else 0, prio := prio
    expert := expert, hint := field (p.word 0) 32 8, num := num, met := met }

/-- Whether a LAUNCH packet is well-formed (R181). -/
def Packet.launchOk (p : Packet) (l : Launch) : Bool :=
  p.type == 1 && p.headerOk true && p.depsOk && l.dom ≤ 5 && !bitAt (p.word 3) 60 && l.vu ≤ 16 && l.wu ≤ 16 && l.floor ≤ 8
    && l.diemask != 0 && field l.mode 9 7 == 0 && field (p.word 4) 59 5 == 0 && l.budget ≤ 40

/-- The expert enable each mode bit needs (R168, R169). -/
def modeEnable : List (Nat × Nat) := [(0, 0), (1, 1), (2, 1), (3, 2), (4, 3), (5, 4), (6, 7), (7, 9), (8, 10)]

/-- Whether every mode bit of a launch is enabled. -/
def Launch.modeOk (l : Launch) : Bool := modeEnable.all (fun p => !bitAt l.mode p.1 || bitAt l.expert p.2)

/-- A packet that completes without running. -/
def State.failPacket (s : State) (l : Launch) (status : Nat) : State :=
  (s.finishCompl l.ten l.compl l.num status).childDone l.ten l.parent status

/-- The instruction buffers of every core without a tenancy's bundles: a launch's code is fetched no earlier than its packet is taken
(R224). -/
def State.dropCode (s : State) (ten : Nat) : State :=
  { s with
    cores := s.cores.map (fun p => (p.1, { p.2 with ibuf := p.2.ibuf.filter (fun x => x.ten != ten) }))
    dies := s.dies.map (fun p => (p.1, { p.2 with clBuf := p.2.clBuf.map (fun q => (q.1, q.2.filter (fun x => x.ten != ten))) })) }

/-- LAUNCH_PACKET (R181, R183 stage 1, R184); a packet of an unknown type is malformed. -/
def execLaunchPacket (ten q : Nat) (s : State) : Host.Outcome State Fault Refusal :=
  let since := (tget (s.tenancy ten).queues {} q).since
  .next (s.onPacket ten q (fun t => t ≤ 1 || 5 < t) (fun p s' =>
    let (n, s') := s'.issueCompl ten p.compl
    let x := s'.tenancy ten
    let l := p.launch ten q (x.keys + 1) (s.packetPrio ten q p) n (field x.expert.toNat 0 11) since
    let s' := s'.setTenancy ten { x with keys := x.keys + 1 }
    if !p.launchOk l then s'.failPacket l 2
    else if !l.modeOk then s'.failPacket l 3
    else ({ s' with launches := s'.launches ++ [l] }.dropCode ten).noteQueues ten))

/-! ## Other packets (R181, R313) -/

/-- A COPY or COPYX packet taken from a queue. -/
def State.queueCopy (s : State) (ten q : Nat) (p : Packet) : State :=
  let x : CopyCmd := { num := 0, words := p.words, ten := ten, queue := some q }
  let st := x.judge (bitAt (s.tenancy ten).expert.toNat 5) false true
  let (cn, s) := s.issueCompl ten x.handle
  let t := s.tenancy ten
  let s := s.setTenancy ten { t with keys := t.keys + 1 }
  { s with qcopies := s.qcopies ++ [{ x with num := t.keys + 1, compl := cn, status := st }] }

/-- COPY_PACKET (R313). -/
def execCopyPacket (ten q : Nat) (s : State) : Host.Outcome State Fault Refusal :=
  .next (s.onPacket ten q (fun t => t == 2) (fun p s' => s'.queueCopy ten q p))

/-- COPYX_PACKET (R313). -/
def execCopyxPacket (ten q : Nat) (s : State) : Host.Outcome State Fault Refusal :=
  .next (s.onPacket ten q (fun t => t == 3) (fun p s' => s'.queueCopy ten q p))

/-- A SIGNAL packet's store, and its completion: a value that cannot be stored completes with an error status no rule gives (log 9); an
error consumed, with none (R338). -/
def State.signalStore (s : State) (ten va v compl n : Nat) : State :=
  match s.agentRange ten .write va 8 with
  | .ok _ => (s.agentStore none ten 0 va 8 v).finishCompl ten compl n 0
  | .error (.lost _) => (s.agentStore none ten 0 va 8 v).finishCompl ten compl n 0
  | .error (.err _ _ _) => s.agentStore none ten 0 va 8 v
  | .error _ =>
    let (x, s) := s.takeFree
    s.finishCompl ten compl n (1 + x % 65535)

/-- SIGNAL_PACKET (R181); it waits while the home of its address does not answer. -/
def execSignalPacket (ten q : Nat) (s : State) : Host.Outcome State Fault Refusal :=
  .next (s.onPacket ten q (fun t => t == 4) (fun p s' =>
    let (n, s') := s'.issueCompl ten p.compl
    if !p.signalOk then s'.finishCompl ten p.compl n 2
    else s'.signalStore ten (p.word 1) (p.word 2) p.compl n))

/-- WAITALL_PACKET (R181): it completes; a malformed one has no timeline to say so on. -/
def execWaitallPacket (ten q : Nat) (s : State) : Host.Outcome State Fault Refusal :=
  .next (s.onPacket ten q (fun t => t == 5) (fun _ s' => s'))

/-! ## The start of a launch (R183 stage 2) -/

def State.byKey (s : State) (ten key : Nat) : Option Launch := s.launches.find? (fun l => l.ten == ten && l.key == key)

/-- A change to the launch with a key. -/
def State.modKey (s : State) (ten key : Nat) (f : Launch → Launch) : State :=
  { s with launches := modifyFirst (fun l => l.ten == ten && l.key == key) f s.launches }

/-- The bytes of a die's pool that its record area covers (R392). -/
def Die.recArea (d : Die) : Nat × Nat := (d.recBase, 64 * d.recCount)

/-- The largest window a die can hold (R392). -/
def Die.largestWindow (d : Die) : Nat := max d.recArea.1 (2 ^ 28 - (d.recArea.1 + d.recArea.2))

/-- The pod channel of a tenancy (R380). -/
def State.podChannel (s : State) (ten : Nat) : Option Nat :=
  findNat (fun c => let w := (tget s.pkg.pod 0 (2 * c)).toNat
                    bitAt w 63 && field w 56 7 == ten) 16

/-- Whether a launch may start: service level, gear, and a channel for its phases (R183, R366, R380). -/
def State.canStart (s : State) (l : Launch) : Bool :=
  l.svc ≤ s.svclvl && l.dies.any (fun d => l.floor ≤ min 8 (s.die d).gear)
    && (l.dom != 4 || decide ((s.launches.filter (fun x => x.started && x.dom == 4)).length < 16))
    && (l.dom != 5 || (s.podChannel l.ten).isSome)

/-- The launch ID after the latest one of a tenancy (R183). -/
def nextLid (n : Nat) : Nat := n % (2 ^ 32 - 1) + 1

/-- LAUNCH_START (R183 stage 2, R388, R392). -/
def execLaunchStart (ten key : Nat) (s : State) : Host.Outcome State Fault Refusal :=
  match s.byKey ten key with
  | none => .next s
  | some l =>
    if l.started || !s.alive ten || !l.deps.all (s.depMet ten) then .next s
    else if l.dies.any (fun d => decide ((s.die d).largestWindow < l.pool)) then .next (s.endLaunch l 2)
    else if s.svcFail && s.svclvl < l.svc then .next (s.endLaunch l 3)
    else if !s.canStart l then .next s
    else
      let n := nextLid (s.tenancy ten).lids
      .next ((s.modTenancy ten (fun x => { x with lids := n })).modKey ten key (fun l => { l with started := true, lid := n }))

/-! ## Windows and records (R183 stage 3, R170, R210) -/

/-- The windows of launches on a die: base and bytes. -/
def State.windowsOn (s : State) (d : Nat) : List (Nat × Nat) :=
  s.launches.filterMap (fun l => match tfind l.window d with
    | none => none
    | some b => some (b, l.pool))

/-- Whether a window may lie at a base of a die's pool. -/
def State.windowFree (s : State) (d base n : Nat) : Bool :=
  let x := s.die d
  base % 256 == 0 && base + n ≤ 2 ^ 28 && !overlaps base n x.recArea.1 x.recArea.2
    && (s.windowsOn d).all (fun w => !overlaps base n w.1 w.2) && x.withdrawn.all (fun r => !overlaps base n (4096 * r) 4096)

/-- A launch's window reserved on a die: it holds zero, and its poisoned units are good again (R210, R338). -/
def State.reserveWindow (s : State) (l : Launch) (d base : Nat) : State :=
  let pa := poolBase d + base
  let hit := s.poison.filter (fun u => overlaps (64 * u) 64 pa l.pool)
  let s := s.modDie d (fun x => { x with refilled := (hit.filter (fun u => !x.refilled.contains u)) ++ x.refilled })
  { s with mem := zeroFill s.mem pa l.pool, poison := s.poison.filter (fun u => !hit.contains u) }.modKey l.ten l.key (fun l =>
    { l with window := tput l.window d base })

/-- The spill areas in use by a tenancy: base and bytes (R170). -/
def State.spillAreas (s : State) (ten : Nat) : List (Nat × Nat) :=
  let xs := s.cores.flatMap (fun p => p.2.residents) ++ s.dies.flatMap (fun p => p.2.recs.map Rec.strand)
  (xs.filter (fun x => x.ten == ten)).map (fun x => (x.spill, spillBytes x.vu x.wu))

/-- The lowest place for a spill area that begins where the region or another area does or ends (log 34). -/
def State.spillPlace (s : State) (ten vu wu : Nat) : Option Nat :=
  let x := s.tenancy ten
  let base := field x.spill.toNat 16 48 * 2 ^ 16
  let used := s.spillAreas ten
  let n := spillBytes vu wu
  let ok (a : Nat) : Bool := base ≤ a && a + n ≤ base + x.spillsz.toNat && used.all (fun u => !overlaps a n u.1 u.2)
  (base :: used.map (fun u => u.1 + u.2)).foldl (fun b a => if ok a then some (match b with
    | none => a
    | some b => min a b) else b) none

/-- The linear index of a launch's n-th strand on a die (R179). -/
def Launch.nthOn (l : Launch) (d n : Nat) : Nat :=
  let q := 8 * l.spc
  let k := (findNat (fun k => l.dies.getD k 4 == d) l.dies.length).getD 0
  (n / q * l.dies.length + k) * q + n % q

/-- The cluster in service reached from one, counting upward. -/
def State.clusterFrom (s : State) (d : Nat) (cl : Nat) : Option Nat := ((List.range 16).map (fun j => (cl + j) % 16)).find? (s.inService d)

/-- The clusters in service of a die from one on, counting upward. -/
def State.clustersFrom (s : State) (d first : Nat) : List Nat :=
  ((List.range 16).map (fun j => (first + j) % 16)).filter (s.inService d)

/-- The cluster of a strand's cluster group: the one the group has; under an honoured HINT the group's place from the first cluster on;
else the dispatcher's choice (R183 stage 3). -/
def State.clusterFor (s : State) (l : Launch) (d idx choice : Nat) : Option Nat :=
  let g := idx / (8 * l.spc)
  match tfind l.groupClus g with
  | some c => some c
  | none =>
    if bitAt l.hint 7 && bitAt l.expert 7 then
      let cs := s.clustersFrom d (field l.hint 0 4)
      cs[g / max 1 l.dies.length % max 1 cs.length]?
    else s.clusterFrom d (choice % 16)

/-- The PIN of a launch's records (R179). -/
def Launch.pin (l : Launch) : Nat := if l.dom = 1 then 2 else if l.dom = 2 then 1 else 0

/-- A strand of a launch. Until a core is chosen CORE names the first of the die, or of the cluster of a pinned strand (log 139). -/
def Launch.strand (l : Launch) (d cl idx spill : Nat) : Strand :=
  { ten := l.ten, lid := l.lid, prio := l.prio, floor := l.floor, mode := l.mode, spill := spill, vu := l.vu, wu := l.wu
    mclaim := l.mclaim, pin := l.pin, dom := l.dom, x := idx % l.gx
    core := if l.pin = 0 then 128 * d else if l.pin = 2 then tget l.groupCore (128 * d + 8 * cl) (l.group idx) else 128 * d + 8 * cl
    y := idx / l.gx % l.gy, z := idx / (l.gx * l.gy), idx := idx, expert := l.expert }

/-- The next record of a launch on a die created, if there is an entry, a spill area and a cluster for it. -/
def State.createRec (s : State) (l : Launch) (d choice : Nat) : State :=
  let n := tget l.created 0 d
  if l.onDie d ≤ n then s
  else
    let idx := l.nthOn d n
    match (s.die d).freeEntry, s.spillPlace l.ten l.vu l.wu, s.clusterFor l d idx choice with
    | some e, some a, some cl =>
      let x := l.strand d cl idx a
      let r : Rec := { entry := e, img := freshSeat x l, strand := x, mx := if l.mclaim then some {} else none, ready := true
                       fresh := true, cluster := cl }
      let s := (s.writeRec d r).setRecs d ((s.die d).recs ++ [r])
      s.modKey l.ten l.key (fun l => { l with
        created := tput l.created d (n + 1), groupClus := tput l.groupClus (idx / (8 * l.spc)) cl })
    | _, _, _ => s

/-- RECORD_CREATE (R183 stage 3, R355): the launch's windows are reserved on the dies of its DIEMASK before its first record is
created. -/
def execRecordCreate (ten lid d base choice : Nat) (s : State) : Host.Outcome State Fault Refusal :=
  match s.launch ten lid with
  | none => .next s
  | some l =>
    if !l.started || !s.alive ten || (s.die d).halted.isSome || !l.dies.contains d || (s.die d).waiting.any (fun r => r.ten == ten) then
      .next s
    else if (tfind l.window d).isNone then .next (if s.windowFree d base l.pool then s.reserveWindow l d base else s)
    else if l.dies.all (fun k => (tfind l.window k).isSome) then .next (s.createRec l d choice) else .next s

/-! ## Ageing, budgets, completion (R183, R184, R188) -/

/-- Ticks after which a waiting packet rises one level: 1 ms. -/
def ageLimit : Nat := 1000000

/-- A launch that waits to start aged. -/
def Launch.age (l : Launch) (now : Nat) : Launch :=
  match l.met with
  | none => l
  | some t => if !l.started && t + ageLimit ≤ now then { l with met := some (t + ageLimit), prio := min 3 (l.prio + 1) } else l

/-- A queue's next packet aged. -/
def Queue.age (q : Queue) (now : Nat) : Queue :=
  match q.since with
  | none => q
  | some t => if t + ageLimit ≤ now then { q with since := some (t + ageLimit), rise := min 3 (q.rise + 1) } else q

/-- PRIORITY_AGEING (R183): the packets of a queue that have not started, taken or not. The front end stops with its die (R365,
log 26). -/
def execPriorityAgeing (ten q : Nat) (s : State) : Host.Outcome State Fault Refusal :=
  if (s.die 0).halted.isSome || ((s.tenancy ten).queues.all (fun p => p.1 != q)) then .next s
  else
    let s := s.modTenancy ten (fun x => { x with queues := tput x.queues q ((tget x.queues {} q).age s.tbase) })
    .next { s with launches := s.launches.map (fun l => if l.ten = ten && l.queue = q then l.age s.tbase else l) }

/-- BUDGET_EXPIRY (R188): an overrun is no error. -/
def execBudgetExpiry (ten key : Nat) (s : State) : Host.Outcome State Fault Refusal :=
  .next (s.modKey ten key (fun l => match l.switch with
    | none => l
    | some t => if l.budget ≠ 0 && t + 2 ^ l.budget ≤ s.tbase then { l with overrun := true } else l))

/-- A launch put back to the state of its packet, to run once more (R188). -/
def Launch.rerunOf (l : Launch) (now : Nat) : Launch :=
  { l with
    lid := 0, again := true, started := false, met := some now, switch := none, overrun := false, window := [], created := []
    ended := [], groupCore := [], groupClus := [], phases := [], status := 0, kids := 0, child := false }

/-- Whether every strand of a launch has ended and every child has completed. -/
def Launch.finished (l : Launch) : Bool := l.started && l.total ≤ l.ended.length && l.kids == 0

/-- LAUNCH_COMPLETE (R184, R188). -/
def execLaunchComplete (ten key : Nat) (s : State) : Host.Outcome State Fault Refusal :=
  match s.byKey ten key with
  | none => .next s
  | some l =>
    if !l.finished || !s.alive ten then .next s
    else if l.outcome = 8 && l.rerun && !l.again then .next (s.modKey ten key (fun l => l.rerunOf s.tbase))
    else .next (s.endLaunch l l.outcome)

/-- TCB_LCTL after a command: the value written, DONE, and whether it came too late (R188). -/
def lctlWord (cmd lid : Nat) (done late : Bool) : Word := BitVec.ofNat 64 (cmd * 2 ^ 62 + b2n done * 2 ^ 61 + b2n late * 2 ^ 60 + lid % 2 ^ 32)

/-- Every record of a launch released. -/
def State.dropRecsOf (s : State) (ten lid : Nat) : State :=
  s.dies.foldl (fun (s : State) p =>
    s.setRecs p.1 ((s.die p.1).recs.filter (fun r => !(r.strand.ten == ten && r.strand.lid == lid)))) s

/-- CANCEL (R184, R187, R188): a write of TCB_LCTL with CMD = 1; a smaller status that the launch has already goes before code 5. -/
def execCancel (ten lid : Nat) (s : State) : Host.Outcome State Fault Refusal :=
  let put (s : State) (late : Bool) : State := s.modTenancy ten (fun x => { x with lctl := lctlWord 1 lid true late })
  match s.launch ten lid with
  | none => .next (put s true)
  | some l =>
    if !l.started || l.switch.isSome then .next (put s true)
    else .next (put ((s.dropRecsOf ten lid).endLaunch l (worseStatus l.status 5)) false)

end Sys2Proof.Machine
end

