-- ==== Sys2Proof/Machine/Host.lean ====
section
/-! DEFINITION. The host interface: registers of the functions, the table-update engine, page releases, queues, tenancy resets, host and
fabric accesses (R7, R216, R217, R221, R222, R364, R372 to R378, R392). -/

namespace Sys2Proof.Machine

open Sys2Proof

/-! ## Registers without a behaviour of their own (R7, R169, R217, R298, R353, R373, R375, R377, R380) -/

/-- The bits [hi : lo] of a word set, the others clear. -/
def mask (hi lo : Nat) : Word := BitVec.ofNat 64 (2 ^ (hi + 1) - 2 ^ lo)

/-- A queue descriptor after a write of one of its plain words. -/
def Queue.regWrite (q : Queue) (o : Nat) (v : Word) : Queue :=
  if o = 0x00 then { q with base := v &&& mask 63 6 }
  else if o = 0x10 then { q with widx := v &&& mask 63 3 }
  else if o = 0x18 then { q with ridx := v &&& mask 63 3 }
  else q

/-- A tenancy control block after a write to a plain register; pf says that the PF writes (R373). -/
def Tenancy.regWrite (x : Tenancy) (pf : Bool) (o : Nat) (v : Word) : Tenancy :=
  if o = 0x00 && pf then { x with expert := v &&& 0x6FF }
  else if o = 0x08 then { x with tvec := v, vecn := x.vecn + 1 }
  else if o = 0x10 then { x with debug := v &&& 1 }
  else if o = 0x18 && pf then { x with spill := v &&& mask 63 16 }
  else if o = 0x20 && pf then { x with spillsz := v }
  else if o = 0x28 && pf then { x with poolva := v &&& (mask 55 30 ||| 1) }
  else if o = 0x38 && pf then { x with root := v &&& (mask 51 11 ||| 1) }
  else if o = 0x40 && pf then { x with tlva := v &&& (mask 55 17 ||| 1) }
  else if o = 0x48 then { x with qtl := v &&& mask 55 12 }
  else if o = 0x50 && pf then { x with podkey := v &&& mask 15 0 }
  else if o = 0x58 && field v.toNat 62 2 ≠ 1 then { x with lctl := lctlWord (field v.toNat 62 2) (field v.toNat 0 32) false false }
  else if 0x100 ≤ o && o < 0x300 then
    { x with queues := tput x.queues ((o - 0x100) / 32) ((tget x.queues {} ((o - 0x100) / 32)).regWrite (o % 32) v) }
  else x

/-- TUE_ERR after a write (R222): ERR is W1C, and SEQ reads 0 while it is clear. -/
def clearTueErr (old v : Word) : Word := if bitAt v.toNat 63 then 0 else old

/-- Whether a number of commands is one that the table-update ring can have: a power of two from 16 to 65,536. -/
def ringSize (n : Nat) : Bool := 16 ≤ n && n ≤ 65536 && n == 2 ^ Nat.log2 n

/-- The PF registers outside the tenancy control blocks after a write; a ring size that is none is not taken (log 115). -/
def Pkg.regWrite (p : Pkg) (o : Nat) (v : Word) : Pkg :=
  if o = 0x2008 then (if ringSize v.toNat then { p with tueRsize := v } else p)
  else if o = 0x2010 then { p with tueWidx := v }
  else if o = 0x2020 then { p with tueErr := clearTueErr p.tueErr v }
  else if o = 0x3000 then { p with evqBase := v }
  else if o = 0x3008 then { p with evqSize := v }
  else if o = 0x3018 then { p with evqRidx := v }
  else if o = 0x4008 then { p with lsd := v &&& mask 6 0 }
  else if o = 0x40800 then { p with keyidx := v &&& mask 15 0 }
  else if 0x41000 ≤ o && o < 0x41200 && o % 32 = 0 then
    { p with pod := tset p.pod 0 ((o - 0x41000) / 16) (v &&& (mask 63 54 ||| mask 27 0)) }
  else if 0x41000 ≤ o && o < 0x41200 && o % 32 = 8 then { p with pod := tset p.pod 0 ((o - 0x41000) / 32 * 2 + 1) v }
  else if o = 0x80000 then { p with fumint := v &&& mask 31 0 }
  else if o = 0x80010 then { p with fumen := v &&& 1 }
  else if o = 0x80018 then { p with split := v }
  else if o = 0x80020 then { p with scrubint := v &&& mask 31 0 }
  else p

/-- REG_WRITE (R7, R373): function 0 is the PF; an offset with no register, and a read-only one, ignores the write. -/
def execRegWrite (fn off : Nat) (v : Word) (s : State) : Host.Outcome State Fault Refusal :=
  if fn ≠ 0 then .next (if fn ≤ 16 && off < 0x1000 then s.modTenancy fn (fun x => x.regWrite false off v) else s)
  else if 0x20000 ≤ off && off < 0x31000 then .next (s.modTenancy ((off - 0x20000) / 0x1000) (fun x => x.regWrite true (off % 0x1000) v))
  else .next { s with pkg := s.pkg.regWrite off v }

/-- RECAREA_WRITE (R392). -/
def execRecareaWrite (d : Nat) (v : Word) (s : State) : Host.Outcome State Fault Refusal :=
  let size := field v.toNat 0 12
  let busy := !(s.die d).recs.isEmpty || !(s.windowsOn d).isEmpty || s.cores.any (fun p => dieOf p.1 == d && !p.2.residents.isEmpty)
  if busy then .next s
  else .next (s.modDie d (fun x => { x with recarea := (v &&& mask 27 16) ||| BitVec.ofNat 64 (max 1 size) }))

/-- TABLEBASE_WRITE (R216). -/
def execTablebaseWrite (d : Nat) (v : Word) (s : State) : Host.Outcome State Fault Refusal :=
  .next (s.modDie d (fun x => { x with tablebase := v &&& mask 37 16 }))

/-- XDTO_WRITE (R364). -/
def execXdtoWrite (v : Word) (s : State) : Host.Outcome State Fault Refusal :=
  .next { s with pkg := { s.pkg with xdto := min 10000 (max 1 (field v.toNat 0 14)) } }

/-- KEYDAT_WRITE (R377). -/
def execKeydatWrite (v : Word) (s : State) : Host.Outcome State Fault Refusal :=
  .next { s with pkg := { s.pkg with keymap := tset s.pkg.keymap 0 s.pkg.keyidx.toNat (v &&& (mask 63 63 ||| mask 55 48)) } }

/-! ## Reads of registers (R7, R373) -/

/-- A word of a queue descriptor. -/
def Queue.regRead (q : Queue) (o : Nat) : Word :=
  if o = 0x00 then q.base else if o = 0x08 then q.ctl else if o = 0x10 then q.widx else if o = 0x18 then q.ridx else 0

/-- A register of a tenancy control block; TCB_RESET reads 0, since its command is done (R375). -/
def Tenancy.regRead (x : Tenancy) (o : Nat) : Word :=
  if o = 0x00 then x.expert
  else if o = 0x08 then x.tvec
  else if o = 0x10 then x.debug
  else if o = 0x18 then x.spill
  else if o = 0x20 then x.spillsz
  else if o = 0x28 then x.poolva
  else if o = 0x30 then x.pgrel
  else if o = 0x38 then x.root
  else if o = 0x40 then x.tlva
  else if o = 0x48 then x.qtl
  else if o = 0x50 then x.podkey
  else if o = 0x58 then x.lctl
  else if 0x100 ≤ o && o < 0x300 then (tget x.queues {} ((o - 0x100) / 32)).regRead (o % 32)
  else 0

/-- A register of the PF that the package holds as one word. -/
def Pkg.regRead (p : Pkg) (o : Nat) : Word :=
  if o = 0x2000 then p.tueRbase
  else if o = 0x2008 then p.tueRsize
  else if o = 0x2010 then p.tueWidx
  else if o = 0x2018 then p.tueDone
  else if o = 0x2020 then p.tueErr
  else if o = 0x3000 then p.evqBase
  else if o = 0x3008 then p.evqSize
  else if o = 0x3010 then p.evqWidx
  else if o = 0x3018 then p.evqRidx
  else if o = 0x4000 then BitVec.ofNat 64 p.xdto
  else if o = 0x4008 then p.lsd
  else if 0x40000 ≤ o && o < 0x40200 then tget p.route 0 ((o - 0x40000) / 8)
  else if 0x40400 ≤ o && o < 0x40480 then BitVec.ofNat 64 (p.lane ((o - 0x40400) / 8))
  else if o = 0x40800 then p.keyidx
  else if o = 0x40808 then tget p.keymap 0 p.keyidx.toNat
  else if 0x41000 ≤ o && o < 0x41200 && o % 32 < 16 then tget p.pod 0 ((o - 0x41000) / 32 * 2 + o % 32 / 8)
  else if o = 0x80000 then p.fumint
  else if o = 0x80010 then p.fumen
  else if o = 0x80018 then p.split
  else if o = 0x80020 then p.scrubint
  else 0

/-- The physical core that serves a logical one, 15 for none. -/
def Cluster.physOf (x : Cluster) (j : Nat) : Nat := (tfind x.phys j).getD j

/-- REPMAP of a cluster (R353). -/
def Cluster.repmap (x : Cluster) : Nat := b2n (!x.spareUsed) * 2 ^ 32 + packElems 4 x.physOf 8

/-- The cluster of a die that a fumarole pass drains next: the next in service, counting upward modulo 16 (R348, R353). -/
def State.fumCluster (s : State) (d : Nat) : Nat := (s.clustersFrom d (s.die d).fumNext).headD (s.die d).fumNext

/-- A register of BAR0 of a function as it reads (R7, R373): 0 at an offset with no register. -/
def State.regRead (s : State) (fn off : Nat) : Nat :=
  let tcb (t o : Nat) : Nat := ((s.tenancy t).regRead o).toNat
  if off % 8 ≠ 0 then 0
  else if fn ≠ 0 then (if fn ≤ 16 && off < 0x1000 then tcb fn off else 0)
  else if off = 0 then b2n s.svcFail * 4 + s.svclvl
  else if 0x1000 ≤ off && off < 0x1020 then (s.die ((off - 0x1000) / 8)).tablebase.toNat
  else if 0x1100 ≤ off && off < 0x1120 then (s.die ((off - 0x1100) / 8)).recarea.toNat
  else if 0x5000 ≤ off && off < 0x7000 then
    (tget (s.die ((off - 0x5000) / 2048)).boards {} ((off - 0x5000) / 8 % 256)).word
  else if 0x8000 ≤ off && off < 0x8200 then (s.bar ((off - 0x8000) / 8)).word
  else if 0x20000 ≤ off && off < 0x31000 then tcb ((off - 0x20000) / 0x1000) (off % 0x1000)
  else if off = 0x80008 then s.pkg.fumDie * 16 + s.fumCluster s.pkg.fumDie
  else if 0x80028 ≤ off && off < 0x80048 then (s.die ((off - 0x80028) / 8)).retired.length
  else if 0x80100 ≤ off && off < 0x80300 then
    let k := (off - 0x80100) / 8
    (tget (s.die (k / 16)).clusters {} (k % 16)).repmap
  else if 0x81000 ≤ off && off < 0xA1000 then
    let k := (off - 0x81000) / 8
    (s.die (k / 4096)).retired.getD (k % 4096) 0 % 2 ^ 36 * 2 ^ 16
  else (s.pkg.regRead off).toNat

/-! ## The table-update engine (R222) -/

/-- The physical address of a host address (R207). -/
def hostPa (a : Nat) : Nat := 0x9000000000000 + a % 2 ^ 48

/-- A command of the ring: operation, tenancy, target, value, sequence number. -/
structure TueCmd where
  op : Nat
  ten : Nat
  target : Nat
  value : Nat
  seq : Nat
deriving DecidableEq, Repr

/-- The next command, if the host has written one: the ring lies in host memory, and TUE_WIDX counts the commands written since
TUE_RBASE (log 35). -/
def State.tueHead (s : State) : Option TueCmd :=
  let p := s.pkg
  let k := p.tueNext - 1
  if !p.hostUp || p.hostHeld.isSome || p.tueRsize = 0 || p.tueWidx.toNat ≤ k then none
  else
    let a := hostPa (p.tueRbase.toNat + 32 * (k % p.tueRsize.toNat))
    let w (j : Nat) : Nat := leRead s.mem (a + 8 * j) 8
    some ⟨field (w 0) 56 8, field (w 0) 48 8, w 1, w 2, w 3⟩

/-- Whether a command completes with ERR and no effect. -/
def TueCmd.bad (x : TueCmd) (expected : Nat) : Bool :=
  x.op == 0 || 3 < x.op || x.seq != expected || 16 < x.ten || (x.op == 1 && x.target % 8 != 0)

/-- A command completed. -/
def State.tueDone (s : State) (bad : Bool) : State :=
  let p := s.pkg
  let err := if bad && !bitAt p.tueErr.toNat 63 then BitVec.ofNat 64 (2 ^ 63 + p.tueNext % 2 ^ 32) else p.tueErr
  { s with pkg := { p with tueDone := BitVec.ofNat 64 p.tueNext, tueNext := p.tueNext + 1, tueErr := err } }

/-- The table-update event of an operation: a bad command only completes. -/
def State.tueStep (s : State) (mine : Nat → Bool) (k : TueCmd → State → State) : State :=
  if [0, 1, 2, 3].any (fun d => (s.die d).halted.isSome) then s
  else match s.tueHead with
    | none => s
    | some x => if !mine x.op then s else if x.bad s.pkg.tueNext then s.tueDone true else k x s

/-- A value stored at an offset of a die's table region, where that is populated. -/
def State.tableStore (s : State) (d off v : Nat) : State :=
  let pa := s.tablePa d off
  if hbmBytes ≤ pa - hbmBase d then s else s.store pa 8 0 v

/-- TUE_WRITE (R222); an unknown operation completes here. -/
def execTueWrite (s : State) : Host.Outcome State Fault Refusal :=
  .next (s.tueStep (fun op => op ≤ 1 || 3 < op) (fun x s =>
    ((((s.tableStore 0 x.target x.value).tableStore 1 x.target x.value).tableStore 2 x.target x.value).tableStore 3 x.target
      x.value).tueDone false))

/-- A tenancy's translations that overlap a range removed from every TLB of the package. -/
def State.dropAllTlbs (s : State) (ten base n : Nat) : State :=
  let keep (l : List Tlb) : List Tlb := l.filter (fun t => !t.within ten base n)
  { s with
    cores := s.cores.map (fun p => (p.1, { p.2 with tlb := keep p.2.tlb }))
    dies := s.dies.map (fun p => (p.1, { p.2 with tlb := keep p.2.tlb, clTlb := p.2.clTlb.map (fun q => (q.1, keep q.2)) })) }

/-- The ranges of a tenancy's cached translations that overlap a range: base and bytes. -/
def State.leavesIn (s : State) (ten base n : Nat) : List (Nat × Nat) :=
  let hit (l : List Tlb) : List (Nat × Nat) := (l.filter (fun t => t.within ten base n)).map (fun t => (t.base, t.size))
  (s.cores.flatMap (fun p => hit p.2.tlb) ++ s.dies.flatMap (fun p => hit p.2.tlb ++ p.2.clTlb.flatMap (fun q => hit q.2))).eraseDups

/-- Whether an access of a tenancy that was translated within some ranges has not performed at SYS scope, or waits for the check of its
home (R239), or a walk of the tenancy goes on over tables that are no longer its own (R217). -/
def State.inFlight (s : State) (ten : Nat) (rs : List (Nat × Nat)) : Bool :=
  let hit (va n : Nat) : Bool := rs.any (fun r => overlaps va n r.1 r.2)
  s.dies.any (fun p => p.2.walks.any (fun w => w.ten == ten && w != s.beginWalk ten w.page)) || s.cores.any (fun p => p.2.seats.any (fun q => match q.2.strand with
    | none => false
    | some x => x.ten == ten && (q.2.accs.any (fun a => !a.pool && a.pas.isSome && !a.performed && hit a.va a.n)
        || (match q.2.held with
          | none => false
          | some h => h.check.any (fun k => hit k.1 k.2.2.1)))))

/-- A flush: the translations go at once, and the command completes when no access that used one is under way. -/
def State.flush (s : State) (ten base n : Nat) : State :=
  let rs := s.pkg.flushed ++ s.leavesIn ten base n
  let s' := s.dropAllTlbs ten base n
  if s.inFlight ten ((base, n) :: rs) then { s' with pkg := { s'.pkg with flushed := rs } }
  else { s' with pkg := { s'.pkg with flushed := [] } }.tueDone false

/-- FLUSHVA (R222). -/
def execFlushva (s : State) : Host.Outcome State Fault Refusal :=
  .next (s.tueStep (fun op => op == 2) (fun x s =>
    let n := cdiv x.value (2 ^ 16) * 2 ^ 16
    if n = 0 then s.tueDone false else s.flush x.ten (x.target / 2 ^ 16 * 2 ^ 16) n))

/-- FLUSHTEN (R222). -/
def execFlushten (s : State) : Host.Outcome State Fault Refusal :=
  .next (s.tueStep (fun op => op == 3) (fun x s => s.flush x.ten 0 (2 ^ 64)))

/-- TUE_RBASE_WRITE (R222): with the numbers beginning again, none has completed. -/
def execTueRbaseWrite (v : Word) (s : State) : Host.Outcome State Fault Refusal :=
  .next { s with pkg := { s.pkg with tueRbase := v, tueNext := 1, tueDone := 0 } }

/-! ## Pages (R221) -/

/-- Whether a release of a page value covers an address: the page, or everything under ALL. -/
def released (v : Word) (va : Nat) : Bool := bitAt v.toNat 0 || va / 2 ^ 16 % 2 ^ 40 == field v.toNat 16 40

/-- A page that something waits for, after a release. -/
def unstick (v : Word) (mine : Bool) (t : Option Nat) : Option Nat :=
  match t with
  | none => none
  | some va => if mine && released v va then none else some va

/-- A seat after a release: one blocked in place goes on, and one that still leaves for its page knows that it is released (R221). -/
def Seat.release (t : Seat) (ten : Nat) (v : Word) : Seat :=
  let mine := t.strand.any (fun x => x.ten == ten)
  { t with
    stuck := unstick v mine t.stuck
    paged := t.paged || (mine && (match t.leave with
      | some (.page va _) => released v va
      | _ => false)) }

/-- A core after a release: its engines' commands and its seats go on. -/
def Core.release (k : Core) (ten : Nat) (v : Word) : Core :=
  { k with
    chans := k.chans.map (fun p => (p.1, p.2.map (fun x => { x with stuck := unstick v (x.ten == ten) x.stuck })))
    idx := k.idx.map (fun x => { x with stuck := unstick v (x.ten == ten) x.stuck })
    seats := k.seats.map (fun p => (p.1, p.2.release ten v)) }

/-- PAGE_RELEASE (R221, R290, R310): a write of TCB_PGREL. -/
def execPageRelease (ten : Nat) (v : Word) (s : State) : Host.Outcome State Fault Refusal :=
  let s := s.modTenancy ten (fun x => { x with pgrel := v &&& (mask 55 16 ||| 1) })
  let s : State := { s with
    cores := s.cores.map (fun p => (p.1, p.2.release ten v))
    dies := s.dies.map (fun p => (p.1, { p.2 with posted := p.2.posted.filter (fun x => !(x.1 == ten && released v (x.2 * 2 ^ 16))) }))
    qcopies := s.qcopies.map (fun x => { x with stuck := unstick v (x.ten == ten) x.stuck }) }
  .next (s.dies.foldl (fun (s : State) p =>
    s.wakeWhere p.1 (fun r => r.strand.ten == ten && r.kind == 4 && released v (field r.wake.toNat 0 56))) s)

/-! ## Queues and tenancies (R375, R376) -/

/-- A queue after a write of its QCTL (R375): what it serves is taken when EN rises, and nothing is served while EN = 0. -/
def Queue.control (q : Queue) (v : Word) : Queue :=
  let v := v &&& (mask 63 63 ||| mask 8 8 ||| mask 4 0)
  let n := field v.toNat 0 5
  if !bitAt v.toNat 63 then { q with ctl := v, served := none, since := none, rise := 0 }
  else if bitAt q.ctl.toNat 63 then { q with ctl := v }
  else { q with ctl := v, served := if 6 ≤ n && n ≤ 16 then some (q.base.toNat, n, bitAt v.toNat 8, q.widx.toNat, q.ridx.toNat) else none }

/-- QUEUE_ENABLE (R375). -/
def execQueueEnable (ten q : Nat) (v : Word) (s : State) : Host.Outcome State Fault Refusal :=
  if 16 ≤ q then .next s
  else .next ((s.modTenancy ten (fun x => { x with queues := tput x.queues q ((tget x.queues {} q).control v) })).noteQueues ten)

/-- NOTIFY_WRITE (R376): the requester's earlier writes are complete, since each is when it is made. -/
def execNotifyWrite (ten q slot : Nat) (hdr : Word) (s : State) : Host.Outcome State Fault Refusal :=
  match s.queueOf ten q with
  | none => .next s
  | some (base, log2, _, _, _) =>
    let va := base + 64 * (slot % 2 ^ log2)
    if s.agentWaits ten .write va 8 then .next s else .next ((s.agentStore none ten 0 va 8 hdr.toNat).noteQueues ten)

/-- The CTXLOST record of a kill that no consumption caused: class, agent, launch and address are given by no rule (log 9). -/
def State.postKill (s : State) (ten : Nat) : State :=
  let (v, s) := s.takeFree
  let words := s.ctxlostWords ten (field v 0 8, field v 8 8, field v 16 32, field v 48 52, 2 ^ 64 - 1)
  s.post 0 evCtxlost ten 0 0 words

/-- TCB_RESET_KILL (R375, R341): a write of TCB_RESET with CMD = 1. A tenancy frozen while the host is lost stays frozen (R385). -/
def execTcbResetKill (ten : Nat) (s : State) : Host.Outcome State Fault Refusal :=
  let x := s.tenancy ten
  let s := if x.doom.isSome then s.doomTenancy ten else if x.killed then s else (s.postKill ten).killTenancy ten
  let s : State := { s with dies := s.dies.map (fun p => (p.1, { p.2 with
    boards := p.2.boards.map (fun b => (b.1, if b.2.ten = ten && b.2.en then {} else b.2))
    posted := p.2.posted.filter (fun y => y.1 != ten) })) }
  .next (s.setTenancy ten { frozen := x.frozen && !s.pkg.hostUp })

/-- TCB_RESET_UNFREEZE (R375, R385): it takes effect once the link is back. -/
def execTcbResetUnfreeze (ten : Nat) (s : State) : Host.Outcome State Fault Refusal :=
  if s.pkg.hostUp then .next ((s.modTenancy ten (fun x => { x with frozen := false })).noteQueues ten) else .next s

/-! ## Accesses from outside (R373, R374, R377) -/

/-- A completion sent to the host. -/
def State.replyHost (s : State) (ur poisoned : Bool) (v : Nat) : State := { s with pkg := { s.pkg with hostReply := some (ur, poisoned, v) } }

/-- A host's read through BAR2: one that cannot be served completes with Unsupported Request and all ones, or poisoned. -/
def State.hostRead (s : State) (fn va n : Nat) : State :=
  match s.agentRange fn .read va n with
  | .ok ps => (s.partsFill ps).replyHost false false (s.partsVal ps)
  | .error .wait => s
  | .error (.err cls pa _) =>
    let s := if cls = 4 then s.postAt (reportDie pa) evSecalert fn pa else s
    s.replyHost false true (2 ^ (8 * n) - 1)
  | .error (.fail _) => s.replyHost true false (2 ^ (8 * n) - 1)
  | .error .absent => s.replyHost true false (2 ^ (8 * n) - 1)
  | .error (.lost _) => s.replyHost true false (2 ^ (8 * n) - 1)

/-- A host's write through BAR2: one that cannot be served is dropped, and one that meets poison consumes it (R338). -/
def State.hostWrite (s : State) (fn va n v : Nat) : State :=
  match s.agentRange fn .write va n with
  | .ok ps => ((s.partsFill ps).partsStore ps v).noteQueues fn
  | .error (.err cls pa _) => s.agentConsume none fn 0 cls pa va
  | .error _ => s

/-- HOST_ACCESS (R373, R372, R338): through BAR2 an access to memory, whose walks mend the tables (R340), through BAR0 a read of a
register. -/
def execHostAccess (fn va n : Nat) (op : HostOp) (v : Nat) (s : State) : Host.Outcome State Fault Refusal :=
  if !s.pkg.hostUp || s.pkg.hostHeld.isSome || 16 < fn then .next s
  else match op with
    | .read => .next ((s.agentWalks fn va n).hostRead fn va n)
    | .write => .next ((s.agentWalks fn va n).hostWrite fn va n v)
    | .regRead => .next (s.replyHost false false (s.regRead fn va))

/-- Whether a host access of a tenancy's strands to a page of host memory is outstanding. -/
def State.hostPending (s : State) (ten page : Nat) : Bool :=
  s.cores.any (fun p => p.2.seats.any (fun q => match q.2.strand with
    | none => false
    | some x => x.ten == ten && q.2.accs.any (fun a => !a.performed && a.parts.any (fun pa => overlaps pa a.n (hostPa (page * 4096)) 4096))))

/-- ATS_INVALIDATE (R374): it completes, and says so to the host, once no request that used the translation is outstanding. -/
def execAtsInvalidate (fn page : Nat) (s : State) : Host.Outcome State Fault Refusal :=
  if !s.pkg.hostUp || s.hostPending fn page then .next s
  else .next { s with pkg := { s.pkg with ats := tset s.pkg.ats 0 fn (tget s.pkg.ats 0 fn + 1) } }

/-- A reply sent to a fabric peer. -/
def State.replyPeer (s : State) (reason : Nat) (vals : List Nat) : State :=
  { s with pkg := { s.pkg with peerReply := some (reason, vals) } }

/-- A peer's request that could not be served: a page not present has no reason code of its own, so the reason is free (log 9); an error
is consumed by the bound tenancy, and nothing is replied (R338). -/
def State.refusePeer (s : State) (ten va : Nat) (e : AgentStop) : State :=
  match e with
  | .fail r => s.replyPeer r []
  | .absent =>
    let (v, s) := s.takeFree
    s.replyPeer (1 + v % 12) []
  | .err cls pa _ => s.consumeAt ten 0 cls 0 pa va
  | .lost _ => s.replyPeer 5 []
  | .wait => s

/-- The source port of a peer's request: those of peers follow every local port, by module (R249). -/
def tagSource (x : FabTag) : Nat := 16384 * (x.m + 1) + x.port % 16384

/-- A peer's request that a die's home applies once (R250): a replay that finds its entry is answered from it; any other is applied, and its
result, the reason and then the values, is kept. -/
def State.onceFor (s : State) (d : Nat) (tag : FabTag) (k : State → State × Nat × List Nat) : State :=
  match (if tag.replay then s.keptReply d (tagSource tag) tag.seq else none) with
  | some (r :: vals) => s.replyPeer r vals
  | _ =>
    let (s, r, vals) := k s
    (s.keepReply d (tagSource tag) tag.seq (r :: vals)).replyPeer r vals

/-- The die of a home of this package; host memory is served at die 0. -/
def homeDie (pa : Nat) : Nat :=
  match placeOf pa with
  | .hbm d => d
  | .pool d => d
  | .host => 0
  | .peer _ => 0
  | .tl => 0
  | .none => 0

/-- Whether a peer's atomic can be applied at a home of this package. -/
def ownHome (ps : List Part) : Bool := ps.length == 1 && redPlace ps

/-- A peer's atomic applied at a home of this package (R244, R247): the old value and the success flag return. -/
def State.peerAtomic (s : State) (op : AtOp) (n v u : Nat) (ps : List Part) : State × Nat × List Nat :=
  match accRefused (.atom op) ((ps.map Prod.fst).headD 0) with
  | some r => (s, r, [])
  | none =>
    let m := s.partsVal ps
    let (new, ok) := atomNew op (8 * n) m v u
    ((s.partsFill ps).partsStore ps new, 0, [m, b2n ok])

/-- A peer's board request applied under a tenancy (R255 to R258, R377): a board without a grant, and one of another tenancy, refuse it. -/
def State.boardFor (s : State) (ten kind : Nat) (handle part value : Word) (explicit : Bool) : State × Nat × List Nat :=
  let (_, _, d, b) := handleFields handle
  let x := tget (s.die d).boards {} b
  if badHandle handle then (s, 2, [0])
  else if !x.fab || x.ten ≠ ten then (s, 4, [0])
  else
    let (s, r) := s.boardAt d b ten explicit kind handle part value
    (s, r.reason, if r.reason = 0 then r.vals else [r.parts])

/-- A request of a peer applied under a tenancy. -/
def State.applyPeer (s : State) (ten : Nat) (req : FabReq) : State :=
  match req with
  | .load va n => match s.agentRange ten .read va n with
    | .ok ps => (s.partsFill ps).replyPeer 0 [s.partsVal ps]
    | .error e => s.refusePeer ten va e
  | .store va n v => match s.agentRange ten .write va n with
    | .ok ps => (((s.partsFill ps).partsStore ps v).noteQueues ten).replyPeer 0 []
    | .error e => s.refusePeer ten va e
  | .atomic op va n v u tag => match s.agentRange ten .atomic va n with
    | .ok ps =>
      if ownHome ps then s.onceFor (homeDie ((ps.map Prod.fst).headD 0)) tag (fun s => s.peerAtomic op n v u ps)
      else s.replyPeer 5 []
    | .error e => s.refusePeer ten va e
  | .board kind handle part value explicit tag =>
    let d := (handleFields handle).2.2.1
    if (s.die d).halted.isSome then s
    else s.onceFor d tag (fun s => s.boardFor ten kind handle part value explicit)

/-- FABRIC_REQUEST_IN (R377): under a key not bound, a board request is refused with reason 4 and any other with GRANT. -/
def execFabricRequestIn (key : Nat) (req : FabReq) (s : State) : Host.Outcome State Fault Refusal :=
  let e := (tget s.pkg.keymap 0 key).toNat
  if !bitAt e 63 then
    .next (s.replyPeer (match req with
      | .board _ _ _ _ _ _ => 4
      | .load _ _ => 12
      | .store _ _ _ => 12
      | .atomic _ _ _ _ _ _ => 12) [])
  else .next (s.applyPeer (field e 48 8) req)

end Sys2Proof.Machine
end

