-- ==== Sys2Proof/Machine/Fabric.lean ====
section
/-! DEFINITION. Dies, links and peers: cross-die timeouts, the loss of a peer or of the host, link faults, and the pod collective (R364,
R372, R377 to R382, R385, R387). -/

namespace Sys2Proof.Machine

open Sys2Proof

/-! ## The loss of a module (R381, R382, R385) -/

/-- Whether an engine waits for a module. -/
def waitsFor (m : Nat) : Option (Nat × Nat) → Bool
  | some (pa, _) => moduleOf pa == some m
  | none => false

/-- Stores outstanding to a module. -/
def State.storesTo (s : State) (m : Nat) : Nat :=
  (s.cores.map (fun p => (p.2.seats.map (fun q =>
    (q.2.accs.filter (fun a => (a.kind == .store || a.kind == .vstore) && a.parts.any (fun pa => moduleOf pa == some m))).length)).sum)).sum

/-- A lost module leaves every pod channel; the next phase of such a channel says so (R382). -/
def Pkg.losePod (p : Pkg) (m : Nat) : Nat → Pkg
  | 0 => p
  | c + 1 =>
    let p := p.losePod m c
    let w := (tget p.pod 0 (2 * c + 1)).toNat
    if bitAt w m then { p with
      pod := tset p.pod 0 (2 * c + 1) (BitVec.ofNat 64 (w - 2 ^ m)), podLost := if bitAt p.podLost c then p.podLost else p.podLost + 2 ^ c }
    else p

/-- Every tenancy frozen (R385). -/
def State.freezeAll (s : State) : State :=
  (List.range 17).foldl (fun (s : State) t => s.modTenancy t (fun x => { x with frozen := true })) s

/-- A seat whose board request awaits a lost peer: it fails (R263). -/
def Seat.loseBoard (t : Seat) (m : Nat) : Seat :=
  { t with held := match t.held with
      | none => none
      | some h => match h.board with
        | none => some h
        | some (_, handle, _, _) =>
          let (rmt, k, _) := handleFields handle
          some (if rmt && k == m && !badHandle handle then { h with answer := some (5, [m]) } else h) }

/-- A seat's accesses outstanding to a lost module: they complete as lost whenever they next act, and no reply of it counts any more, though
the module be admitted again (R381, R382). -/
def Seat.loseAccs (t : Seat) (m : Nat) : Seat :=
  { t with accs := t.accs.map (fun a =>
      if a.parts.any (fun pa => moduleOf pa == some m) then { a with lost := some m, result := none } else a) }

/-- A copy, and an index command, with a request outstanding to a lost module. -/
def CopyCmd.lose (m : Nat) (x : CopyCmd) : CopyCmd := if waitsFor m x.waits then { x with gone := m :: x.gone } else x
def IdxCmd.lose (m : Nat) (x : IdxCmd) : IdxCmd := if waitsFor m x.waits then { x with gone := m :: x.gone } else x

/-- What a core has outstanding to a lost module. -/
def Core.lose (m : Nat) (k : Core) : Core :=
  { k with
    seats := k.seats.map (fun (q : Nat × Seat) => (q.1, (q.2.loseBoard m).loseAccs m))
    chans := k.chans.map (fun (q : Nat × List CopyCmd) => (q.1, q.2.map (CopyCmd.lose m)))
    idx := k.idx.map (IdxCmd.lose m) }

/-- The requests that a lost module has not replied to. -/
def State.loseRequests (s : State) (m : Nat) : State :=
  { s with
    cores := s.cores.map (fun (p : Nat × Core) => (p.1, p.2.lose m))
    qcopies := s.qcopies.map (CopyCmd.lose m) }

/-- A module lost (R381, R385): 64 is the host. Requests to it complete as R382 says when they next act; board requests fail (R263). -/
def State.loseModule (s : State) (m : Nat) : State :=
  if m = 64 then
    if s.pkg.hostUp then ({ s with pkg := { s.pkg with hostUp := false, hostHeld := none } }.loseRequests 64).freezeAll else s
  else
    let w := tget s.pkg.route 0 m
    if !bitAt w.toNat 63 then s
    else
      let n := s.storesTo m
      { s.loseRequests m with pkg := { s.pkg with route := tset s.pkg.route 0 m (w &&& mask 62 0) }.losePod m 16 }.post 0 evPeerlost 0xFF 0 0
        [BitVec.ofNat 64 (m + n * 2 ^ 32)]

/-- PEER_LOSS (R381). -/
def execPeerLoss (m : Nat) (s : State) : Host.Outcome State Fault Refusal := .next (s.loseModule m).writeQlines

/-- PEER_REMOVE_DECLARE (R387, R381). -/
def execPeerRemoveDeclare (m : Nat) (s : State) : Host.Outcome State Fault Refusal := .next (if m < 64 then (s.loseModule m).writeQlines else s)

/-- HOST_LINK_RETURN (R385): tenancies stay frozen. -/
def execHostLinkReturn (s : State) : Host.Outcome State Fault Refusal :=
  if s.pkg.hostUp then .next s else .next { s with pkg := { s.pkg with hostUp := true, hostHeld := none, hostNarrow := false } }

/-- A peer that is a new home: the numbering of requests to it, and the replay caches of its requests, begin again (R381). -/
def State.newHome (s : State) (m : Nat) : State :=
  { s with
    pkg := { s.pkg with reqSeq := s.pkg.reqSeq.filter (fun p => p.1 % 128 != 64 + m) }
    dies := s.dies.map (fun p => (p.1, { p.2 with replay := p.2.replay.filter (fun q => q.1 / 64 / 16384 != m + 1) })) }

/-- ROUTE_TABLE_WRITE (R377, R381): a peer admitted again is a new home. -/
def execRouteTableWrite (m : Nat) (v : Word) (s : State) : Host.Outcome State Fault Refusal :=
  if 64 ≤ m then .next s
  else
    let old := tget s.pkg.route 0 m
    let s : State := { s with pkg := { s.pkg with route := tset s.pkg.route 0 m (v &&& (mask 63 63 ||| mask 3 0)) } }
    .next (if bitAt v.toNat 63 && !bitAt old.toNat 63 then s.newHome m else s)

/-! ## Timeouts (R364) -/

/-- What answers a request: a die, or a module. -/
inductive Responder where
  | own
  | die (d : Nat)
  | module (m : Nat)
deriving DecidableEq, Repr

/-- The responder of a physical address for a request of a die. -/
def responderOf (me pa : Nat) : Responder :=
  let die (d : Nat) : Responder := if d = me then .own else .die d
  match placeOf pa with
  | .hbm d => die d
  | .pool d => die d
  | .host => .module 64
  | .peer m => .module m
  | .tl => die (timelineDie pa)
  | .none => .own

/-- The responder of a board request. -/
def boardResponder (c : Nat) (handle : Word) : Responder :=
  let (rmt, m, d, _) := handleFields handle
  if badHandle handle then .own else if rmt then .module m else if d = dieOf c then .own else .die d

/-- Whether traffic to a module is held, or has been and its timeouts are still to be moved on (R372, R379). -/
def State.moduleHeld (s : State) (m : Nat) : Bool :=
  if m = 64 then s.pkg.hostHeld.isSome else (tfind s.pkg.portHeld (s.pkg.portOf m)).isSome

/-- A request of a die, of an agent at a core, that has waited since a tick judged: restart is the state with its timeout begun again. A
responder die is reported once until it replies; a module is lost (R364). -/
def State.timeOut (s : State) (c : Nat) (r : Responder) (sent : Nat) (restart : State) : State :=
  let me := dieOf c
  if (s.die me).halted.isSome || s.tbase < sent + 1000 * s.pkg.xdto then s
  else match r with
    | .own => s
    | .die d =>
      if (s.die me).slow.contains d then restart
      else (restart.modDie me (fun x => { x with slow := d :: x.slow })).post me evXdslow 0xFF (clusterOf c) (c % 8)
        [BitVec.ofNat 64 (d + (s.tbase - sent) * 2 ^ 8)]
    | .module m => if s.moduleHeld m then s else s.loseModule m

/-- The timeout of a seat's access: its first sending begins it. -/
def State.accTimeout (s : State) (c i : Nat) (a : Acc) : State :=
  let r := (a.parts.map (responderOf (dieOf c))).find? (fun r => r != .own) |>.getD .own
  let send := s.modSeat c i (fun t => t.modAcc a.id (fun x => x.send s.tbase))
  match r, a.sent with
  | .own, _ => s
  | _, none => if (s.seat c i).mayAct a && a.due != never then send else s
  | _, some t => s.timeOut c r t send

/-- The responder that a held bundle waits for: of its checks, or of its board request (R239, R254). -/
def Held.responder (h : Held) (c : Nat) : Responder :=
  match (h.check.map (fun k => responderOf (dieOf c) k.2.1)).find? (fun r => r != .own), h.board with
  | some r, _ => r
  | none, some (_, handle, _, _) => boardResponder c handle
  | none, none => .own

/-- The timeout of a seat's held bundle. -/
def State.heldTimeout (s : State) (c i : Nat) (h : Held) : State :=
  match h.sent with
  | none => s
  | some t => s.timeOut c (h.responder c) t (s.modSeat c i (fun t => { t with held := some { h with sent := some s.tbase } }))

/-- The timeout of a wait of an engine for a home (R364); put sets the wait. -/
def State.waitTimeout (s : State) (c : Nat) (w : Option (Nat × Nat)) (put : State → Option (Nat × Nat) → State) : State :=
  match w with
  | none => s
  | some (pa, t) => s.timeOut c (responderOf (dieOf c) pa) t (put s (some (pa, s.tbase)))

/-- The first of some parts whose home lies off a die. -/
def awayPart (me : Nat) (ps : Except Stop (List Part)) : Option Nat :=
  match ps with
  | .ok l => (l.map Prod.fst).find? (fun pa => responderOf me pa != .own)
  | .error _ => none

/-- A home off the engine's die that a copy's next access goes to (R364). -/
def State.copyAway (s : State) (e : Eng) (x : CopyCmd) : Option Nat :=
  let k := (findNat (fun k => !x.wrote k) x.units).getD 0
  let (a, b) := x.offsets k
  let src := if x.srcPool then sextN 64 (x.word 1) + a else (x.word 1 : Int) + a
  if x.status ≠ 0 || x.ended.isSome then none
  else match awayPart (dieOf e.core) (s.engRange e x.srcPool .read 0 src (x.unitBytes x.sfmt)) with
    | some pa => some pa
    | none => awayPart (dieOf e.core) (s.copyDst e x b (x.unitBytes x.dfmt))

/-- A home off the core's die that an index command's next granule goes to. -/
def State.idxAway (s : State) (c : Nat) (x : IdxCmd) : Option Nat :=
  let k := (findNat (fun k => !x.did.contains k) x.count).getD 0
  let lane := x.lanes.getD (if x.op = 2 then k / x.perLane else k) (0, false)
  if !lane.2 then none
  else awayPart (dieOf c) (if x.op = 0 then s.engRange (x.eng c) (!x.glob) .read 0 lane.1 x.gran
    else if x.op = 1 then s.engRange (x.eng c) (!x.glob) .write 2 lane.1 x.gran
    else s.engRange (x.eng c) (!x.glob) .atomic 4 lane.1 x.gran)

/-- The timeout of an engine's command: where it waits for no home, its next access is sent; otherwise its wait is judged. -/
def State.engineTimeout (s : State) (c : Nat) (w : Option (Nat × Nat)) (away : Option Nat) (put : State → Option (Nat × Nat) → State) : State :=
  match w with
  | some _ => s.waitTimeout c w put
  | none => match away with
    | none => s
    | some pa => put s (some (pa, s.tbase))

/-- The timeout of the command at the head of a copy channel. -/
def State.chanTimeout (s : State) (c ch : Nat) : State :=
  match tget (s.core c).chans [] ch with
  | [] => s
  | x :: _ =>
    if x.stuck.isSome || x.dead || !s.marked c x.seat x.mark x.ten x.lid x.idx then s
    else s.engineTimeout c x.waits (s.copyAway ⟨c, x.ten, x.lid, x.idx, 16 * c + 4 + ch, x.num, x.gone, x.ask⟩ x) (fun s w =>
      s.modCore c (fun k => k.modChan ch (fun l => { x with waits := w } :: l.tail)))

/-- The timeout of the oldest index command of a seat. -/
def State.idxTimeout (s : State) (c i : Nat) : State :=
  match (s.core c).idx.find? (fun x => x.seat == i) with
  | none => s
  | some x =>
    if x.stuck.isSome || x.dead || !s.marked c i x.mark x.ten x.lid x.idx then s
    else s.engineTimeout c x.waits (s.idxAway c x) (fun s w => s.modCore c (fun k => k.keepIdx i { x with waits := w }))

/-- The timeout of the k-th queue copy of a tenancy. -/
def State.queueTimeout (s : State) (ten k : Nat) : State :=
  match (s.qcopies.filter (fun x => x.ten == ten))[k]? with
  | none => s
  | some x =>
    if x.stuck.isSome || x.dead then s
    else s.engineTimeout 0 x.waits (s.copyAway ⟨0, ten, 0, 0, 8192, x.num, x.gone, x.ask⟩ x) (fun s w =>
      { s with qcopies := modifyFirst (fun y => y.ten == ten && y.num == x.num) (fun y => { y with waits := w }) s.qcopies })

/-- The timeout of a die's walkers that wait for another die's replica (R340, R364). -/
def State.walkTimeout (s : State) (me d : Nat) : State :=
  let wait (s : State) : State := s.modDie me (fun x => { x with walkWait := tput x.walkWait d s.tbase })
  if !((s.die me).walks.take 16).any (fun w => (s.rooted w).walkStop me w.ten (w.page * 2 ^ 16) == some d) then
    s.modDie me (fun x => { x with walkWait := terase x.walkWait d })
  else match tfind (s.die me).walkWait d with
    | none => wait s
    | some t => s.timeOut (128 * me) (.die d) t (wait s)

/-- CROSS_DIE_TIMEOUT (R364). Agents 0 to 3 are the seats of a core: their access with the id, or, where none has it, their held bundle; 4 to
11 its copy channels; 12 its index engine, for the seat id; 13 the walkers of its die, waiting for die id; 14 the queue copies, id being 32
times the copy's place among its tenancy's plus the tenancy. -/
def execCrossDieTimeout (c i id : Nat) (s : State) : Host.Outcome State Fault Refusal :=
  if (s.die (dieOf c)).halted.isSome then .next s
  else if i < 4 then .next (match (s.seat c i).findAcc id, (s.seat c i).held with
    | some a, _ => s.accTimeout c i a
    | none, some h => s.heldTimeout c i h
    | none, none => s)
  else if i < 12 then .next (s.chanTimeout c (i - 4))
  else if i = 12 then .next (s.idxTimeout c id)
  else if i = 13 then .next (s.walkTimeout (dieOf c) id)
  else .next (s.queueTimeout (id % 32) (id / 32))

/-! ## Counters that stand still (R365, R372, R379) -/

/-- A tick that something counts from, moved on by n ticks in which it did not count, the last of them now: what began later counts from
now. -/
def later (n now : Nat) (t : Option Nat) : Option Nat :=
  match t with
  | none => none
  | some t => some (min (t + n) now)

/-- The same for a wait for a physical address. -/
def laterWait (n now : Nat) (w : Option (Nat × Nat)) : Option (Nat × Nat) :=
  match w with
  | none => none
  | some (pa, t) => some (pa, min (t + n) now)

/-- Whether a responder is a module that a test holds of. -/
def Responder.isModule (p : Nat → Bool) : Responder → Bool
  | .own => false
  | .die _ => false
  | .module m => p m

/-- The timeouts of a seat's requests to some modules moved on. -/
def Seat.shiftModules (t : Seat) (p : Nat → Bool) (c n now : Nat) : Seat :=
  { t with
    accs := t.accs.map (fun a =>
      if a.parts.any (fun pa => (responderOf (dieOf c) pa).isModule p) then { a with sent := later n now a.sent } else a)
    held := match t.held with
      | none => none
      | some h => some (if (h.responder c).isModule p then { h with sent := later n now h.sent } else h) }

/-- A wait of an engine for some modules moved on. -/
def waitShift (p : Nat → Bool) (me n now : Nat) (w : Option (Nat × Nat)) : Option (Nat × Nat) :=
  match w with
  | none => none
  | some (pa, t) => if (responderOf me pa).isModule p then laterWait n now (some (pa, t)) else some (pa, t)

/-- The timeouts of a core's requests to some modules moved on. -/
def Core.shiftModules (k : Core) (p : Nat → Bool) (c n now : Nat) : Core :=
  { k with
    seats := k.seats.map (fun q => (q.1, q.2.shiftModules p c n now))
    chans := k.chans.map (fun q => (q.1, q.2.map (fun x => { x with waits := waitShift p (dieOf c) n now x.waits })))
    idx := k.idx.map (fun x => { x with waits := waitShift p (dieOf c) n now x.waits }) }

/-- The timeouts of every request to some modules moved on by n ticks that did not count. -/
def State.shiftModules (s : State) (p : Nat → Bool) (n : Nat) : State :=
  { s with
    cores := s.cores.map (fun q => (q.1, q.2.shiftModules p q.1 n s.tbase))
    qcopies := s.qcopies.map (fun x => { x with waits := waitShift p 0 n s.tbase x.waits }) }

/-! ## Links (R377 to R379) -/

/-- The physical lane that carries a logical lane of a port (R378). -/
def Pkg.laneOf (p : Pkg) (port i : Nat) : Nat := if i < field (p.lane port) 0 4 then i else i + 1

/-- LANEMAP of a port with its fields set. -/
def Pkg.setLane (p : Pkg) (port : Nat) (up train : Bool) (fault : Nat) : Pkg :=
  { p with lanes := tset p.lanes 15 port (BitVec.ofNat 64 (b2n up * 2 ^ 7 + b2n train * 2 ^ 6 + fault % 16)) }

/-- Ticks for which traffic may be held: 150 microseconds (R372, R379). -/
def holdLimit : Nat := 150000

/-- Whether a module's traffic takes a port (R377). -/
def State.routed (s : State) (port m : Nat) : Bool :=
  m < 64 && bitAt (tget s.pkg.route 0 m).toNat 63 && s.pkg.portOf m == port

/-- The end of what held a port's traffic: the timeouts of the requests routed through it count again, with the ticks of the hold left out
(R379). -/
def State.endHold (s : State) (port : Nat) : State :=
  match tfind s.pkg.portHeld port with
  | none => s
  | some t =>
    let n := if bitAt (s.pkg.lane port) 6 then s.tbase - t else min (s.tbase - t) spareLimit
    let s := s.shiftModules (s.routed port) n
    { s with pkg := { s.pkg with portHeld := terase s.pkg.portHeld port } }

/-- A port's traffic held from now on (R379). -/
def State.beginHold (s : State) (port : Nat) : State :=
  let s := s.endHold port
  { s with pkg := { s.pkg with portHeld := tput s.pkg.portHeld port s.tbase } }

/-- A retrain begun: traffic is held. -/
def State.retrain (s : State) (port : Nat) : State :=
  let w := s.pkg.lane port
  if !bitAt w 7 || bitAt w 6 then s
  else
    let s := s.beginHold port
    { s with pkg := s.pkg.setLane port true true (field w 0 4) }

/-- LINK_UP (R378): traffic passes. -/
def execLinkUp (port : Nat) (s : State) : Host.Outcome State Fault Refusal :=
  let w := s.pkg.lane port
  if bitAt w 7 then .next s else .next { s with pkg := s.pkg.setLane port true false (field w 0 4) }.writeQlines

/-- LANE_FAULT (R379): the first failed lane is left out, which stalls traffic; a second failure retrains the link. -/
def execLaneFault (port l : Nat) (s : State) : Host.Outcome State Fault Refusal :=
  let w := s.pkg.lane port
  if !bitAt w 7 || 8 < l || field w 0 4 = l then .next s
  else if field w 0 4 ≠ 15 then .next (s.retrain port)
  else
    let s := if bitAt w 6 then s else s.beginHold port
    .next { s with pkg := s.pkg.setLane port true (bitAt w 6) l }

/-- LINK_RETRAIN (R379). -/
def execLinkRetrain (port : Nat) (s : State) : Host.Outcome State Fault Refusal := .next (s.retrain port)

/-- LINK_RETRAIN_COMPLETE (R379): the end of a retrain within 150 microseconds, or of the sparing of a lane. -/
def execLinkRetrainComplete (port : Nat) (s : State) : Host.Outcome State Fault Refusal :=
  let w := s.pkg.lane port
  match tfind s.pkg.portHeld port with
  | none => .next s
  | some t =>
    if bitAt w 6 && decide (t + holdLimit < s.tbase) then .next s
    else
      let s := s.endHold port
      .next { s with pkg := s.pkg.setLane port true false (field w 0 4) }.writeQlines

/-- RETRAIN_TIMEOUT (R379): a retrain that fails or takes longer, or a partner silent on all nine lanes, loses the link, and with it the
peers behind it (R381). -/
def execRetrainTimeout (port : Nat) (s : State) : Host.Outcome State Fault Refusal :=
  let w := s.pkg.lane port
  if !bitAt w 7 then .next s
  else
    let s' : State := { s with pkg := { s.pkg.setLane port false false (field w 0 4) with portHeld := terase s.pkg.portHeld port } }
    .next (((List.range 64).filter (s.routed port)).foldl State.loseModule s').writeQlines

/-- FLIT_REPLAY (R377): link-level retry loses and duplicates nothing. -/
def execFlitReplay (port : Nat) (s : State) : Host.Outcome State Fault Refusal :=
  if !bitAt (s.pkg.lane port) 7 then .next s
  else .next { s with pkg := { s.pkg with replayed := tset s.pkg.replayed 0 port (tget s.pkg.replayed 0 port + 1) } }

/-- PCIE_LINK_DEGRADE (R372): host traffic is held. -/
def execPcieLinkDegrade (s : State) : Host.Outcome State Fault Refusal :=
  if !s.pkg.hostUp || s.pkg.hostHeld.isSome then .next s else .next { s with pkg := { s.pkg with hostHeld := some s.tbase } }

/-- PCIE_RETRAIN_COMPLETE (R372): the hold, of 150 microseconds at most, ends at the narrower width. -/
def execPcieRetrainComplete (s : State) : Host.Outcome State Fault Refusal :=
  match s.pkg.hostHeld with
  | none => .next s
  | some t =>
    let s' := s.shiftModules (fun m => m == 64) (min (s.tbase - t) holdLimit)
    .next { s' with pkg := { s'.pkg with hostHeld := none, hostNarrow := true } }.writeQlines

/-! ## The pod collective (R380) -/

/-- One level of the tree over the modules' contributions. -/
def podLevel (f : Nat → Nat → Nat) : List Nat → List Nat
  | a :: b :: r => f a b :: podLevel f r
  | l => l

/-- The fixed tree over 64 leaves. -/
def podTree (f : Nat → Nat → Nat) (l : List Nat) : Nat :=
  (podLevel f (podLevel f (podLevel f (podLevel f (podLevel f (podLevel f l)))))).headD 0

/-- The reduction of a channel (R380): 1 wrapping sum, 2 signed maximum, 3 FP32 sum in the low half. -/
def podReduce (op : Nat) (l : List Nat) : Nat :=
  if op = 1 then podTree (fun a b => (a + b) % 2 ^ 64) l
  else if op = 2 then podTree (fun a b => if sextN 64 a < sextN 64 b then b else a) l
  else podTree (fun a b => (fAdd fp32 .rne false a b).bits) (l.map (fun x => x % 2 ^ 32))

/-- The leaves of the tree: each member's contribution at its number, 0 elsewhere. -/
def podLeaves (members mine : Nat) (own : Nat) (peers : List (Nat × Word)) : List Nat :=
  (List.range 64).map (fun m =>
    if !bitAt members m then 0
    else if m = mine then own
    else match peers.find? (fun p => p.1 == m) with
      | none => 0
      | some p => p.2.toNat)

/-- The launches of a tenancy whose strands are this module's part of the pod group (R380). -/
def State.podLaunches (s : State) (ten : Nat) : List Launch := s.launches.filter (fun l => l.ten == ten && l.dom == 5 && l.started)

/-- Whether every strand of this module's part of the pod group that has not ended has arrived. -/
def State.podArrived (s : State) (ten : Nat) : Bool :=
  (s.podLaunches ten).all (fun l => l.noneMissing 0) && (s.podLaunches ten).any (fun l => decide (0 < l.here 0))

/-- The place of a channel's contribution in the window of the launch bound to it, on the lowest die of its DIEMASK (log 114). -/
def State.podPa (s : State) (l : Launch) (c : Nat) : Nat := s.windowPa l.ten l.lid (l.dies.headD 0) (field (tget s.pkg.pod 0 (2 * c)).toNat 0 28)

/-- The phase of a pod group released through a channel: the result is written beside the contribution. A pair outside the window is
neither read nor written, and its contribution is free; so is the upper half of an FP32 result (log 9). -/
def State.podRelease (s : State) (l : Launch) (c : Nat) (peers : List (Nat × Word)) : State :=
  let w := (tget s.pkg.pod 0 (2 * c)).toNat
  let members := (tget s.pkg.pod 0 (2 * c + 1)).toNat
  let op := field w 54 2
  let pa := s.podPa l c
  let inside := field w 0 28 + 16 ≤ l.pool
  let (v, s) := s.takeFree
  let own := if inside then s.load pa 8 else v % 2 ^ 64
  let res := podReduce op (podLeaves members (field s.pkg.lsd.toNat 0 6) own peers)
  let (h, s) := s.takeFree
  let res := if op = 3 then res + h % 2 ^ 32 * 2 ^ 32 else res
  let s := if inside && op ≠ 0 then s.store (pa + 8) 8 0 res else s
  let lost := bitAt s.pkg.podLost c
  let s : State := { s with pkg := { s.pkg with podLost := if lost then s.pkg.podLost - 2 ^ c else s.pkg.podLost } }
  (s.podLaunches l.ten).foldl (fun (s : State) x => s.releaseGroup x.ten x.lid 0 lost) s

/-- POD_PHASE_RELEASE (R380, R201): peers gives the contribution of every other member module, all of whose strands have arrived. A
contribution that is poisoned is consumed (R338), one on a halted die is waited for (R365). -/
def execPodPhaseRelease (ten lid : Nat) (peers : List (Nat × Word)) (s : State) : Host.Outcome State Fault Refusal :=
  let s := s.eachSeat State.arrivePhase
  match s.launch ten lid, s.podChannel ten with
  | some l, some c =>
    let members := (tget s.pkg.pod 0 (2 * c + 1)).toNat
    let mine := field s.pkg.lsd.toNat 0 6
    if l.dom = 5 && l.started && s.podArrived ten
        && (List.range 64).all (fun m => !bitAt members m || m == mine || peers.any (fun p => p.1 == m)) then
      match s.homeOne (s.podPa l c) 0 with
      | .silent => .next s
      | .poison cls pa => .next (s.agentConsume none ten lid cls pa (2 ^ 64 - 1))
      | _ => .next (s.podRelease l c peers)
    else .next s
  | _, _ => .next s

end Sys2Proof.Machine
end

