-- ==== Sys2Proof/Machine/Reliability.lean ====
section
/-! DEFINITION. Errors in storage, kills, scrubbing, the fumarole pass, control-core pairs, retired cores and event records (R336 to R356,
R365). -/

namespace Sys2Proof.Machine

open Sys2Proof

/-! ## Errors in storage (R336 to R341) -/

/-- A 64-byte unit poisoned (R336); a pool unit that was zero-filled before is noted (R338). -/
def State.poisonUnit (s : State) (u : Nat) : State :=
  if s.poison.contains u then s
  else
    let s : State := { s with poison := u :: s.poison }
    match placeOf (64 * u) with
    | .pool d => s.modDie d (fun x => if x.refilled.contains u && !x.again.contains u then { x with again := u :: x.again } else x)
    | .hbm _ => s
    | .host => s
    | .peer _ => s
    | .tl => s
    | .none => s

/-- The line of a memory-side cache poisoned, where one is held; its sector is not (R336). -/
def State.poisonLine (s : State) (u : Nat) : State :=
  match tfind s.lines u with
  | none => s
  | some l => { s with lines := tput s.lines u { l with bad := true } }

/-- UE_CONSUME (R336 to R338): an access finds an uncorrectable error, of a sector, a pool unit or a cached line, or a failed tag, and its
tenancy is to be killed. The error of a register, a latch, an accumulator or a queue entry, class 3, shows only here (log 118); it and a
failed tag poison no unit of memory. -/
def execUeConsume (ten lid cls agent pa va : Nat) (s : State) : Host.Outcome State Fault Refusal :=
  let s := if cls = 1 || cls = 2 then s.poisonUnit (pa / 64) else if cls = 5 then s.poisonLine (pa / 64) else s
  .next (s.consumeAt ten lid cls agent pa va)

/-- TENANCY_KILL (R341). -/
def execTenancyKill (ten : Nat) (s : State) : Host.Outcome State Fault Refusal := .next (s.doomTenancy ten)

/-- CE (R336): the error is corrected in place. -/
def execCe (d place : Nat) (s : State) : Host.Outcome State Fault Refusal := .next (s.postAt d evCe 0xFF place)

/-- Whether a unit is in a die's HBM or pool. -/
def unitOn (d u : Nat) : Bool :=
  match placeOf (64 * u) with
  | .hbm k => k == d
  | .pool k => k == d
  | .host => false
  | .peer _ => false
  | .tl => false
  | .none => false

/-- SCRUB (R339): once per SCRUBINT seconds; ce and ue are the units with a correctable and an uncorrectable error. -/
def execScrub (d : Nat) (ce ue : List Nat) (s : State) : Host.Outcome State Fault Refusal :=
  if (s.die d).halted.isSome || s.tbase < (s.die d).scrubbed + s.pkg.scrubint.toNat * 1000000000 then .next s
  else
    let s := s.modDie d (fun x => { x with scrubbed := s.tbase })
    let s : State := (ce.filter (unitOn d)).foldl (fun (s : State) u => s.postAt d evCe 0xFF (64 * u)) s
    .next ((ue.filter (fun u => unitOn d u && !s.poison.contains u)).foldl (fun (s : State) u =>
      (s.poisonUnit u).postAt d evScrubue 0xFF (64 * u)) s)

/-! ## Draining a cluster (R335, R346, R348) -/

def State.cluster (s : State) (d cl : Nat) : Cluster := tget (s.die d).clusters {} cl
def State.modCluster (s : State) (d cl : Nat) (f : Cluster → Cluster) : State :=
  s.modDie d (fun x => { x with clusters := tput x.clusters cl (f (tget x.clusters {} cl)) })

/-- What a cluster is drained for changed, and with it the list that a record stands on (R346, R349). -/
def State.setDrain (s : State) (d cl : Nat) (z : Drain) : State := (s.modCluster d cl (fun x => { x with drain := z })).relinkDie d

/-- The seats of a cluster. -/
def clusterSeats (d cl : Nat) : List (Nat × Nat) := (coresOf d cl).flatMap (fun c => seatNums.map (fun i => (c, i)))

/-- Every strand of a cluster asked to yield; a seat already asked, or leaving, joins what is under way (R335). -/
def State.drainSeats (s : State) (d cl : Nat) : State :=
  (clusterSeats d cl).foldl (fun (s : State) p =>
    let t := s.seat p.1 p.2
    if t.strand.isSome && t.killed.isNone && t.leave.isNone && t.preempt.isNone && !t.restore then s.askYield p.1 p.2 else s) s

/-- The requests to yield of a drain withdrawn; one made for a record stands (R186). -/
def State.stopDrain (s : State) (d cl : Nat) : State :=
  (clusterSeats d cl).foldl (fun (s : State) p => s.modSeat p.1 p.2 (fun t => if t.askedFor.isSome then t else { t with preempt := none })) s

/-- Whether no strand is left on a cluster's seats. -/
def State.vacant (s : State) (d cl : Nat) : Bool := (clusterSeats d cl).all (fun p => (s.seat p.1 p.2).strand.isNone)

/-- Whether every engine command of a cluster's cores has completed. -/
def State.enginesDone (s : State) (d cl : Nat) : Bool :=
  (coresOf d cl).all (fun c => (s.core c).chans.all (fun p => p.2.isEmpty) && (s.core c).idx.isEmpty && (s.core c).unit.isEmpty)

/-! ## The fumarole pass (R348 to R352) -/

/-- Whether some cluster of the package is in a pass. -/
def State.passing (s : State) : Bool :=
  s.dies.any (fun p => p.2.clusters.any (fun q => match q.2.drain with
    | .pass _ => true
    | .scan _ => true
    | .pair _ => false
    | .none => false))

/-- The cluster of a die in the first part of a pass. -/
def Die.passCluster (d : Die) : Option (Nat × Nat) :=
  firstSome (fun p => match p.2.drain with
    | .pass t => some (p.1, t)
    | .scan _ => none
    | .pair _ => none
    | .none => none) d.clusters

/-- The interval of the passes of the package in ticks: a quarter of FUMINT (R348). -/
def Pkg.passTicks (p : Pkg) : Nat := p.fumint.toNat * 1000000 / 4

/-- The pass that is due begun, or skipped (R348): the dies take turns, and each its clusters in service (log 36). -/
def State.beginPass (s : State) (d : Nat) : State :=
  let cl := s.fumCluster d
  let skip := !bitAt s.pkg.fumen.toNat 0 || s.svclvl < 3 || (s.cluster d cl).retry.isSome || s.passing || !s.inService d cl
  let s : State := { s with pkg := { s.pkg with fumDie := (d + 1) % 4, fumLast := s.tbase } }.modDie d (fun x =>
    { x with fumNext := (cl + 1) % 16 })
  if skip then s else (s.setDrain d cl (.pass s.tbase)).drainSeats d cl

/-- FUMAROLE_PASS (R348): a pass begins when it is due; once its cluster is drained and its engine commands are complete, the semaphores
are saved and the self-test begins. -/
def execFumarolePass (d : Nat) (s : State) : Host.Outcome State Fault Refusal :=
  match (s.die d).passCluster with
  | some (cl, _) =>
    if s.vacant d cl && s.enginesDone d cl then
      .next (s.modCluster d cl (fun x => { x with
        drain := .scan s.tbase, saved := (List.range 8).map (fun j => (j, (s.core (128 * d + 8 * cl + j)).sem)) }))
    else .next (s.drainSeats d cl)
  | none =>
    if s.pkg.fumDie = d && s.pkg.fumLast + s.pkg.passTicks ≤ s.tbase then .next (s.beginPass d) else .next s

/-- FUMAROLE_ABANDON (R348): 10 ms after the drain began. -/
def execFumaroleAbandon (d : Nat) (s : State) : Host.Outcome State Fault Refusal :=
  match (s.die d).passCluster with
  | none => .next s
  | some (cl, t) =>
    if t + 10000000 ≤ s.tbase then .next ((s.setDrain d cl .none).stopDrain d cl) else .next s

/-- Whether a record is bound to a core (R352). -/
def State.boundTo (s : State) (c : Nat) (r : Rec) : Bool :=
  r.only == some c || (r.strand.pin == 2 && (match s.launch r.strand.ten r.strand.lid with
    | none => r.strand.core == c
    | some l => tfind l.groupCore (l.group r.strand.idx) == some c))

/-- Whether a core could ever take n strands with a record's allocations: what its seats hold now aside, as R176 allows them. -/
def State.couldTake (s : State) (k : Nat) (x : Strand) (n : Nat) : Bool :=
  !(s.core k).absent && decide (n ≤ 4) && decide (n * x.vu ≤ 16) && decide (n * x.wu ≤ 16) && (!x.mclaim || decide (n ≤ 1))

/-- How many strands a record's core must take at once: its whole group, if that is pinned to one (R179). -/
def State.groupSize (s : State) (r : Rec) : Nat :=
  match s.launch r.strand.ten r.strand.lid with
  | none => 1
  | some l => if r.strand.pin = 2 then l.members (l.group r.strand.idx) else 1

/-- A record bound to a lost core: one never seated is bound to the lowest core of its cluster that R176 allows, any other is killed (R352,
log 119). -/
def State.rebind (s : State) (d c : Nat) (r : Rec) : State :=
  if !r.fresh then s.endRec d r 8
  else match (coresOf d (clusterOf c)).find? (fun k => s.couldTake k r.strand (s.groupSize r)) with
    | none => s.endRec d r 8
    | some k =>
      let s := s.setRecs d ((s.die d).recs.map (fun q => if q.entry = r.entry then { q with only := none } else q))
      (s.bindRecs d k (fun q => q.entry == r.entry)).modLaunch r.strand.ten r.strand.lid (fun l => { l with groupCore := tput l.groupCore (l.group r.strand.idx) k })

/-- A logical core lost (R352): which records are bound to it is settled before any of them is rebound. -/
def State.loseCore (s : State) (d c : Nat) : State :=
  let s := s.modCore c (fun k => { k with absent := true, sem := [], semLast := [], ten := none })
  (((s.die d).recs.filter (s.boundTo c)).foldl (fun (s : State) r => s.rebind d c r) s).relinkDie d

/-- One logical core of a cluster after a scan: a failed one is replaced by an unused spare that passed, or lost (R350). -/
def State.judgeCore (s : State) (d cl : Nat) (failed : List Nat) (j : Nat) : State :=
  let x := s.cluster d cl
  let c := 128 * d + 8 * cl + j
  if (s.core c).absent || !failed.contains (x.physOf j) then s
  else
    let s := s.post d evCoreret 0xFF cl j [BitVec.ofNat 64 (x.physOf j)]
    if !x.spareUsed && !failed.contains 8 then
      (s.modCluster d cl (fun x => { x with spareUsed := true, phys := tput x.phys j 8 })).post d evRepair 0xFF cl j [8]
    else (s.modCluster d cl (fun x => { x with phys := tput x.phys j 15 })).loseCore d c

/-- The pool slice of a cluster after a pass (R338): each unit poisoned again gets a spare row, while one is left, or its row range is
withdrawn from windows. -/
def Die.replaceRows (x : Die) (d cl : Nat) : Die :=
  x.again.foldl (fun x u =>
    let off := 64 * u - poolBase d
    if off / 2 ^ 24 ≠ cl then x
    else
      let x := { x with again := x.again.filter (fun k => k != u), refilled := x.refilled.filter (fun k => k != u) }
      if tget x.rowsUsed 0 cl < Config.spareRows then { x with rowsUsed := tset x.rowsUsed 0 cl (tget x.rowsUsed 0 cl + 1) }
      else { x with withdrawn := (off / 4096) :: x.withdrawn }) x

/-- The physical cores of a drained cluster that have failed judged: those found now and those found since its last drain (R350); a spare that
failed is marked used. -/
def State.judgeCluster (s : State) (d cl : Nat) (found : List Nat) : State :=
  let failed := found ++ (s.cluster d cl).pending
  let s : State := (List.range 8).foldl (fun (s : State) j => s.judgeCore d cl failed j) s
  s.modCluster d cl (fun x => { x with
    pending := [], spareUsed := x.spareUsed || failed.contains 8, split := bitAt s.pkg.split.toNat (16 * d + cl) })

/-- SCAN_SELF_TEST_COMPLETE (R348 step 5, R350, R347): failed gives the physical cores that failed, 8 being the spare. Failures found outside
a pass take effect at the cluster's next drain (log 117). -/
def execScanSelfTestComplete (d cl : Nat) (failed : List Nat) (s : State) : Host.Outcome State Fault Refusal :=
  match (s.cluster d cl).drain with
  | .scan _ =>
    let saved := (s.cluster d cl).saved
    let s : State := (List.range 8).foldl (fun (s : State) j => s.modCore (128 * d + 8 * cl + j) (fun k => { k with sem := tget saved [] j })) s
    .next ((((s.judgeCluster d cl failed).modCluster d cl (fun x => { x with saved := [] })).setDrain d cl .none).modDie d (fun x => x.replaceRows d cl))
  | _ => .next (s.modCluster d cl (fun x => { x with pending := (x.pending ++ failed).eraseDups }))

/-! ## Control-core pairs (R345 to R347) -/

/-- Whether a cluster's pair compares signatures. -/
def Cluster.paired (x : Cluster) : Bool := !x.split && !x.pairOut

/-- PAIR_CHECKPOINT (R346): every 256 cycles. -/
def execPairCheckpoint (d cl : Nat) (s : State) : Host.Outcome State Fault Refusal :=
  let x := s.cluster d cl
  if x.paired && x.retry.isNone && 256 * (x.ckpt + 1) ≤ s.cyc then .next (s.modCluster d cl (fun x => { x with ckpt := s.cyc / 256 }))
  else .next s

/-- PAIR_MISMATCH (R346): the cluster is drained for the replay; a third mismatch within 2^30 ticks retires the pair. -/
def execPairMismatch (d cl : Nat) (s : State) : Host.Outcome State Fault Refusal :=
  let x := s.cluster d cl
  if !x.paired then .next s
  else
    let m := s.tbase :: x.mism.filter (fun t => decide (s.tbase < t + 2 ^ 30))
    if 3 ≤ m.length then
      let s := (s.modCluster d cl (fun x => { x with mism := [], pairOut := true, retry := none })).setDrain d cl (match x.drain with
        | .pair _ => .none
        | z => z)
      .next (s.post d evPairfail 0xFF cl 0 [0])
    else
      let s := (s.modCluster d cl (fun x => { x with mism := m, retry := some s.cyc })).setDrain d cl (match x.drain with
        | .none => .pair s.tbase
        | z => z)
      .next (s.drainSeats d cl)

/-- PAIR_RETURN_TO_SERVICE (R346 step 3): after 256 cycles without a mismatch, the cluster being drained. -/
def execPairReturnToService (d cl : Nat) (s : State) : Host.Outcome State Fault Refusal :=
  let x := s.cluster d cl
  match x.retry with
  | none => .next s
  | some t =>
    if !s.vacant d cl then .next (s.drainSeats d cl)
    else if s.cyc < t + 256 then .next s
    else
      let s := s.modCluster d cl (fun x => { x with retry := none })
      let s := match x.drain with
        | .pair _ => (s.judgeCluster d cl []).setDrain d cl .none
        | _ => s
      .next (s.post d evPairretry 0xFF cl 0 [0])

/-! ## Event records (R354 to R356) -/

/-- The words of a record as it leaves a die (R354). -/
def EvRec.bytes (r : EvRec) (d seq : Nat) : Nat :=
  packList 64 ([r.ty * 2 ^ 56 + r.ten % 256 * 2 ^ 48 + d % 4 * 2 ^ 46 + r.cluster % 16 * 2 ^ 40 + r.core % 8 * 2 ^ 37 + seq % 2 ^ 32,
    r.tick % 2 ^ 64] ++ r.words.map BitVec.toNat)

/-- The OVERFLOW record of a summary (R356). -/
def Summary.record (x : Summary) (tick : Nat) : EvRec :=
  { ty := evOverflow, ten := 0xFF, tick := tick
    words := [x.ce, x.scrubue, x.pairretry, x.tablefix, x.first, x.last].map (BitVec.ofNat 64) }

/-- A record put into the host's queue (R355, R373). -/
def State.emit (s : State) (d : Nat) (r : EvRec) : State :=
  let p := s.pkg
  let a := hostPa (p.evqBase.toNat + 64 * (p.evqWidx.toNat % p.evqSize.toNat))
  let s := s.store a 64 0 (r.bytes d (s.die d).seq)
  { s with pkg := { s.pkg with evqWidx := p.evqWidx + 1 } }.modDie d (fun x => { x with seq := (x.seq + 1) % 2 ^ 32 })

/-- The next record of a die sent, if the host's queue has space: an OVERFLOW that is due goes first (R356). -/
def State.sendEvent (s : State) (d : Nat) : State :=
  let x := s.die d
  if !s.hostSpace || s.pkg.hostHeld.isSome || x.halted.isSome then s
  else if x.summary.any then (s.emit d (x.summary.record s.tbase)).modDie d (fun x => { x with summary := {} })
  else match x.faultBuf with
    | [] => s
    | r :: _ => (s.emit d r).modDie d (fun x => { x with faultBuf := x.faultBuf.tail }.admitEvent)

/-- EVENT_POST (R355). -/
def execEventPost (d ty ten place : Nat) (s : State) : Host.Outcome State Fault Refusal := .next (s.postAt d ty ten place)

/-- EVENT_SEND (R355). -/
def execEventSend (d : Nat) (s : State) : Host.Outcome State Fault Refusal := .next (s.sendEvent d)

/-- EVENT_RETRY (R355): what waits is tried again. -/
def execEventRetry (d : Nat) (s : State) : Host.Outcome State Fault Refusal := .next (s.sendEvent d)

/-! ## The debug halt of a die (R365) -/

/-- DIE_DEBUG_HALT (R365). -/
def execDieDebugHalt (d : Nat) (s : State) : Host.Outcome State Fault Refusal :=
  if (s.die d).halted.isSome then .next s else .next (s.modDie d (fun x => { x with halted := some s.tbase }))

/-- A request's counters moved on by the length of a halt. -/
def Acc.shift (a : Acc) (n now : Nat) : Acc :=
  { a with sent := later n now a.sent, home := match a.home with
      | none => none
      | some (h, q, t) => some (h, q, min (t + n) now) }

/-- A seat's counters moved on by the length of a halt. -/
def Seat.shift (t : Seat) (n now : Nat) : Seat :=
  { t with
    accs := t.accs.map (fun a => a.shift n now), preempt := later n now t.preempt
    held := match t.held with
      | none => none
      | some h => some { h with sent := later n now h.sent, home := match h.home with
          | none => none
          | some (h, q, t) => some (h, q, min (t + n) now) } }

/-- The counters of a core moved on by the length of a halt. -/
def Core.shift (k : Core) (n now : Nat) : Core :=
  { k with
    seats := k.seats.map (fun q => (q.1, q.2.shift n now))
    chans := k.chans.map (fun q => (q.1, q.2.map (fun x => { x with waits := laterWait n now x.waits })))
    idx := k.idx.map (fun x => { x with waits := laterWait n now x.waits }) }

/-- The counters of the queue front end and of queue copies, which stand at die 0, moved on (log 26). -/
def State.shiftQueues (s : State) (n : Nat) : State :=
  { s with
    qcopies := s.qcopies.map (fun x => { x with waits := laterWait n s.tbase x.waits })
    launches := s.launches.map (fun l => { l with met := later n s.tbase l.met })
    tens := s.tens.map (fun p => (p.1, { p.2 with queues := p.2.queues.map (fun q => (q.1, { q.2 with since := later n s.tbase q.2.since })) })) }

/-- DIE_DEBUG_RESUME (R365): the counters of the die go on from where they stopped; the queues' with die 0 (log 26). -/
def execDieDebugResume (d : Nat) (s : State) : Host.Outcome State Fault Refusal :=
  match (s.die d).halted with
  | none => .next s
  | some t =>
    let n := s.tbase - t
    let s := s.modDie d (fun x => { x with halted := none, walkWait := x.walkWait.map (fun p => (p.1, min (p.2 + n) s.tbase)) })
    let s : State := { s with cores := s.cores.map (fun p => if dieOf p.1 = d then (p.1, p.2.shift n s.tbase) else p) }
    .next (if d ≠ 0 then s else s.shiftQueues n).writeQlines

end Sys2Proof.Machine
end

