-- ==== Sys2Proof/Machine/Package.lean ====
section
/-! DEFINITION. The package: reset, bring-up and service levels, the security controller, and write-back from the memory-side caches
(R212, R213, R386, R388). -/

namespace Sys2Proof.Machine

open Sys2Proof

/-! ## Reset and bring-up (R388) -/

/-- Whether a physical address lies in a pool. -/
def inPool (pa : Nat) : Bool :=
  match placeOf pa with
  | .pool _ => true
  | .hbm _ => false
  | .host => false
  | .peer _ => false
  | .tl => false
  | .none => false

/-- A cluster's repairs, which a reset does not undo. -/
def Cluster.repairs (x : Cluster) : Cluster := { spareUsed := x.spareUsed, phys := x.phys, pending := x.pending }

/-- PACKAGE_RESET (R388, R213): everything is as after reset but for what lies outside the registers: HBM, host and peer memory,
retired cores and spares, and the generation of the keys, which is new (log 37). -/
def execPackageReset (s : State) : Host.Outcome State Fault Refusal :=
  let t : State := s.lines.foldl (fun (s : State) p => s.keyAfter p.1 p.2) s
  .next { State.reset with
    mem := s.mem.filter (fun p => !inPool p.1), keys := t.keys, poison := s.poison.filter (fun u => !inPool (64 * u))
    cores := (s.cores.filter (fun p => p.2.absent)).map (fun p => (p.1, { absent := true }))
    dies := s.dies.map (fun p => (p.1, { clusters := p.2.clusters.map (fun q => (q.1, q.2.repairs)) }))
    pkg := { keygen := s.pkg.keygen + 1 }, agenda := s.agenda, free := s.free }

/-- Ticks from package reset within which bring-up ends: 30 seconds (R388). -/
def bringupLimit : Nat := 30000000000

/-- Whether the images of the I/O die, the sequencers and the walkers, numbered 0, 1 and 2, have all been measured and accepted (R386,
log 15). -/
def Pkg.measured (p : Pkg) : Bool := !p.rejected && [0, 1, 2].all (fun k => p.images.any (fun q => q.1 == k))

/-- BRINGUP_LEVEL (R388): a level rises above 0 only with accepted images (R386), and within 30 seconds of reset. The links of the records
follow the clusters that come into service. -/
def execBringupLevel (s : State) : Host.Outcome State Fault Refusal :=
  if s.svcFail || !s.pkg.measured || 3 ≤ s.svclvl || bringupLimit ≤ s.tbase then .next s
  else .next ([0, 1, 2, 3].foldl State.relinkDie { s with svclvl := s.svclvl + 1 })

/-- BRINGUP_FAIL (R388). -/
def execBringupFail (s : State) : Host.Outcome State Fault Refusal :=
  if 3 ≤ s.svclvl then .next s else .next { s with svcFail := true }

/-! ## The security controller (R386) -/

/-- MEASURED_BOOT (R386): an image is measured once, before the level rises; digest is its SHAKE256 digest, and valid says whether its
signature over that digest verifies under a key of the fused list (log 15). -/
def execMeasuredBoot (image : Nat) (digest : BitVec 512) (valid : Bool) (s : State) : Host.Outcome State Fault Refusal :=
  if s.svclvl ≠ 0 || 2 < image || s.pkg.images.any (fun q => q.1 == image) then .next s
  else if valid then .next { s with pkg := { s.pkg with images := s.pkg.images ++ [(image, digest)] } }
  else .next { s with pkg := { s.pkg with rejected := true } }

/-- SPDM_KEY_BIND (R386, R213). -/
def execSpdmKeyBind (key ten : Nat) (s : State) : Host.Outcome State Fault Refusal :=
  if key = 0 || 255 < key || 16 < ten || s.bound.contains (key, ten) then .next s else .next { s with bound := (key, ten) :: s.bound }

/-! ## The memory-side cache (R212, R336) -/

/-- LINE_WRITE_BACK (R212, R213, R235, R336). -/
def execLineWriteBack (line : Nat) (s : State) : Host.Outcome State Fault Refusal :=
  match tfind s.lines line with
  | none => .next s
  | some l => .next (s.writeBack line l)

end Sys2Proof.Machine
end

