-- ==== Sys2Proof/Machine/Dispatch.lean ====
section
/-! DEFINITION. The dispatch of every instruction to its meaning, one arm per constructor of Instr. -/

namespace Sys2Proof.Machine

open Sys2Proof

/-- What the part does for an instruction. -/
def exec (i : Instr) (s : State) : Host.Outcome State Fault Refusal :=
  match i with
  | .br g imm => Sys2Proof.Machine.execBr g imm s
  | .brq g z a imm => Sys2Proof.Machine.execBrq g z a imm s
  | .jmp g a => Sys2Proof.Machine.execJmp g a s
  | .call g d imm => Sys2Proof.Machine.execCall g d imm s
  | .calli g d a => Sys2Proof.Machine.execCalli g d a s
  | .ret g a => Sys2Proof.Machine.execRet g a s
  | .suspend g a b => Sys2Proof.Machine.execSuspend g a b s
  | .yield g => Sys2Proof.Machine.execYield g s
  | .halt g => Sys2Proof.Machine.execHalt g s
  | .trap g imm => Sys2Proof.Machine.execTrap g imm s
  | .tret g => Sys2Proof.Machine.execTret g s
  | .brk g => Sys2Proof.Machine.execBrk g s
  | .add g x d a b => Sys2Proof.Machine.execAdd g x d a b s
  | .sub g x d a b => Sys2Proof.Machine.execSub g x d a b s
  | .addi g x d a imm => Sys2Proof.Machine.execAddi g x d a imm s
  | .mul g x d a b => Sys2Proof.Machine.execMul g x d a b s
  | .mulh g x d a b => Sys2Proof.Machine.execMulh g x d a b s
  | .mulhu g x d a b => Sys2Proof.Machine.execMulhu g x d a b s
  | .and g x d a b => Sys2Proof.Machine.execAnd g x d a b s
  | .or g x d a b => Sys2Proof.Machine.execOr g x d a b s
  | .xor g x d a b => Sys2Proof.Machine.execXor g x d a b s
  | .andn g x d a b => Sys2Proof.Machine.execAndn g x d a b s
  | .shl g x d a b => Sys2Proof.Machine.execShl g x d a b s
  | .shr g x d a b => Sys2Proof.Machine.execShr g x d a b s
  | .sar g x d a b => Sys2Proof.Machine.execSar g x d a b s
  | .rot g x d a b => Sys2Proof.Machine.execRot g x d a b s
  | .min g x d a b => Sys2Proof.Machine.execMin g x d a b s
  | .max g x d a b => Sys2Proof.Machine.execMax g x d a b s
  | .minu g x d a b => Sys2Proof.Machine.execMinu g x d a b s
  | .maxu g x d a b => Sys2Proof.Machine.execMaxu g x d a b s
  | .clz g x d a => Sys2Proof.Machine.execClz g x d a s
  | .popc g x d a => Sys2Proof.Machine.execPopc g x d a s
  | .bfx g x d a pos len => Sys2Proof.Machine.execBfx g x d a pos len s
  | .bfi g x d a pos len => Sys2Proof.Machine.execBfi g x d a pos len s
  | .li g x d imm => Sys2Proof.Machine.execLi g x d imm s
  | .cmp g x d a b cc => Sys2Proof.Machine.execCmp g x d a b cc s
  | .sel g x d a b c => Sys2Proof.Machine.execSel g x d a b c s
  | .ldg g z sx d a imm => Sys2Proof.Machine.execLdg g z sx d a imm s
  | .stg g z d a imm => Sys2Proof.Machine.execStg g z d a imm s
  | .ldga g z sc d a b => Sys2Proof.Machine.execLdga g z sc d a b s
  | .stgl g z sc d a b => Sys2Proof.Machine.execStgl g z sc d a b s
  | .pref g wr a imm => Sys2Proof.Machine.execPref g wr a imm s
  | .ldp g z sx d a imm => Sys2Proof.Machine.execLdp g z sx d a imm s
  | .stp g z d a imm => Sys2Proof.Machine.execStp g z d a imm s
  | .ldpa g z sc d a b => Sys2Proof.Machine.execLdpa g z sc d a b s
  | .stpl g z sc d a b => Sys2Proof.Machine.execStpl g z sc d a b s
  | .sqld g d a imm => Sys2Proof.Machine.execSqld g d a imm s
  | .agadd g w o d a b => Sys2Proof.Machine.execAgadd g w o d a b s
  | .agincw g w o d a b => Sys2Proof.Machine.execAgincw g w o d a b s
  | .agaddb g w o d a b c => Sys2Proof.Machine.execAgaddb g w o d a b c s
  | .agcas g w o d a b c => Sys2Proof.Machine.execAgcas g w o d a b c s
  | .agxch g w o d a b => Sys2Proof.Machine.execAgxch g w o d a b s
  | .agmin g w o d a b => Sys2Proof.Machine.execAgmin g w o d a b s
  | .agmax g w o d a b => Sys2Proof.Machine.execAgmax g w o d a b s
  | .agand g w o d a b => Sys2Proof.Machine.execAgand g w o d a b s
  | .agor g w o d a b => Sys2Proof.Machine.execAgor g w o d a b s
  | .agxor g w o d a b => Sys2Proof.Machine.execAgxor g w o d a b s
  | .agfadd g w o d a b => Sys2Proof.Machine.execAgfadd g w o d a b s
  | .apadd g w o d a b => Sys2Proof.Machine.execApadd g w o d a b s
  | .apincw g w o d a b => Sys2Proof.Machine.execApincw g w o d a b s
  | .apaddb g w o d a b c => Sys2Proof.Machine.execApaddb g w o d a b c s
  | .apcas g w o d a b c => Sys2Proof.Machine.execApcas g w o d a b c s
  | .apxch g w o d a b => Sys2Proof.Machine.execApxch g w o d a b s
  | .apmin g w o d a b => Sys2Proof.Machine.execApmin g w o d a b s
  | .apmax g w o d a b => Sys2Proof.Machine.execApmax g w o d a b s
  | .apfadd g w o d a b => Sys2Proof.Machine.execApfadd g w o d a b s
  | .fadd g t rm d a b => Sys2Proof.Machine.execFadd g t rm d a b s
  | .fsub g t rm d a b => Sys2Proof.Machine.execFsub g t rm d a b s
  | .fmul g t rm d a b => Sys2Proof.Machine.execFmul g t rm d a b s
  | .ffma g t rm d a b c => Sys2Proof.Machine.execFfma g t rm d a b c s
  | .fdiv g t rm d a b => Sys2Proof.Machine.execFdiv g t rm d a b s
  | .fsqrt g t rm d a => Sys2Proof.Machine.execFsqrt g t rm d a s
  | .frsq g t rm d a => Sys2Proof.Machine.execFrsq g t rm d a s
  | .fmin g t d a b => Sys2Proof.Machine.execFmin g t d a b s
  | .fmax g t d a b => Sys2Proof.Machine.execFmax g t d a b s
  | .fabs g t d a => Sys2Proof.Machine.execFabs g t d a s
  | .fneg g t d a => Sys2Proof.Machine.execFneg g t d a s
  | .fcmp g t d a b cc => Sys2Proof.Machine.execFcmp g t d a b cc s
  | .fclass g t d a mask => Sys2Proof.Machine.execFclass g t d a mask s
  | .fcvt g rm d a b c => Sys2Proof.Machine.execFcvt g rm d a b c s
  | .fsel g d a b c => Sys2Proof.Machine.execFsel g d a b c s
  | .fli g d imm => Sys2Proof.Machine.execFli g d imm s
  | .fliHi g d imm => Sys2Proof.Machine.execFliHi g d imm s
  | .vadd g sd t rm d a b => Sys2Proof.Machine.execVadd g sd t rm d a b s
  | .vsub g sd t rm d a b => Sys2Proof.Machine.execVsub g sd t rm d a b s
  | .vmul g sd t rm d a b => Sys2Proof.Machine.execVmul g sd t rm d a b s
  | .vfma g sd t rm d a b c => Sys2Proof.Machine.execVfma g sd t rm d a b c s
  | .vfms g sd t rm d a b c => Sys2Proof.Machine.execVfms g sd t rm d a b c s
  | .vmulZg g sd t rm d a b => Sys2Proof.Machine.execVmulZg g sd t rm d a b s
  | .vfmaZg g sd t rm d a b c => Sys2Proof.Machine.execVfmaZg g sd t rm d a b c s
  | .vfmsZg g sd t rm d a b c => Sys2Proof.Machine.execVfmsZg g sd t rm d a b c s
  | .vmin g sd t d a b => Sys2Proof.Machine.execVmin g sd t d a b s
  | .vmax g sd t d a b => Sys2Proof.Machine.execVmax g sd t d a b s
  | .vabs g sd t d a => Sys2Proof.Machine.execVabs g sd t d a s
  | .vneg g sd t d a => Sys2Proof.Machine.execVneg g sd t d a s
  | .vcmp g sd t d a b cc => Sys2Proof.Machine.execVcmp g sd t d a b cc s
  | .vcmpAny g sd t d a b cc => Sys2Proof.Machine.execVcmpAny g sd t d a b cc s
  | .vcmpAll g sd t d a b cc => Sys2Proof.Machine.execVcmpAll g sd t d a b cc s
  | .vsel g sd w d a b c => Sys2Proof.Machine.execVsel g sd w d a b c s
  | .vdot g sd t rm d a b c => Sys2Proof.Machine.execVdot g sd t rm d a b c s
  | .vred g sd t rm d a => Sys2Proof.Machine.execVred g sd t rm d a s
  | .vscan g sd t rm d a => Sys2Proof.Machine.execVscan g sd t rm d a s
  | .vexp2 g sd t d a => Sys2Proof.Machine.execVexp2 g sd t d a s
  | .vlog2 g sd t d a => Sys2Proof.Machine.execVlog2 g sd t d a s
  | .vrcp g sd t d a => Sys2Proof.Machine.execVrcp g sd t d a s
  | .vrsq g sd t d a => Sys2Proof.Machine.execVrsq g sd t d a s
  | .vcvt g sd rm d a b c => Sys2Proof.Machine.execVcvt g sd rm d a b c s
  | .vperm g sd d a b c => Sys2Proof.Machine.execVperm g sd d a b c s
  | .vbcast g sd w d a b => Sys2Proof.Machine.execVbcast g sd w d a b s
  | .vrotl g sd d a b => Sys2Proof.Machine.execVrotl g sd d a b s
  | .viadd g sd w d a b => Sys2Proof.Machine.execViadd g sd w d a b s
  | .vimul g sd w d a b => Sys2Proof.Machine.execVimul g sd w d a b s
  | .vand g sd d a b => Sys2Proof.Machine.execVand g sd d a b s
  | .vor g sd d a b => Sys2Proof.Machine.execVor g sd d a b s
  | .vxor g sd d a b => Sys2Proof.Machine.execVxor g sd d a b s
  | .vshl g sd w d a b => Sys2Proof.Machine.execVshl g sd w d a b s
  | .vshr g sd w d a b => Sys2Proof.Machine.execVshr g sd w d a b s
  | .vidx g sd d b c => Sys2Proof.Machine.execVidx g sd d b c s
  | .vsetx g sd d a b => Sys2Proof.Machine.execVsetx g sd d a b s
  | .vsetxAdd g sd d a b => Sys2Proof.Machine.execVsetxAdd g sd d a b s
  | .vsetxLi g sd d b => Sys2Proof.Machine.execVsetxLi g sd d b s
  | .vpopq g sd d => Sys2Proof.Machine.execVpopq g sd d s
  | .vldp g sd s4 d a imm => Sys2Proof.Machine.execVldp g sd s4 d a imm s
  | .vstp g sd s4 d a imm => Sys2Proof.Machine.execVstp g sd s4 d a imm s
  | .vldps g sd s4 d a imm => Sys2Proof.Machine.execVldps g sd s4 d a imm s
  | .kmov g df sf d a => Sys2Proof.Machine.execKmov g df sf d a s
  | .kvec g df sf d a => Sys2Proof.Machine.execKvec g df sf d a s
  | .kext g df sf d a b => Sys2Proof.Machine.execKext g df sf d a b s
  | .kins g df sf d a b => Sys2Proof.Machine.execKins g df sf d a b s
  | .kbc g df sf d a => Sys2Proof.Machine.execKbc g df sf d a s
  | .eli g d imm => Sys2Proof.Machine.execEli g d imm s
  | .eadd g d a b => Sys2Proof.Machine.execEadd g d a b s
  | .emov g d a => Sys2Proof.Machine.execEmov g d a s
  | .csrrd g d imm => Sys2Proof.Machine.execCsrrd g d imm s
  | .csrwr g a imm => Sys2Proof.Machine.execCsrwr g a imm s
  | .semsig g ret d a imm => Sys2Proof.Machine.execSemsig g ret d a imm s
  | .semwait g a imm => Sys2Proof.Machine.execSemwait g a imm s
  | .fence g sc k => Sys2Proof.Machine.execFence g sc k s
  | .phase g d => Sys2Proof.Machine.execPhase g d s
  | .launch g d a b => Sys2Proof.Machine.execLaunch g d a b s
  | .copy g d a b => Sys2Proof.Machine.execCopy g d a b s
  | .copyp g d a b => Sys2Proof.Machine.execCopyp g d a b s
  | .cwait g a b c => Sys2Proof.Machine.execCwait g a b c s
  | .tlrd g d b c => Sys2Proof.Machine.execTlrd g d b c s
  | .tlrdErr g d b c => Sys2Proof.Machine.execTlrdErr g d b c s
  | .tlrdErrc g d b c => Sys2Proof.Machine.execTlrdErrc g d b c s
  | .bpost g d a b c => Sys2Proof.Machine.execBpost g d a b c s
  | .bview g d a => Sys2Proof.Machine.execBview g d a s
  | .bviewWord g d a b => Sys2Proof.Machine.execBviewWord g d a b s
  | .bread g d a b c => Sys2Proof.Machine.execBread g d a b c s
  | .badv g d a b => Sys2Proof.Machine.execBadv g d a b s
  | .barr g d a => Sys2Proof.Machine.execBarr g d a s
  | .strset g a b c => Sys2Proof.Machine.execStrset g a b c s
  | .strtap g a b c => Sys2Proof.Machine.execStrtap g a b c s
  | .ringsetGeom g a b => Sys2Proof.Machine.execRingsetGeom g a b s
  | .ringsetAdvance g a b => Sys2Proof.Machine.execRingsetAdvance g a b s
  | .ringsetRd g d b => Sys2Proof.Machine.execRingsetRd g d b s
  | .tlbinv g a b => Sys2Proof.Machine.execTlbinv g a b s
  | .icflush g a b => Sys2Proof.Machine.execIcflush g a b s
  | .mcfg g b c => Sys2Proof.Machine.execMcfg g b c s
  | .mzero g d => Sys2Proof.Machine.execMzero g d s
  | .macc g a b => Sys2Proof.Machine.execMacc g a b s
  | .maccZg g a b => Sys2Proof.Machine.execMaccZg g a b s
  | .maccs g a b => Sys2Proof.Machine.execMaccs g a b s
  | .mpush g d a b c => Sys2Proof.Machine.execMpush g d a b c s
  | .mshift g d => Sys2Proof.Machine.execMshift g d s
  | .mdrain g d a => Sys2Proof.Machine.execMdrain g d a s
  | .sprune g a b c => Sys2Proof.Machine.execSprune g a b c s
  | .sprunet g a b c => Sys2Proof.Machine.execSprunet g a b c s
  | .sregrow g a b c => Sys2Proof.Machine.execSregrow g a b c s
  | .shdr g d a => Sys2Proof.Machine.execShdr g d a s
  | .shdrW g a c => Sys2Proof.Machine.execShdrW g a c s
  | .shdrCk g a => Sys2Proof.Machine.execShdrCk g a s
  | .scheck g d a => Sys2Proof.Machine.execScheck g d a s
  | .sexpand g a b => Sys2Proof.Machine.execSexpand g a b s
  | .xadd g d a b => Sys2Proof.Machine.execXadd g d a b s
  | .xmul g d a b => Sys2Proof.Machine.execXmul g d a b s
  | .xand g d a b => Sys2Proof.Machine.execXand g d a b s
  | .xshl g d a b => Sys2Proof.Machine.execXshl g d a b s
  | .xshr g d a b => Sys2Proof.Machine.execXshr g d a b s
  | .xldp g d a imm => Sys2Proof.Machine.execXldp g d a imm s
  | .xpush g gr a c => Sys2Proof.Machine.execXpush g gr a c s
  | .xpushNb g gr d a c => Sys2Proof.Machine.execXpushNb g gr d a c s
  | .xscat g gr a b c => Sys2Proof.Machine.execXscat g gr a b c s
  | .xscatNb g gr d a b c => Sys2Proof.Machine.execXscatNb g gr d a b c s
  | .xscata g gr a b c => Sys2Proof.Machine.execXscata g gr a b c s
  | .xscataNb g gr d a b c => Sys2Proof.Machine.execXscataNb g gr d a b c s
  | .xhash g d a c => Sys2Proof.Machine.execXhash g d a c s
  | .xins g d a b c => Sys2Proof.Machine.execXins g d a b c s
  | .xwalk g csr d a c => Sys2Proof.Machine.execXwalk g csr d a c s
  | .bundleIssue core fresh => Sys2Proof.Machine.execBundleIssue core fresh s
  | .bundleComplete core seat => Sys2Proof.Machine.execBundleComplete core seat s
  | .loadDataReturn core seat id => Sys2Proof.Machine.execLoadDataReturn core seat id s
  | .seatSwitch core => Sys2Proof.Machine.execSeatSwitch core s
  | .quantumExpiry core => Sys2Proof.Machine.execQuantumExpiry core s
  | .gearPoint core => Sys2Proof.Machine.execGearPoint core s
  | .walk die ten page => Sys2Proof.Machine.execWalk die ten page s
  | .walkComplete die ten page => Sys2Proof.Machine.execWalkComplete die ten page s
  | .atomicApply core seat id => Sys2Proof.Machine.execAtomicApply core seat id s
  | .atomicReply core seat id => Sys2Proof.Machine.execAtomicReply core seat id s
  | .requestResend core seat id => Sys2Proof.Machine.execRequestResend core seat id s
  | .phaseRelease ten lid grp => Sys2Proof.Machine.execPhaseRelease ten lid grp s
  | .boardSerialise core seat => Sys2Proof.Machine.execBoardSerialise core seat s
  | .boardReply core seat => Sys2Proof.Machine.execBoardReply core seat s
  | .barrierArrival core seat => Sys2Proof.Machine.execBarrierArrival core seat s
  | .barrierRelease id => Sys2Proof.Machine.execBarrierRelease id s
  | .scaleArrive core seat id => Sys2Proof.Machine.execScaleArrive core seat id s
  | .ringTileFill core ring => Sys2Proof.Machine.execRingTileFill core ring s
  | .sparsityCmdComplete core => Sys2Proof.Machine.execSparsityCmdComplete core s
  | .gatherArrive core part => Sys2Proof.Machine.execGatherArrive core part s
  | .scatterComplete core seat order => Sys2Proof.Machine.execScatterComplete core seat order s
  | .copyComplete r order => Sys2Proof.Machine.execCopyComplete r order s
  | .checkedCheck core seat => Sys2Proof.Machine.execCheckedCheck core seat s
  | .trapEntry core seat => Sys2Proof.Machine.execTrapEntry core seat s
  | .suspendSpill core seat => Sys2Proof.Machine.execSuspendSpill core seat s
  | .wakeReady die rec => Sys2Proof.Machine.execWakeReady die rec s
  | .resume core seat => Sys2Proof.Machine.execResume core seat s
  | .seatRecord die rec => Sys2Proof.Machine.execSeatRecord die rec s
  | .preemptRequest core seat => Sys2Proof.Machine.execPreemptRequest core seat s
  | .preemptTimeout core seat => Sys2Proof.Machine.execPreemptTimeout core seat s
  | .preemptSpill core seat => Sys2Proof.Machine.execPreemptSpill core seat s
  | .strandKill core seat => Sys2Proof.Machine.execStrandKill core seat s
  | .launchPacket ten q => Sys2Proof.Machine.execLaunchPacket ten q s
  | .copyPacket ten q => Sys2Proof.Machine.execCopyPacket ten q s
  | .copyxPacket ten q => Sys2Proof.Machine.execCopyxPacket ten q s
  | .signalPacket ten q => Sys2Proof.Machine.execSignalPacket ten q s
  | .waitallPacket ten q => Sys2Proof.Machine.execWaitallPacket ten q s
  | .launchStart ten key => Sys2Proof.Machine.execLaunchStart ten key s
  | .recordCreate ten lid die base cluster => Sys2Proof.Machine.execRecordCreate ten lid die base cluster s
  | .priorityAgeing ten q => Sys2Proof.Machine.execPriorityAgeing ten q s
  | .budgetExpiry ten key => Sys2Proof.Machine.execBudgetExpiry ten key s
  | .launchComplete ten key => Sys2Proof.Machine.execLaunchComplete ten key s
  | .crossDieTimeout core agent id => Sys2Proof.Machine.execCrossDieTimeout core agent id s
  | .podPhaseRelease ten lid peers => Sys2Proof.Machine.execPodPhaseRelease ten lid peers s
  | .tenancyKill ten => Sys2Proof.Machine.execTenancyKill ten s
  | .fumarolePass die => Sys2Proof.Machine.execFumarolePass die s
  | .fumaroleAbandon die => Sys2Proof.Machine.execFumaroleAbandon die s
  | .eventSend die => Sys2Proof.Machine.execEventSend die s
  | .storeApply core seat id => Sys2Proof.Machine.execStoreApply core seat id s
  | .pairReturnToService die cluster => Sys2Proof.Machine.execPairReturnToService die cluster s
  | .scanSelfTestComplete die cluster failed => Sys2Proof.Machine.execScanSelfTestComplete die cluster failed s
  | .semWaitComplete core sem => Sys2Proof.Machine.execSemWaitComplete core sem s
  | .resultWriteback core => Sys2Proof.Machine.execResultWriteback core s
  | .gearWrite die value => Sys2Proof.Machine.execGearWrite die value s
  | .bankOpComplete core => Sys2Proof.Machine.execBankOpComplete core s
  | .deferredTrap core seat => Sys2Proof.Machine.execDeferredTrap core seat s
  | .debugHalt core seat => Sys2Proof.Machine.execDebugHalt core seat s
  | .debugResume core seat => Sys2Proof.Machine.execDebugResume core seat s
  | .debugStep core seat => Sys2Proof.Machine.execDebugStep core seat s
  | .debugAccess core seat wr what n value => Sys2Proof.Machine.execDebugAccess core seat wr what n value s
  | .cancel ten lid => Sys2Proof.Machine.execCancel ten lid s
  | .tcbResetKill ten => Sys2Proof.Machine.execTcbResetKill ten s
  | .tcbResetUnfreeze ten => Sys2Proof.Machine.execTcbResetUnfreeze ten s
  | .pageRelease ten value => Sys2Proof.Machine.execPageRelease ten value s
  | .queueEnable ten q value => Sys2Proof.Machine.execQueueEnable ten q value s
  | .notifyWrite ten q slot header => Sys2Proof.Machine.execNotifyWrite ten q slot header s
  | .tueWrite => Sys2Proof.Machine.execTueWrite s
  | .flushva => Sys2Proof.Machine.execFlushva s
  | .flushten => Sys2Proof.Machine.execFlushten s
  | .tueRbaseWrite value => Sys2Proof.Machine.execTueRbaseWrite value s
  | .brdcfgCreate die b value => Sys2Proof.Machine.execBrdcfgCreate die b value s
  | .brdcfgFree die b => Sys2Proof.Machine.execBrdcfgFree die b s
  | .brdcfgGrant die b value => Sys2Proof.Machine.execBrdcfgGrant die b value s
  | .barcfgWrite id value => Sys2Proof.Machine.execBarcfgWrite id value s
  | .recareaWrite die value => Sys2Proof.Machine.execRecareaWrite die value s
  | .tablebaseWrite die value => Sys2Proof.Machine.execTablebaseWrite die value s
  | .xdtoWrite value => Sys2Proof.Machine.execXdtoWrite value s
  | .keydatWrite value => Sys2Proof.Machine.execKeydatWrite value s
  | .regWrite fn off value => Sys2Proof.Machine.execRegWrite fn off value s
  | .peerLoss m => Sys2Proof.Machine.execPeerLoss m s
  | .laneFault port lane => Sys2Proof.Machine.execLaneFault port lane s
  | .linkRetrain port => Sys2Proof.Machine.execLinkRetrain port s
  | .retrainTimeout port => Sys2Proof.Machine.execRetrainTimeout port s
  | .flitReplay port => Sys2Proof.Machine.execFlitReplay port s
  | .fabricRequestIn key req => Sys2Proof.Machine.execFabricRequestIn key req s
  | .hostAccess fn va n op value => Sys2Proof.Machine.execHostAccess fn va n op value s
  | .atsInvalidate fn page => Sys2Proof.Machine.execAtsInvalidate fn page s
  | .pcieLinkDegrade => Sys2Proof.Machine.execPcieLinkDegrade s
  | .ueConsume ten lid cls agent pa va => Sys2Proof.Machine.execUeConsume ten lid cls agent pa va s
  | .ce die place => Sys2Proof.Machine.execCe die place s
  | .scrub die ce ue => Sys2Proof.Machine.execScrub die ce ue s
  | .pairCheckpoint die cluster => Sys2Proof.Machine.execPairCheckpoint die cluster s
  | .pairMismatch die cluster => Sys2Proof.Machine.execPairMismatch die cluster s
  | .eventPost die ty ten place => Sys2Proof.Machine.execEventPost die ty ten place s
  | .eventRetry die => Sys2Proof.Machine.execEventRetry die s
  | .packageReset => Sys2Proof.Machine.execPackageReset s
  | .bringupLevel => Sys2Proof.Machine.execBringupLevel s
  | .bringupFail => Sys2Proof.Machine.execBringupFail s
  | .measuredBoot image digest valid => Sys2Proof.Machine.execMeasuredBoot image digest valid s
  | .spdmKeyBind key ten => Sys2Proof.Machine.execSpdmKeyBind key ten s
  | .peerRemoveDeclare m => Sys2Proof.Machine.execPeerRemoveDeclare m s
  | .lineWriteBack line => Sys2Proof.Machine.execLineWriteBack line s
  | .linkUp port => Sys2Proof.Machine.execLinkUp port s
  | .linkRetrainComplete port => Sys2Proof.Machine.execLinkRetrainComplete port s
  | .pcieRetrainComplete => Sys2Proof.Machine.execPcieRetrainComplete s
  | .hostLinkReturn => Sys2Proof.Machine.execHostLinkReturn s
  | .dieDebugHalt die => Sys2Proof.Machine.execDieDebugHalt die s
  | .dieDebugResume die => Sys2Proof.Machine.execDieDebugResume die s
  | .routeTableWrite m value => Sys2Proof.Machine.execRouteTableWrite m value s

end Sys2Proof.Machine
end

