-- ==== Sys2Proof/Machine/Schedule.lean ====
section
/-! DEFINITION. What a step is made of: the syllables of a bundle that issues, the event that comes next when the environment names none
(log 3), and a program placed for a run (log 6). -/

namespace Sys2Proof.Machine

open Sys2Proof

/-! ## A bundle that issues -/

/-- Whether an instruction is a C syllable. -/
def Instr.isC (i : Instr) : Bool :=
  match encode i with
  | some (.c, _, _) => true
  | _ => false

/-- The syllables of a bundle in the order the model executes them: slot order, with the C syllable last (log 8). -/
def issueOrder (l : List Instr) : List Instr := l.filter (fun i => !Instr.isC i) ++ l.filter Instr.isC

/-- Syllables executed in turn, while the bundle is being issued. -/
def runSyls : List Instr → State → Host.Outcome State Fault Refusal
  | [], s => .next s
  | i :: r, s => match exec i s with
    | .next t => if t.iss.isNone then .next t else runSyls r t
    | .fault x => .fault x
    | .refused x => .refused x

/-- The end of a bundle's issue, once its syllables have been executed. -/
def State.closeIssue (s : State) : State :=
  match s.iss with
  | none => s
  | some u => s.endIssue u (u.syls.any instrFp)

/-- A bundle being issued brought to its end; with none nothing happens. -/
def State.runIssue (s : State) : Host.Outcome State Fault Refusal :=
  match s.iss with
  | none => .next s
  | some u => match runSyls (issueOrder u.syls) s with
    | .next t => .next t.closeIssue
    | .fault x => .fault x
    | .refused x => .refused x

/-- An event with the bundle it may issue. -/
def State.runEvent (s : State) (i : Instr) : Host.Outcome State Fault Refusal :=
  match exec i s with
  | .next t => t.runIssue
  | .fault x => .fault x
  | .refused x => .refused x

/-! ## The default schedule -/

/-- Whether an event does anything. -/
def State.moves (s : State) (i : Instr) : Bool :=
  match exec i s with
  | .next t => decide (t ≠ s)
  | .fault _ => true
  | .refused _ => true

/-- The event that takes a packet of a type. -/
def packetEvent (ten q type : Nat) : Instr :=
  if type = 2 then .copyPacket ten q else if type = 3 then .copyxPacket ten q else if type = 4 then .signalPacket ten q
  else if type = 5 then .waitallPacket ten q else .launchPacket ten q

/-- The packets that wait. -/
def State.packetEvents (s : State) : List Instr :=
  s.waitingQueues.map (fun p => packetEvent (p.2 / 16) (p.2 % 16) (match s.headOf (p.2 / 16) (p.2 % 16) with
    | none => 0
    | some h => h.type))

/-- A place for a window on a die: the lowest that begins where something ends. -/
def State.windowPlace (s : State) (d n : Nat) : Nat :=
  let x := s.die d
  let ends := 0 :: (x.recArea.1 + x.recArea.2) :: (s.windowsOn d).map (fun w => w.1 + w.2) ++ x.withdrawn.map (fun r => 4096 * (r + 1))
  (ends.foldl (fun b a => if s.windowFree d a n then some (match b with
    | none => a
    | some b => min a b) else b) none).getD 0

/-- What a launch may do next. -/
def State.launchEvents (s : State) (l : Launch) : List Instr :=
  [.launchComplete l.ten l.key, .launchStart l.ten l.key, .budgetExpiry l.ten l.key]
    ++ (if l.started && !l.finished then l.dies.map (fun d =>
          .recordCreate l.ten l.lid d (s.windowPlace d l.pool) (tget l.created 0 d / (8 * l.spc))) else [])
    ++ (l.phases.filter (fun p => !p.2.arrived.isEmpty)).map (fun p => .phaseRelease l.ten l.lid p.1)

/-- What an access may do next. -/
def accEvent (s : State) (c i : Nat) (x : Strand) (a : Acc) : List Instr :=
  match a.pas with
  | none => [.walk (dieOf c) x.ten (a.va / 2 ^ 16), .walkComplete (dieOf c) x.ten (a.va / 2 ^ 16)]
  | some _ =>
    (if (s.core c).now < a.due then []
    else match a.kind with
      | .store => [.storeApply c i a.id]
      | .vstore => [.storeApply c i a.id]
      | .atom _ => [.atomicApply c i a.id, .atomicReply c i a.id, .requestResend c i a.id]
      | .sqld => [.scaleArrive c i a.id]
      | .load _ => [.loadDataReturn c i a.id]
      | .vload => [.loadDataReturn c i a.id]
      | .xldp => [.loadDataReturn c i a.id]
      | .xhash => [.loadDataReturn c i a.id]
      | .xins => [.loadDataReturn c i a.id]
      | .xwalk _ => [.loadDataReturn c i a.id]
      | .launch => [.loadDataReturn c i a.id])
      ++ [.crossDieTimeout c i a.id]

/-- What a seat may do next besides issuing. -/
def State.seatEvents (s : State) (c i : Nat) : List Instr :=
  let t := s.seat c i
  match t.strand with
  | none => []
  | some x =>
    t.accs.flatMap (accEvent s c i x)
      ++ (if t.held.isSome then
          [.checkedCheck c i, .boardSerialise c i, .boardReply c i, .requestResend c i (s.core c).nextId, .crossDieTimeout c i (s.core c).nextId]
        else [])
      ++ (if t.pend.isSome then [.trapEntry c i] else [])
      ++ (if t.killed.isSome then [.strandKill c i] else [])
      ++ (if t.restore then [.resume c i] else [])
      ++ (if t.halting then [.debugHalt c i] else [])
      ++ (if t.preempt.isSome then [.preemptTimeout c i] else [])
      ++ (match t.leave with
        | none => []
        | some .halt => [.bundleComplete c i]
        | some .preempt => [.preemptSpill c i]
        | some .yield => [.suspendSpill c i]
        | some (.suspend _ _) => [.suspendSpill c i]
        | some (.page _ _) => [.suspendSpill c i])
      ++ (match t.wait with
        | some (.barr _ _ _ _ false) => [.barrierArrival c i]
        | some (.phase _ _ false) => [.phaseRelease x.ten x.lid 0]
        | some (.phase _ _ true) => [.podPhaseRelease x.ten x.lid []]
        | _ => [])
      ++ (if (s.die (dieOf c)).recs.any Rec.ready then [.preemptRequest c i] else [])

/-- What the engines of a core may do next. -/
def Core.engineEvents (k : Core) (c : Nat) : List Instr :=
  (k.chans.filter (fun p => !p.2.isEmpty)).flatMap (fun p => [.copyComplete (.chan c p.1) [], .crossDieTimeout c (4 + p.1) 0])
    ++ (k.mx.rings.filter (fun p => p.2.resv.head?.any Prod.snd)).map (fun p => .ringTileFill c p.1)
    ++ (if k.unit.isEmpty then [] else [.sparsityCmdComplete c])
    ++ k.idx.flatMap (fun x =>
      [if x.op = 0 then .gatherArrive c ⟨x.seat, []⟩ else .scatterComplete c x.seat [], .crossDieTimeout c 12 x.seat])

/-- What a die may do next. -/
def State.dieEvents (s : State) (d : Nat) : List Instr :=
  let x := s.die d
  x.recs.map (fun r => if r.ready then .seatRecord d r.entry else .wakeReady d r.entry)
    ++ (s.pagesAsked d).flatMap (fun p => [.walk d p.1 p.2, .walkComplete d p.1 p.2])
    ++ (if x.faultBuf.isEmpty && !x.summary.any then [] else [.eventSend d])
    ++ x.clusters.flatMap (fun p => match p.2.drain with
      | .none => []
      | .pass _ => [.fumarolePass d, .fumaroleAbandon d]
      | .scan _ => [.scanSelfTestComplete d p.1 []]
      | .pair _ => [.pairReturnToService d p.1])
    ++ (s.dies.filter (fun p => p.2.halted.isSome)).map (fun p => .crossDieTimeout (128 * d) 13 p.1)

/-- What the links of the package may do next: a hold ends, or, after it has lasted too long, the link is lost (R372, R379). -/
def State.linkEvents (s : State) : List Instr :=
  s.pkg.portHeld.flatMap (fun p => [.linkRetrainComplete p.1, .retrainTimeout p.1])
    ++ (match s.pkg.hostHeld with
      | none => []
      | some _ => [.pcieRetrainComplete])

/-- Everything that may happen next besides the passing of cycles. -/
def State.events (s : State) : List Instr :=
  (s.tens.filter (fun p => p.2.doom.isSome)).map (fun p => .tenancyKill p.1)
    ++ s.cores.flatMap (fun p => p.2.seats.flatMap (fun q => s.seatEvents p.1 q.1))
    ++ s.cores.flatMap (fun p => p.2.engineEvents p.1)
    ++ s.qcopies.flatMap (fun x => [Instr.copyComplete (.queued x.ten 0) [], .crossDieTimeout 0 14 x.ten])
    ++ (s.pkg.bars.filter (fun p => !p.2.due.isEmpty)).map (fun p => .barrierRelease p.1)
    ++ s.dies.flatMap (fun p => s.dieEvents p.1)
    ++ s.linkEvents
    ++ (if s.pkg.fumLast + s.pkg.passTicks ≤ s.tbase then [.fumarolePass s.pkg.fumDie] else [])
    ++ s.launches.flatMap s.launchEvents
    ++ s.tens.flatMap (fun p => p.2.queues.map (fun q => .priorityAgeing p.1 q.1))
    ++ s.packetEvents
    ++ (if s.pkg.tueDone.toNat < s.pkg.tueWidx.toNat then [.tueWrite, .flushva, .flushten] else [])

/-- A cycle of a core: a gear that comes into force, a switch of its seats, or its running seat's next cycle. -/
def State.coreEvent (s : State) (c : Nat) : Instr :=
  let k := s.core c
  if k.gearSeen < (s.die (dieOf c)).gears.length then .gearPoint c
  else match k.running with
    | none => .seatSwitch c
    | some _ => if s.moves (.seatSwitch c) then .seatSwitch c else if s.moves (.quantumExpiry c) then .quantumExpiry c else .bundleIssue c false

/-- The core with strands that is furthest behind. -/
def State.nextCore (s : State) : Option Nat :=
  ((s.cores.filter (fun p => !p.2.absent && (s.die (dieOf p.1)).halted.isNone && p.2.seats.any (fun q => q.2.strand.isSome))).foldl
    (fun (a : Option (Nat × Nat)) p => match a with
      | none => some (p.1, p.2.now)
      | some b => if p.2.now < b.2 then some (p.1, p.2.now) else some b) none).map Prod.fst

/-- The event that happens when the environment names none (log 3): with no strand seated anywhere, a core in service idles. -/
def State.autoEvent (s : State) : Instr :=
  match s.events.find? s.moves with
  | some i => i
  | none => match s.nextCore with
    | some c => s.coreEvent c
    | none => .seatSwitch ((findNat (fun c => !s.coreStill c) 512).getD 0)

/-- Ticks within which steps 1 to 4 of a kill are done: 50 microseconds (R341). -/
def killLimit : Nat := 50000

/-- Ticks from the last arrival to the release of a phase of the pod: 3.6 microseconds (R380, R393). -/
def podLimit : Nat := 3600

/-- A link's hold that has lasted its longest: a sparing ends, a retrain loses the link (R379). -/
def State.holdDue (s : State) (port t : Nat) : List Instr :=
  if bitAt (s.pkg.lane port) 6 then (if t + holdLimit < s.tbase then [.retrainTimeout port] else [])
  else if t + spareLimit ≤ s.tbase then [.linkRetrainComplete port] else []

/-- The events whose time is up: bring-up that has not reached level 3 (R388), the kill of a tenancy (R341), the release of a phase of the pod whose
last arrival was here (R380, log 113), the end of a link's hold (R372, R379), and of a pass that does not drain (R348). -/
def State.dueEvents (s : State) : List Instr :=
  (if s.svclvl < 3 && !s.svcFail && decide (bringupLimit ≤ s.tbase) then [.bringupFail] else [])
    ++ (s.tens.filter (fun p => p.2.doom.isSome && decide (p.2.doomAt + killLimit ≤ s.tbase))).map (fun p => .tenancyKill p.1)
    ++ (s.launches.filter (fun l => l.dom == 5 && l.started && !(l.phase 0).arrived.isEmpty && decide ((l.phase 0).last + podLimit ≤ s.tbase))).map
      (fun l => .podPhaseRelease l.ten l.lid [])
    ++ s.pkg.portHeld.flatMap (fun p => s.holdDue p.1 p.2)
    ++ (match s.pkg.hostHeld with
      | none => []
      | some t => if t + holdLimit ≤ s.tbase then [.pcieRetrainComplete] else [])
    ++ (s.dies.filter (fun p => p.2.passCluster.isSome)).map (fun p => .fumaroleAbandon p.1)

/-- An event that is due and does something: it comes before any other. -/
def State.dueEvent (s : State) : Option Instr := s.dueEvents.find? s.moves

/-- The next event: one whose time is up, or the next of the agenda, which it leaves, or, where that is empty, the one that comes of itself. -/
def State.nextEvent (s : State) : Instr × State :=
  match s.dueEvent, s.agenda with
  | some i, _ => (i, s)
  | none, [] => (s.autoEvent, s)
  | none, i :: r => (i, { s with agenda := r })

/-! ## A program placed (log 6) -/

/-- Where the placed code lies: its virtual address, which is also its physical address. -/
def placedAt : Nat := 0x10000

/-- Bytes written in order from an address on. -/
def placeWords (m : Tab Byte) (a : Nat) : List Word → Tab Byte
  | [] => m
  | w :: r => placeWords (leWrite m a 8 w.toNat) (a + 8) r

/-- The launch of the placed program: one strand with every allocation and every expert enable. -/
def placedLaunch : Launch :=
  { ten := 0, key := 1, lid := 1, queue := 0, code := placedAt, arg := 0, dom := 0, gx := 1, gy := 1, gz := 1, pool := 0x10000, vu := 16
    wu := 16, mclaim := true, spc := 1, floor := 0, svc := 3, diemask := 1, mode := 0, compl := 255, deps := [], budget := 0
    rerun := false, parent := 0, prio := 0, expert := 0x6FF, hint := 0, num := 0, started := true, switch := some 0, window := [(0, 0)]
    created := [(0, 1)] }

/-- Its strand. -/
def placedStrand : Strand := placedLaunch.strand 0 0 0 0x1000000

/-- The translation of its first GiB. -/
def placedTlb : Tlb := ⟨0, 0, 2 ^ 30, 0, 0, 0, true, true, true⟩

/-- A state whose next step issues the bundle with some words, on seat 0 of core 0. -/
def State.placeProgram (s : State) (ws : List Word) : State :=
  { s with
    iss := none
    agenda := [.bundleIssue 0 true]
    svclvl := 3
    mem := placeWords s.mem placedAt ws
    keys := s.keys.filter (fun p => p.1 / 2 ^ 10 != placedAt / 2 ^ 16)
    lines := s.lines.filter (fun p => p.1 / 2 ^ 10 != placedAt / 2 ^ 16)
    poison := s.poison.filter (fun u => u / 2 ^ 10 != placedAt / 2 ^ 16)
    launches := placedLaunch :: s.launches.filter (fun l => !(l.ten == 0 && (l.lid == 1 || l.key == 1)))
    tens := tput s.tens 0 { s.tenancy 0 with killed := false, doom := none, poolva := 0, tlva := 0 }
    dies := tput s.dies 0 { s.die 0 with halted := none, retired := [] }
    cores := tput s.cores 0 { (s.core 0) with
      ten := some 0, absent := false, running := some 0, last := 0, tlb := [placedTlb], seats := [(0, freshSeat placedStrand placedLaunch)] } }

end Sys2Proof.Machine
end

