-- ==== Sys2Proof/Machine/Step.lean ====
section
/-! DEFINITION. One step of the part, and a program placed for a run. -/

namespace Sys2Proof.Machine

open Sys2Proof

/-- One step: the next event of the agenda, or the one that comes next of itself, and the bundle it may issue (log 3). -/
def step (s : State) : Host.Outcome State Fault Refusal :=
  match s.iss with
  | some _ => s.runIssue
  | none => s.nextEvent.2.runEvent s.nextEvent.1

/-- The state whose next step fetches and runs the bundle with the words w (log 6). -/
def State.withFetchWord (s : State) (nbits w : Nat) : State := s.placeProgram (wordsOf 13 (w % 2 ^ nbits))

end Sys2Proof.Machine
end

