-- ==== Sys2Proof/Safety.lean ====
section
/-! DEFINITION. What counts as a safe state and a safe run of the part, and the notions in which the statements speak. -/

namespace Sys2Proof

open Sys2Proof.Machine

/-- Memory's canonical form: addresses strictly rising, and no byte listed that equals what an unlisted one reads as (log 1). -/
def Memory.wf (m : Tab Byte) : Bool := twf m Config.blank

/-- One byte of memory, as every access of the model reads it. -/
def Memory.byte (m : Tab Byte) (a : Nat) : Byte := tget m Config.blank a

/-- The invariant every step keeps: memory in its canonical form. -/
def Machine.State.Inv (s : Machine.State) : Prop := Memory.wf s.mem = true

/-- An instruction completes in a state: exec answers a next state, neither a fault nor a refusal. -/
def Completes (i : Instr) (s : Machine.State) : Prop := ∃ t, Machine.exec i s = .next t

/-- A run of n steps meets neither a fault nor a refusal. -/
def SafeRun (n : Nat) (s : Machine.State) : Prop := ∃ t, Host.Core.run core n s = .next t

/-- The bundle u is being issued, and the guard g holds in it (R11). -/
def Acts (s : Machine.State) (u : Issue) (g : Guard) : Prop := s.iss = some u ∧ s.guard u g = true

/-- Nothing stands against a syllable: its bundle's checks were made before it issued, or they find nothing now (R15, R107). -/
def Passes (u : Issue) (p : Pre) : Prop := u.checked = true ∨ p = .ok

/-- Every byte of memory reads in t as in s. -/
def SameMemory (s t : Machine.State) : Prop := ∀ a, Memory.byte t.mem a = Memory.byte s.mem a

/-- A register of an integer syllable's own file as a 64-bit word. -/
def intReg (s : Machine.State) (u : Issue) (x : IJ) (n : R11) : Word := BitVec.ofNat 64 (s.ijRead u x n)

/-- The state once an integer syllable has put the word v on its way to register d of its file, with latency 1 (R16). -/
def intResult (s : Machine.State) (u : Issue) (x : IJ) (d : R11) (v : Word) : Machine.State :=
  s.result u x.slot.pos 1 (ijFile x) d.toNat v.toNat

/-- Lane l of 32 bits of an index-engine register, as the bundle being issued reads it. -/
def lane32 (s : Machine.State) (u : Issue) (n : R11) (l : Nat) : BitVec 32 := BitVec.ofNat 32 (s.rd u .xv n.toNat / 2 ^ (32 * l))

/-- Element e of w bits of a vector. -/
def laneOf (w : Nat) (x : Vec) (e : Nat) : BitVec w := BitVec.ofNat w (x.toNat / 2 ^ (w * e))

/-- A V or W syllable with these sources has read them and made its captures, and has put a vector on its way to register d with a
latency, whose element e of w bits is f e (R24, R127). -/
def VecPuts (s : Machine.State) (u : Issue) (x : VW) (src : List VSrc) (lat : Nat) (d : R11) (w : Nat) (f : Nat → Nat)
    (o : Host.Outcome Machine.State Fault Refusal) : Prop :=
  ∃ v, v < 2 ^ 2048 ∧
    o = .next ((s.captures u x 0 src (s.vsrcs u x 0 src)).resultFpu u x.slot.pos lat (vwFile x) d.toNat v) ∧
    ∀ e, e < 2048 / w → v / 2 ^ (w * e) % 2 ^ w = f e

/-- The guard of a syllable (R11); a step of the part that no syllable encodes has none. -/
def guardOf : Instr → Option Guard
  | .br g _ => some g | .brq g _ _ _ => some g | .jmp g _ => some g | .call g _ _ => some g | .calli g _ _ => some g
  | .ret g _ => some g | .suspend g _ _ => some g | .yield g => some g | .halt g => some g | .trap g _ => some g
  | .tret g => some g | .brk g => some g | .add g _ _ _ _ => some g | .sub g _ _ _ _ => some g | .addi g _ _ _ _ => some g
  | .mul g _ _ _ _ => some g | .mulh g _ _ _ _ => some g | .mulhu g _ _ _ _ => some g | .and g _ _ _ _ => some g
  | .or g _ _ _ _ => some g | .xor g _ _ _ _ => some g | .andn g _ _ _ _ => some g | .shl g _ _ _ _ => some g
  | .shr g _ _ _ _ => some g | .sar g _ _ _ _ => some g | .rot g _ _ _ _ => some g | .min g _ _ _ _ => some g
  | .max g _ _ _ _ => some g | .minu g _ _ _ _ => some g | .maxu g _ _ _ _ => some g | .clz g _ _ _ => some g
  | .popc g _ _ _ => some g | .bfx g _ _ _ _ _ => some g | .bfi g _ _ _ _ _ => some g | .li g _ _ _ => some g
  | .cmp g _ _ _ _ _ => some g | .sel g _ _ _ _ _ => some g | .ldg g _ _ _ _ _ => some g | .stg g _ _ _ _ => some g
  | .ldga g _ _ _ _ _ => some g | .stgl g _ _ _ _ _ => some g | .pref g _ _ _ => some g | .ldp g _ _ _ _ _ => some g
  | .stp g _ _ _ _ => some g | .ldpa g _ _ _ _ _ => some g | .stpl g _ _ _ _ _ => some g | .sqld g _ _ _ => some g
  | .agadd g _ _ _ _ _ => some g | .agincw g _ _ _ _ _ => some g | .agaddb g _ _ _ _ _ _ => some g
  | .agcas g _ _ _ _ _ _ => some g | .agxch g _ _ _ _ _ => some g | .agmin g _ _ _ _ _ => some g
  | .agmax g _ _ _ _ _ => some g | .agand g _ _ _ _ _ => some g | .agor g _ _ _ _ _ => some g | .agxor g _ _ _ _ _ => some g
  | .agfadd g _ _ _ _ _ => some g | .apadd g _ _ _ _ _ => some g | .apincw g _ _ _ _ _ => some g
  | .apaddb g _ _ _ _ _ _ => some g | .apcas g _ _ _ _ _ _ => some g | .apxch g _ _ _ _ _ => some g
  | .apmin g _ _ _ _ _ => some g | .apmax g _ _ _ _ _ => some g | .apfadd g _ _ _ _ _ => some g
  | .fadd g _ _ _ _ _ => some g | .fsub g _ _ _ _ _ => some g | .fmul g _ _ _ _ _ => some g | .ffma g _ _ _ _ _ _ => some g
  | .fdiv g _ _ _ _ _ => some g | .fsqrt g _ _ _ _ => some g | .frsq g _ _ _ _ => some g | .fmin g _ _ _ _ => some g
  | .fmax g _ _ _ _ => some g | .fabs g _ _ _ => some g | .fneg g _ _ _ => some g | .fcmp g _ _ _ _ _ => some g
  | .fclass g _ _ _ _ => some g | .fcvt g _ _ _ _ _ => some g | .fsel g _ _ _ _ => some g | .fli g _ _ => some g
  | .fliHi g _ _ => some g | .vadd g _ _ _ _ _ _ => some g | .vsub g _ _ _ _ _ _ => some g | .vmul g _ _ _ _ _ _ => some g
  | .vfma g _ _ _ _ _ _ _ => some g | .vfms g _ _ _ _ _ _ _ => some g | .vmulZg g _ _ _ _ _ _ => some g
  | .vfmaZg g _ _ _ _ _ _ _ => some g | .vfmsZg g _ _ _ _ _ _ _ => some g | .vmin g _ _ _ _ _ => some g
  | .vmax g _ _ _ _ _ => some g | .vabs g _ _ _ _ => some g | .vneg g _ _ _ _ => some g | .vcmp g _ _ _ _ _ _ => some g
  | .vcmpAny g _ _ _ _ _ _ => some g | .vcmpAll g _ _ _ _ _ _ => some g | .vsel g _ _ _ _ _ _ => some g
  | .vdot g _ _ _ _ _ _ _ => some g | .vred g _ _ _ _ _ => some g | .vscan g _ _ _ _ _ => some g
  | .vexp2 g _ _ _ _ => some g | .vlog2 g _ _ _ _ => some g | .vrcp g _ _ _ _ => some g | .vrsq g _ _ _ _ => some g
  | .vcvt g _ _ _ _ _ _ => some g | .vperm g _ _ _ _ _ => some g | .vbcast g _ _ _ _ _ => some g
  | .vrotl g _ _ _ _ => some g | .viadd g _ _ _ _ _ => some g | .vimul g _ _ _ _ _ => some g | .vand g _ _ _ _ => some g
  | .vor g _ _ _ _ => some g | .vxor g _ _ _ _ => some g | .vshl g _ _ _ _ _ => some g | .vshr g _ _ _ _ _ => some g
  | .vidx g _ _ _ _ => some g | .vsetx g _ _ _ _ => some g | .vsetxAdd g _ _ _ _ => some g | .vsetxLi g _ _ _ => some g
  | .vpopq g _ _ => some g | .vldp g _ _ _ _ _ => some g | .vstp g _ _ _ _ _ => some g | .vldps g _ _ _ _ _ => some g
  | .kmov g _ _ _ _ => some g | .kvec g _ _ _ _ => some g | .kext g _ _ _ _ _ => some g | .kins g _ _ _ _ _ => some g
  | .kbc g _ _ _ _ => some g | .eli g _ _ => some g | .eadd g _ _ _ => some g | .emov g _ _ => some g
  | .csrrd g _ _ => some g | .csrwr g _ _ => some g | .semsig g _ _ _ _ => some g | .semwait g _ _ => some g
  | .fence g _ _ => some g | .phase g _ => some g | .launch g _ _ _ => some g | .copy g _ _ _ => some g
  | .copyp g _ _ _ => some g | .cwait g _ _ _ => some g | .tlrd g _ _ _ => some g | .tlrdErr g _ _ _ => some g
  | .tlrdErrc g _ _ _ => some g | .bpost g _ _ _ _ => some g | .bview g _ _ => some g | .bviewWord g _ _ _ => some g
  | .bread g _ _ _ _ => some g | .badv g _ _ _ => some g | .barr g _ _ => some g | .strset g _ _ _ => some g
  | .strtap g _ _ _ => some g | .ringsetGeom g _ _ => some g | .ringsetAdvance g _ _ => some g | .ringsetRd g _ _ => some g
  | .tlbinv g _ _ => some g | .icflush g _ _ => some g | .mcfg g _ _ => some g | .mzero g _ => some g
  | .macc g _ _ => some g | .maccZg g _ _ => some g | .maccs g _ _ => some g | .mpush g _ _ _ _ => some g
  | .mshift g _ => some g | .mdrain g _ _ => some g | .sprune g _ _ _ => some g | .sprunet g _ _ _ => some g
  | .sregrow g _ _ _ => some g | .shdr g _ _ => some g | .shdrW g _ _ => some g | .shdrCk g _ => some g
  | .scheck g _ _ => some g | .sexpand g _ _ => some g | .xadd g _ _ _ => some g | .xmul g _ _ _ => some g
  | .xand g _ _ _ => some g | .xshl g _ _ _ => some g | .xshr g _ _ _ => some g | .xldp g _ _ _ => some g
  | .xpush g _ _ _ => some g | .xpushNb g _ _ _ _ => some g | .xscat g _ _ _ _ => some g | .xscatNb g _ _ _ _ _ => some g
  | .xscata g _ _ _ _ => some g | .xscataNb g _ _ _ _ _ => some g | .xhash g _ _ _ => some g | .xins g _ _ _ _ => some g
  | .xwalk g _ _ _ _ => some g | .bundleIssue _ _ => none | .bundleComplete _ _ => none | .loadDataReturn _ _ _ => none
  | .seatSwitch _ => none | .quantumExpiry _ => none | .gearPoint _ => none | .walk _ _ _ => none
  | .walkComplete _ _ _ => none | .atomicApply _ _ _ => none | .atomicReply _ _ _ => none | .requestResend _ _ _ => none
  | .phaseRelease _ _ _ => none | .boardSerialise _ _ => none | .boardReply _ _ => none | .barrierArrival _ _ => none
  | .barrierRelease _ => none | .scaleArrive _ _ _ => none | .ringTileFill _ _ => none | .sparsityCmdComplete _ => none
  | .gatherArrive _ _ => none | .scatterComplete _ _ _ => none | .copyComplete _ _ => none | .checkedCheck _ _ => none
  | .trapEntry _ _ => none | .suspendSpill _ _ => none | .wakeReady _ _ => none | .resume _ _ => none
  | .seatRecord _ _ => none | .preemptRequest _ _ => none | .preemptTimeout _ _ => none | .preemptSpill _ _ => none
  | .strandKill _ _ => none | .launchPacket _ _ => none | .copyPacket _ _ => none | .copyxPacket _ _ => none
  | .signalPacket _ _ => none | .waitallPacket _ _ => none | .launchStart _ _ => none | .recordCreate _ _ _ _ _ => none
  | .priorityAgeing _ _ => none | .budgetExpiry _ _ => none | .launchComplete _ _ => none | .crossDieTimeout _ _ _ => none
  | .podPhaseRelease _ _ _ => none | .tenancyKill _ => none | .fumarolePass _ => none | .fumaroleAbandon _ => none
  | .eventSend _ => none | .storeApply _ _ _ => none | .pairReturnToService _ _ => none
  | .scanSelfTestComplete _ _ _ => none | .semWaitComplete _ _ => none | .resultWriteback _ => none | .gearWrite _ _ => none
  | .bankOpComplete _ => none | .deferredTrap _ _ => none | .debugHalt _ _ => none | .debugResume _ _ => none
  | .debugStep _ _ => none | .debugAccess _ _ _ _ _ _ => none | .cancel _ _ => none | .tcbResetKill _ => none
  | .tcbResetUnfreeze _ => none | .pageRelease _ _ => none | .queueEnable _ _ _ => none | .notifyWrite _ _ _ _ => none
  | .tueWrite => none | .flushva => none | .flushten => none | .tueRbaseWrite _ => none | .brdcfgCreate _ _ _ => none
  | .brdcfgFree _ _ => none | .brdcfgGrant _ _ _ => none | .barcfgWrite _ _ => none | .recareaWrite _ _ => none
  | .tablebaseWrite _ _ => none | .xdtoWrite _ => none | .keydatWrite _ => none | .regWrite _ _ _ => none
  | .peerLoss _ => none | .laneFault _ _ => none | .linkRetrain _ => none | .retrainTimeout _ => none
  | .flitReplay _ => none | .fabricRequestIn _ _ => none | .hostAccess _ _ _ _ _ => none | .atsInvalidate _ _ => none
  | .pcieLinkDegrade => none | .ueConsume _ _ _ _ _ _ => none | .ce _ _ => none | .scrub _ _ _ => none
  | .pairCheckpoint _ _ => none | .pairMismatch _ _ => none | .eventPost _ _ _ _ => none | .eventRetry _ => none
  | .packageReset => none | .bringupLevel => none | .bringupFail => none | .measuredBoot _ _ _ => none
  | .spdmKeyBind _ _ => none | .peerRemoveDeclare _ => none | .lineWriteBack _ => none | .linkUp _ => none
  | .linkRetrainComplete _ => none | .pcieRetrainComplete => none | .hostLinkReturn => none | .dieDebugHalt _ => none
  | .dieDebugResume _ => none | .routeTableWrite _ _ => none

end Sys2Proof
end

