-- ==== Sys2Proof/Certificates/Slice0/Obligations.lean ====
section
/-! DEFINITION. The statements for the provers. -/

open Sys2Proof Sys2Proof.Machine

/-! ## The machine as a whole: reset, memory's form, encoding, one step -/

/-- What reset leaves: no strand on any seat, no launch, no tenancy running, service level 0; the trap, mode and count registers of every seat and
core, DEFICIT, BCONF, ECTR_DECL, ECTR_RES and EHOLD among them, the tenancies' control blocks and the queues are 0; RECAREA is 0x0FFF_0001,
TABLEBASE and GEAR 0, XDTO 20, FUMINT 0x9_27C0, FUMEN 1, SCRUBINT 0x1_5180; no port is mapped, and SPLIT, LSDCTL, TUE_ERR and every BARCFG are
0. These values are those the register tables of the spec state. That TUE_RBASE, TUE_RSIZE, TUE_WIDX, TUE_DONE, EVQ_BASE, EVQ_SIZE, EVQ_WIDX,
EVQ_RIDX and KEYIDX are 0, and that no route is valid, is the model's choice, since no table gives a value (log 13). Memory is in canonical
form with no byte listed; that an unlisted byte reads as 0 is the model's own choice (log 1). -/
def Obligations.ResetState : Prop :=
  State.reset.Inv ∧ (∀ a, Memory.byte State.reset.mem a = 0) ∧ State.reset.launches = [] ∧ State.reset.lines = [] ∧ State.reset.iss = none ∧
  State.reset.svclvl = 0 ∧ State.reset.tbase = 0 ∧
  (∀ c i, (State.reset.seat c i).strand = none ∧ (State.reset.seat c i).tm = false ∧ (State.reset.seat c i).trap = {} ∧
    (State.reset.seat c i).flights = [] ∧ (State.reset.seat c i).accs = [] ∧ (State.reset.seat c i).mode.fstat = 0 ∧
    (State.reset.seat c i).mode.fctl = 0 ∧ (State.reset.seat c i).mode.emode = 0 ∧ (State.reset.seat c i).mode.modectl = 0 ∧
    (State.reset.seat c i).mode.srlost = 0) ∧
  (∀ d, (State.reset.die d).recarea = 0x0FFF0001 ∧ (State.reset.die d).tablebase = 0 ∧ (State.reset.die d).gear = 0) ∧
  (let p := State.reset.pkg
   p.xdto = 20 ∧ p.fumint = 0x927C0 ∧ p.fumen = 1 ∧ p.scrubint = 0x15180 ∧ p.fumDie = 0 ∧ p.split = 0 ∧ p.lsd = 0 ∧ p.tueRbase = 0 ∧ p.tueRsize = 0 ∧
     p.tueWidx = 0 ∧ p.tueDone = 0 ∧ p.tueErr = 0 ∧ p.evqBase = 0 ∧ p.evqSize = 0 ∧ p.evqWidx = 0 ∧ p.evqRidx = 0 ∧ p.keyidx = 0 ∧
     p.keymap = [] ∧ p.bars = [] ∧ p.pod = []) ∧
  (∀ t, let x := State.reset.tenancy t
    x.expert = 0 ∧ x.tvec = 0 ∧ x.debug = 0 ∧ x.spill = 0 ∧ x.spillsz = 0 ∧ x.poolva = 0 ∧ x.pgrel = 0 ∧ x.root = 0 ∧ x.tlva = 0 ∧ x.qtl = 0 ∧
      x.podkey = 0 ∧ x.lctl = 0 ∧ x.queues = []) ∧
  (∀ c, (State.reset.core c).running = none ∧ (State.reset.core c).sem = [] ∧ (State.reset.core c).chans = [] ∧
    (State.reset.core c).idx = [] ∧ (State.reset.core c).unit = [] ∧ (State.reset.core c).deficit = 0 ∧ (State.reset.core c).bconf = 0 ∧
    (State.reset.core c).ectrDecl = 0 ∧ (State.reset.core c).ectrRes = 0 ∧ (State.reset.core c).ehold = 0) ∧
  (∀ m, (tget State.reset.pkg.route 0 m).getLsbD 63 = false) ∧ (∀ port, State.reset.pkg.lane port = 15)

/-- Every step of the part, whatever instruction or event it runs, keeps memory in its canonical form: addresses strictly rising
and no entry equal to what an unlisted address reads as. The canonical form is the model's own (log 1). -/
def Obligations.StepKeepsMemoryCanonical : Prop :=
  ∀ s t : State, s.Inv → step s = .next t → t.Inv

/-- R35 to R47 and the encoding tables: a well-formed syllable decoded from its own words is itself, with every operand at every
value its encoding admits, for every bundle context that holds the M claim and is not restricted to service level 1. -/
def Obligations.DecodeOfEncodeIsSame : Prop :=
  ∀ (i : Instr) (slot : Slot) (w : Word) (ext : Option (BitVec 63)) (ctx : DecCtx),
    wellFormed i = true → encode i = some (slot, w, ext) → ctx.claim = true → ctx.lvl1 = false →
    ∃ x, decodeSyl ctx slot w ext = .ok x ∧ x.instr = i

/-- A step with a bundle being issued runs its syllables, each by exec, and then the end of the bundle: for a bundle of one syllable, exec of
it. With none being issued a step is the next event: one whose time has run out comes first, then those of the agenda, then the one that
comes next of itself; and in the same step the bundle that this event lets issue (R15). The default order of events is the model's choice
(log 3). -/
def Obligations.StepRunsTheDecodedInstruction : Prop :=
  (∀ (s : State) (u : Issue) (i : Instr), s.iss = some u → u.syls = [i] →
    step s = match exec i s with
      | .next t => .next t.closeIssue
      | .fault x => .fault x
      | .refused x => .refused x) ∧
  ∀ (s : State), s.iss = none →
    step s = match exec s.nextEvent.1 s.nextEvent.2 with
      | .next t => (match t.iss with
        | none => .next t
        | some u => match runSyls (issueOrder u.syls) t with
          | .next t' => .next t'.closeIssue
          | .fault x => .fault x
          | .refused x => .refused x)
      | .fault x => .fault x
      | .refused x => .refused x

/-- When the words at the running seat's pc decode to a bundle, the bundle that BUNDLE_ISSUE makes issue is that bundle: its
syllables are the decoded instructions, in slot order, its own address is the seat's pc, and the next bundle follows its
words (R13, R15, R36). s' is the state once the seat's results have landed and its waits are over. -/
def Obligations.IssuedBundleIsTheDecodedOne : Prop :=
  ∀ (s t : State) (c i : Nat) (fresh : Bool) (u : Issue),
    s.iss = none → exec (.bundleIssue c fresh) s = .next t → (s.core c).running = some i → t.iss = some u →
    let s' := ((((s.settleSems c).arriveGears c).refresh c i).tryWait c i).1
    ∃ (x : Strand) (ws : List Word) (b : Bundle),
      (s'.seat c i).strand = some x ∧ s'.nextBundle c i x fresh = .ok (ws, b) ∧
      decodeBundle (s'.decCtx c (s'.seat c i) x) ws = .ok b ∧
      u.syls = b.syls.map Syl.instr ∧ u.core = c ∧ u.seat = i ∧ u.pc = (s'.seat c i).pc ∧
      u.next = (s'.seat c i).pc + BitVec.ofNat 64 (8 * ws.length) ∧ u.checked = true

/-! ## Guards and registers (R8, R11, R149) -/

/-- R8, R11 and R149: a register written reads as the value, cut to its width, and no other register of any file changes. Predicate 0 always
reads as 1 and discards a write. In trap mode i56 to i63 and q7 name the trap bank, and every other name the same register in both modes. -/
def Obligations.RegisterFilesAndTrapBank : Prop :=
  (∀ (t : Seat) (v : Nat), t.get .q 0 = 1 ∧ t.put (bank t.tm .q 0) v = t) ∧
  (∀ (r : Regs) (g h : Reg) (v : Nat), (g.file = .q → g.n ≠ 0) →
    readReg (writeReg r g v) g = v % 2 ^ (match g.file with
      | .q => 1
      | .i | .j | .fr | .e => 64
      | .v | .w | .xv | .vm => 2048
      | .vx | .wx => 16) ∧
    (h ≠ g → readReg (writeReg r g v) h = readReg r h)) ∧
  ∀ (n : Nat), n < 64 →
    bank false .i n = ⟨.i, n⟩ ∧ bank true .i n = ⟨.i, if 56 ≤ n then n + 8 else n⟩ ∧
    (n < 8 → bank false .q n = ⟨.q, n⟩ ∧ bank true .q n = ⟨.q, if n = 7 then 8 else n⟩) ∧
    ∀ (f : File) (m : Nat) (tm : Bool), f ≠ .i → f ≠ .q → bank tm f m = ⟨f, m⟩

/-! ## Results under way (R12, R16, R21) -/

/-- R16: a result of latency L put on its way at cycle t is not readable before cycle t + L, and from then on it is; until it
lands nothing changes but the seat's list of results under way. Stated for a seat with no other result under way and no bundle
held for a reply. R12 and R21: of two results for one register that are due, the one readable later stays; in the same cycle the one of the
later bundle; of the same bundle the one whose syllable stands later in slot order. -/
def Obligations.ResultsLandInOrder : Prop :=
  (∀ (s : State) (u : Issue) (pos lat : Nat) (f : File) (n v : Nat),
     let t := s.seat u.core u.seat
     let t' := (s.result u pos lat f n v).seat u.core u.seat
     let now := (s.core u.core).now
     t.flights = [] → t.held = none →
     (∀ k, k < now + lat → (t'.commit k).regs = t.regs) ∧
     (∀ k, now + lat ≤ k → (t'.commit k).regs = writeReg t.regs (bank t.tm f n) v) ∧
     ∀ k, (t'.commit k).mode = t.mode ∧ (t'.commit k).pc = t.pc ∧ (t'.commit k).trap = t.trap ∧ (t'.commit k).accs = t.accs) ∧
  (∀ (t : Seat) (a b : Flight) (r : Reg) (now : Nat), t.held = none → t.flights = [] → a.dst = some r → b.dst = some r →
     (r.file = .q → r.n ≠ 0) → a.ready ≤ now → b.ready ≤ now →
     (a.ready < b.ready ∨ (a.ready = b.ready ∧ (a.seq < b.seq ∨ (a.seq = b.seq ∧ a.pos < b.pos)))) →
     readReg (({ t with flights := insertFlight a (insertFlight b []) }).commit now).regs r = readReg (writeReg t.regs r b.val) r ∧
     readReg (({ t with flights := insertFlight b (insertFlight a []) }).commit now).regs r = readReg (writeReg t.regs r b.val) r)

/-! ## Control (R26 to R30, R97 to R101) -/

/-- R98: what each branch-class form asks for. A false guard asks for no transfer (the two delay bundles follow either way). The target is B +
8 × imm, or the i register named. R98: a call whose guard holds puts the link under way into i[d] with latency 1 and asks for its target, read
before the link is written; one whose guard is false does neither. -/
def Obligations.BranchAndCallForms : Prop :=
  (∀ (s : State) (u : Issue) (g : Guard) (imm : Imm) (z : Bool) (a : R11), s.iss = some u →
     let took (x : Option Word) : Host.Outcome State Fault Refusal := .next { s with iss := some { u with ctl := .branch x } }
     let near : Word := u.pc + 8 * imm.value
     let reg : Word := BitVec.ofNat 64 (s.rd u .i a.toNat)
     exec (.br g imm) s = took (if s.guard u g then some near else none) ∧
     exec (.brq g z a imm) s = took (if s.guard u g = true ∧ (z = true ↔ reg = 0) then some near else none) ∧
     exec (.jmp g a) s = took (if s.guard u g then some reg else none) ∧
     exec (.ret g a) s = took (if s.guard u g then some reg else none)) ∧
  (∀ (s : State) (u : Issue) (g : Guard) (d a : R11) (imm : Imm), s.iss = some u →
     let took (t : State) (x : Option Word) : Host.Outcome State Fault Refusal := .next { t with iss := some { u with ctl := .branch x } }
     let linked := s.result u 0 1 .i d.toNat (s.link u)
     (s.guard u g = true → Passes u (s.linkPre u) →
       exec (.call g d imm) s = took linked (some (u.pc + 8 * imm.value)) ∧
       exec (.calli g d a) s = took linked (some (BitVec.ofNat 64 (s.rd u .i a.toNat)))) ∧
     (s.guard u g = false → exec (.call g d imm) s = took s none ∧ exec (.calli g d a) s = took s none))

/-- R28: the link is the address of the bundle that follows the second delay bundle, by the lengths that the two delay bundles'
BCWs give. R26 and R29: after a branch-class bundle the two bundles that follow it in memory come next, and then the target, still to be
checked, with the branch bundle's address for BADTGT's TPC; a branch not taken goes on after its second delay bundle. Where a word has bit 63
clear, the length read from it is the model's choice (log 124). The check of a link passes once no word of the two bundles waits for a walk
(R218). -/
def Obligations.DelayBundlesLinkAndTarget : Prop :=
  (∀ (s : State) (u : Issue) (x : Strand) (w1 w2 : Word),
     (s.seat u.core u.seat).strand = some x → s.bundlesUnwalked u.core u.seat x.ten x.lid 2 u.next = none →
     s.codeFetch u.core x.ten x.lid u.next.toNat false = .word w1 →
     s.codeFetch u.core x.ten x.lid (u.next + BitVec.ofNat 64 (8 * (Bcw.of w1).words)).toNat false = .word w2 →
     s.link u = (u.next + BitVec.ofNat 64 (8 * (Bcw.of w1).words) + BitVec.ofNat 64 (8 * (Bcw.of w2).words)).toNat ∧
     s.linkPre u = .ok) ∧
  (∀ (t : Seat) (b d1 d2 : Issue) (target : Option Word), t.delay.count = 0 → b.ctl = .branch target → d1.ctl = .none → d2.ctl = .none →
     let t1 := t.advance b
     let t2 := t1.advance d1
     let t3 := t2.advance d2
     t1.pc = b.next ∧ t1.target = none ∧ t1.delay.count = 2 ∧ t2.pc = d1.next ∧ t2.target = none ∧ t2.delay.count = 1 ∧
     t3.delay.count = 0 ∧
     match target with
     | none => t3.pc = d2.next ∧ t3.target = none
     | some x => t3.pc = x ∧ t3.target = some { tpc := b.pc, mis := false, resumed := false })

/-- R99, R100 and R101: the other C forms, when their guard holds and their checks find nothing, ask for their effect at the end of their own
bundle; a false guard makes each of them a no-op. R98 to R101 at the end of the bundle: a SUSPEND, YIELD or HALT leaves its request with the
seat; TRAP takes SWTRAP with its code and the address of the next bundle; BRK takes BREAK, or halts the seat where TCB_DEBUG bit 0 hands
breakpoints to the debugger; a SUSPEND or YIELD in trap mode kills the strand (R150). -/
def Obligations.BoundaryForms : Prop :=
  (∀ (s : State) (u : Issue) (g : Guard) (a b : R11) (imm : Imm), s.iss = some u →
     let asks (k : Ctl) : Host.Outcome State Fault Refusal := .next { s with iss := some { u with ctl := k } }
     (s.guard u g = true →
       (Passes u (s.tilePre u) →
         exec (.suspend g a b) s = asks (.leave (.suspend (BitVec.ofNat 64 (s.rd u .i a.toNat)) (BitVec.ofNat 64 (s.rd u .i b.toNat)))) ∧
         exec (.yield g) s = asks (.leave .yield)) ∧
       (Passes u (s.haltPre u) → exec (.halt g) s = asks (.leave .halt)) ∧
       exec (.trap g imm) s = asks (.trap imm.value.toNat) ∧
       exec (.brk g) s = asks .brk ∧
       (Passes u (s.tretPre u) → exec (.tret g) s = asks .tret)) ∧
     (s.guard u g = false →
       exec (.suspend g a b) s = .next s ∧ exec (.yield g) s = .next s ∧ exec (.halt g) s = .next s ∧
       exec (.trap g imm) s = .next s ∧ exec (.brk g) s = .next s ∧ exec (.tret g) s = .next s)) ∧
  ((∀ (s : State) (u : Issue) (code : Nat) (l : Leave) (x : Strand), (s.seat u.core u.seat).strand = some x →
     (s.seat u.core u.seat).tm = false →
     s.control { u with ctl := .leave l } = s.modSeat u.core u.seat (fun t => { t with leave := some l }) ∧
     s.control { u with ctl := .trap code } = s.takeTrap u.core u.seat ⟨0x12, code, 0, u.pc.toNat, 0, false, 0⟩ u.next {} none ∧
     s.control { u with ctl := .brk } =
       (if bitAt (BitVec.toNat (s.tenancy x.ten).debug) 0 then s.debugStop u.core u.seat
        else s.takeTrap u.core u.seat ⟨0x0D, 0, 0, u.pc.toNat, 0, false, 0⟩ u.next {} none)) ∧
    ∀ (s : State) (u : Issue) (l : Leave), (s.seat u.core u.seat).tm = true →
      s.control { u with ctl := .leave l } =
        (if l = .halt then s.modSeat u.core u.seat (fun t => { t with leave := some l }) else s.killStrand u.core u.seat 1))

/-! ## Integer forms and copies between files (R102 to R104, R113, R114) -/

/-- R102: the two-operand integer forms of the I and the J slot, each with latency 1, on 64-bit words. -/
def Obligations.IntegerArithmeticResults : Prop :=
  ∀ (s : State) (u : Issue) (g : Guard) (x : IJ) (d a b : R11), Acts s u g →
    let A := intReg s u x a
    let B := intReg s u x b
    let n := B.toNat % 64
    let puts (v : Word) : Host.Outcome State Fault Refusal := .next (intResult s u x d v)
    exec (.add g x d a b) s = puts (A + B) ∧
    exec (.sub g x d a b) s = puts (A - B) ∧
    exec (.mul g x d a b) s = puts (A * B) ∧
    exec (.mulh g x d a b) s = puts ((A.signExtend 128 * B.signExtend 128).extractLsb' 64 64) ∧
    exec (.mulhu g x d a b) s = puts ((A.zeroExtend 128 * B.zeroExtend 128).extractLsb' 64 64) ∧
    exec (.and g x d a b) s = puts (A &&& B) ∧
    exec (.or g x d a b) s = puts (A ||| B) ∧
    exec (.xor g x d a b) s = puts (A ^^^ B) ∧
    exec (.andn g x d a b) s = puts (A &&& ~~~B) ∧
    exec (.shl g x d a b) s = puts (A <<< n) ∧
    exec (.shr g x d a b) s = puts (A >>> n) ∧
    exec (.sar g x d a b) s = puts (A.sshiftRight n) ∧
    exec (.rot g x d a b) s = puts (A.rotateLeft n) ∧
    exec (.min g x d a b) s = puts (if B.slt A then B else A) ∧
    exec (.max g x d a b) s = puts (if A.slt B then B else A) ∧
    exec (.minu g x d a b) s = puts (if B < A then B else A) ∧
    exec (.maxu g x d a b) s = puts (if A < B then B else A)

/-- R102: the integer forms of one source or with an immediate, and SEL, each with latency 1. R104: CMP puts 1 into its predicate when the
condition its c field selects holds, 0 otherwise, with latency 1. -/
def Obligations.IntegerUnaryAndCompareResults : Prop :=
  (∀ (s : State) (u : Issue) (g : Guard) (x : IJ) (d a c : R11) (imm : Imm), Acts s u g →
     let A := intReg s u x a
     let B := intReg s u x c
     let puts (v : Word) : Host.Outcome State Fault Refusal := .next (intResult s u x d v)
     exec (.addi g x d a imm) s = puts (A + imm.value) ∧
     exec (.li g x d imm) s = puts imm.value ∧
     exec (.clz g x d a) s = puts (BitVec.ofNat 64 (if A = 0 then 64 else 63 - Nat.log2 A.toNat)) ∧
     exec (.popc g x d a) s = puts (BitVec.ofNat 64 ((List.range 64).countP (fun i => A.getLsbD i))) ∧
     (∀ q : R11, exec (.sel g x d a c q) s = puts (if s.rd u .q (q.toNat % 8) = 1 then A else B))) ∧
  (∀ (s : State) (u : Issue) (g : Guard) (x : IJ) (d a b cc : R11), Acts s u g →
     let A := intReg s u x a
     let B := intReg s u x b
     cc.toNat < 6 →
     exec (.cmp g x d a b cc) s = .next (s.result u x.slot.pos 1 .q (d.toNat % 8) (b2n (match cc.toNat with
       | 0 => decide (A = B)
       | 1 => decide (A ≠ B)
       | 2 => A.slt B
       | 3 => A.sle B
       | 4 => decide (A < B)
       | _ => decide (A ≤ B)))))

/-- R113 and R114: the copies between files, with the latencies of R113. A selector's bits 5 to 0 name a 32-bit lane, or with bit 6
set its bits 5 to 1 a 64-bit element. -/
def Obligations.CopiesBetweenFiles : Prop :=
  ∀ (s : State) (u : Issue) (g : Guard) (df sf : KFile) (d a b : R11), Acts s u g →
    let src := s.rd u sf.file a.toNat
    let old := s.rd u df.file d.toNat
    exec (.kmov g df sf d a) s = .next (s.result u 10 2 df.file d.toNat src) ∧
    exec (.kvec g df sf d a) s = .next (s.result u 10 3 df.file d.toNat src) ∧
    (let sel := s.rd u df.file b.toNat
     exec (.kext g df sf d a b) s = .next (s.result u 10 3 df.file d.toNat
      (if bitAt sel 6 then src / 2 ^ (64 * (sel / 2 % 32)) % 2 ^ 64 else src / 2 ^ (32 * (sel % 64)) % 2 ^ 32))) ∧
    (let sel := s.rd u sf.file b.toNat
     ∃ v, exec (.kins g df sf d a b) s = .next (s.result u 10 3 df.file d.toNat v) ∧
      (bitAt sel 6 = false → ∀ l, l < 64 → v / 2 ^ (32 * l) % 2 ^ 32 = (if l = sel % 64 then src else old / 2 ^ (32 * l)) % 2 ^ 32) ∧
      (bitAt sel 6 = true → ∀ e, e < 32 → v / 2 ^ (64 * e) % 2 ^ 64 = (if e = sel / 2 % 32 then src else old / 2 ^ (64 * e)) % 2 ^ 64)) ∧
    ∃ v, exec (.kbc g df sf d a) s = .next (s.result u 10 3 df.file d.toNat v) ∧ ∀ l, l < 64 → v / 2 ^ (32 * l) % 2 ^ 32 = src % 2 ^ 32

/-! ## Floating point, scalar and vector (R64 to R71, R116 to R143) -/

/-- R119 to R124: the forms of the F slot, each with its latency, on the low bits of its f registers, under the rounding of its
variant and FCTL.FTZ. The operations fAdd to convElem are those of R61 to R66. -/
def Obligations.ScalarFloatResults : Prop :=
  ∀ (s : State) (u : Issue) (g : Guard) (t : FT) (rm : RM) (d a b c : R11) (imm : Imm), Acts s u g →
    let w := ftWidth t
    let f := ftFmt t
    let z := s.ftz u
    let A := s.rd u .fr a.toNat % 2 ^ w
    let B := s.rd u .fr b.toNat % 2 ^ w
    let C := s.rd u .fr c.toNat % 2 ^ w
    let puts (lat : Nat) (r : FRes) : Host.Outcome State Fault Refusal :=
      .next (s.resultFp u 3 lat (some (s.dst u .fr d.toNat)) r.bits [r.fl])
    let plain (lat : Nat) (file : File) (n v : Nat) : Host.Outcome State Fault Refusal := .next (s.resultFpu u 3 lat file n v)
    exec (.fadd g t rm d a b) s = puts 4 (fAdd f rm z A B) ∧
    exec (.fsub g t rm d a b) s = puts 4 (fSub f rm z A B) ∧
    exec (.fmul g t rm d a b) s = puts 4 (fMul f rm z A B) ∧
    exec (.ffma g t rm d a b c) s = puts 4 (fFma f rm z false A B C) ∧
    exec (.fdiv g t rm d a b) s = puts 14 (fDiv f rm z A B) ∧
    exec (.fsqrt g t rm d a) s = puts 14 (fSqrt f rm z A) ∧
    exec (.frsq g t rm d a) s = puts 14 (fRsq f rm z A) ∧
    exec (.fmin g t d a b) s = puts 4 (fMinMax f z false A B) ∧
    exec (.fmax g t d a b) s = puts 4 (fMinMax f z true A B) ∧
    exec (.fabs g t d a) s = puts 2 (fAbs f z A) ∧
    exec (.fneg g t d a) s = puts 2 (fNeg f z A) ∧
    (∀ cc, exec (.fcmp g t d a b cc) s = plain 4 .q (d.toNat % 8) (b2n (fCmp f z cc.toNat A B))) ∧
    (∀ m : R11, exec (.fclass g t d a m) s = plain 4 .q (d.toNat % 8) (b2n (bitAt m.toNat (classOf f A)))) ∧
    exec (.fsel g d a b c) s = plain 2 .fr d.toNat (if s.rd u .q (c.toNat % 8) = 1 then s.rd u .fr a.toNat else s.rd u .fr b.toNat) ∧
    exec (.fli g d imm) s = plain 1 .fr d.toNat imm.value.toNat ∧
    exec (.fliHi g d imm) s = plain 1 .fr d.toNat (imm.value.toNat % 2 ^ 29 * 8) ∧
    (let src := c.toNat % 16
     let dst := c.toNat / 16 % 16
     let r := convElem z (!bitAt b.toNat 4) rm src dst (s.rd u .fr a.toNat % 2 ^ codeWidth src)
     exec (.fcvt g rm d a b c) s = puts 4 ⟨if 8 ≤ dst then wrapN 64 (sextN (intWidth dst) r.bits) else r.bits, r.fl⟩)

/-- R64 and R65: an operation with a NaN operand gives the canonical NaN and no flag; the minimum and maximum forms give the other operand,
and the canonical NaN when both are NaN; a compare with a NaN is unordered. For FP32, FP16 and BF16. R64 and R65: 0 × ∞, ∞ − ∞, 0/0, ∞/∞ and
the root of a negative number give NaN with NV; a finite non-zero value over zero, and 1/√±0, give a signed infinity with DZ; √−0 is −0; an
exact zero sum is +0, and −0 under RD; a product of zeros has the XOR of the signs. -/
def Obligations.NanAndInvalidOperands : Prop :=
  (∀ (t : FT) (rm : RM) (z : Bool) (a b c : Nat),
     let f := ftFmt t
     let nan (x : Nat) : Prop := unpack f z x = .nan
     (nan a ∨ nan b → fAdd f rm z a b = ⟨f.nan, 0⟩ ∧ fSub f rm z a b = ⟨f.nan, 0⟩ ∧ fMul f rm z a b = ⟨f.nan, 0⟩ ∧ fDiv f rm z a b = ⟨f.nan, 0⟩ ∧
       fCmp f z 0 a b = false ∧ fCmp f z 1 a b = true ∧ fCmp f z 2 a b = false ∧ fCmp f z 3 a b = false) ∧
     (nan a → fSqrt f rm z a = ⟨f.nan, 0⟩ ∧ fRsq f rm z a = ⟨f.nan, 0⟩ ∧ fMinMax f z false a b = roundVal f .rne z true (unpack f z b) ∧
       fMinMax f z true a b = roundVal f .rne z true (unpack f z b)) ∧
     (¬ nan a → nan b → fMinMax f z false a b = roundVal f .rne z true (unpack f z a) ∧
       fMinMax f z true a b = roundVal f .rne z true (unpack f z a)) ∧
     (nan a ∨ nan b ∨ nan c → (fFma f rm z false a b c).bits = f.nan ∧ (fFma f rm z true a b c).bits = f.nan)) ∧
  (∀ (m n : Nat) (e k : Int) (a b : Bool), 0 < m → 0 < n →
     mulVal (.fin a 0 e) (.inf b) = ⟨.nan, flNV⟩ ∧ mulVal (.inf a) (.fin b 0 e) = ⟨.nan, flNV⟩ ∧
     (∀ rm, sumVal rm [.inf a, .inf (!a)] = ⟨.nan, flNV⟩) ∧
     divVal (.fin a 0 e) (.fin b 0 k) = ⟨.nan, flNV⟩ ∧ divVal (.inf a) (.inf b) = ⟨.nan, flNV⟩ ∧
     divVal (.fin a m e) (.fin b 0 k) = ⟨.inf (a != b), flDZ⟩ ∧
     sqrtVal (.fin true m e) = ⟨.nan, flNV⟩ ∧ sqrtVal (.inf true) = ⟨.nan, flNV⟩ ∧ sqrtVal (.fin true 0 e) = ⟨.fin true 0 0, 0⟩ ∧
     rsqVal (.fin true m e) = ⟨.nan, flNV⟩ ∧ rsqVal (.fin a 0 e) = ⟨.inf a, flDZ⟩ ∧
     (∀ rm, sumVal rm [.fin a m e, .fin (!a) m e] = ⟨.fin (rm == .rd) 0 0, 0⟩) ∧
     (∀ rm, sumVal rm [.fin true 0 e, .fin true 0 k] = ⟨.fin true 0 0, 0⟩) ∧
     mulVal (.fin a 0 e) (.fin b 0 k) = ⟨.fin (a != b) 0 (e + k), 0⟩)

/-- R53, R54 and R61: a value that a format can represent rounds to itself in every mode and raises no flag, subnormals, infinities and signed
zeros included. For FP32, FP16, BF16, E4M3 and E5M2. R61 on a significand m rounded to a multiple of a step 2^k: the choice is inexact exactly
when it differs from m; RZ chooses the nearest multiple not greater in magnitude, RU and RD the nearest on their side of the signed value, and
RNE the nearest, on a tie the even one. -/
def Obligations.RoundingOfValues : Prop :=
  (∀ (f : FFmt), f ∈ [fp32, fp16, bf16, e4m3, e5m2] → ∀ (rm : RM) (sat : Bool) (x : Nat), x < 2 ^ f.width →
     unpack f false x ≠ .nan → roundVal f rm false sat (unpack f false x) = ⟨x, 0⟩) ∧
  (∀ (rm : RM) (neg : Bool) (m k : Nat),
     let r := roundShift rm neg m (k : Int)
     (r.2 = true ↔ r.1 * 2 ^ k ≠ m) ∧
     (rm = .rz → r.1 * 2 ^ k ≤ m ∧ m < (r.1 + 1) * 2 ^ k) ∧
     (rm = .ru → if neg then r.1 * 2 ^ k ≤ m ∧ m < (r.1 + 1) * 2 ^ k else m ≤ r.1 * 2 ^ k ∧ r.1 * 2 ^ k < m + 2 ^ k) ∧
     (rm = .rd → if neg then m ≤ r.1 * 2 ^ k ∧ r.1 * 2 ^ k < m + 2 ^ k else r.1 * 2 ^ k ≤ m ∧ m < (r.1 + 1) * 2 ^ k) ∧
     (rm = .rne → 2 * m ≤ (2 * r.1 + 1) * 2 ^ k ∧ 2 * r.1 * 2 ^ k ≤ 2 * m + 2 ^ k ∧
       (2 * m = (2 * r.1 + 1) * 2 ^ k ∨ 2 * m + 2 ^ k = 2 * r.1 * 2 ^ k → 0 < k → r.1 % 2 = 0)))

/-- R128 to R131 and R133 to R136: the typed forms of the V and W slots, element by element with R128 to R136's latencies; a
compare gives all ones or zero, or one predicate. vRed, vScan, approx and vcvt are the operations of R72, R135 and R136; what
an approximate form gives between its bounds is a free function (log 5). -/
def Obligations.VectorFloatResults : Prop :=
  ∀ (s : State) (u : Issue) (g : Guard) (x : VW) (t : FT) (rm : RM) (d p o : R11) (a b c : VSrc), Acts s u g →
    let w := ftWidth t
    let f := ftFmt t
    let z := s.ftz u
    let A (e : Nat) := elem (s.vsrc u x 0 a) w e
    let B (e : Nat) := elem (s.vsrc u x 1 b) w e
    let C (e : Nat) := elem (s.vsrc u x 2 c) w e
    let read (src : List VSrc) : State := s.captures u x 0 src (s.vsrcs u x 0 src)
    let puts (src : List VSrc) (lat : Nat) (r : Nat → FRes) : Host.Outcome State Fault Refusal :=
      .next ((read src).resultVec u x lat d w ((List.range (2048 / w)).map r))
    let pred (v : Bool) : Host.Outcome State Fault Refusal :=
      .next ((read [a, b]).resultFpu u x.slot.pos 2 .q (d.toNat % 8) (b2n v))
    exec (.vadd g x t rm d a b) s = puts [a, b] 4 (fun e => fAdd f rm z (A e) (B e)) ∧
    exec (.vsub g x t rm d a b) s = puts [a, b] 4 (fun e => fSub f rm z (A e) (B e)) ∧
    exec (.vmul g x t rm d a b) s = puts [a, b] 4 (fun e => fMul f rm z (A e) (B e)) ∧
    exec (.vmulZg g x t rm d a b) s = puts [a, b] 4 (fun e => fMul f rm z (A e) (B e)) ∧
    exec (.vfma g x t rm d a b c) s = puts [a, b, c] 5 (fun e => fFma f rm z false (A e) (B e) (C e)) ∧
    exec (.vfmaZg g x t rm d a b c) s = puts [a, b, c] 5 (fun e => fFma f rm z false (A e) (B e) (C e)) ∧
    exec (.vfms g x t rm d a b c) s = puts [a, b, c] 5 (fun e => fFma f rm z true (A e) (B e) (C e)) ∧
    exec (.vfmsZg g x t rm d a b c) s = puts [a, b, c] 5 (fun e => fFma f rm z true (A e) (B e) (C e)) ∧
    exec (.vmin g x t d a b) s = puts [a, b] 2 (fun e => fMinMax f z false (A e) (B e)) ∧
    exec (.vmax g x t d a b) s = puts [a, b] 2 (fun e => fMinMax f z true (A e) (B e)) ∧
    exec (.vabs g x t d a) s = puts [a] 2 (fun e => fAbs f z (A e)) ∧
    exec (.vneg g x t d a) s = puts [a] 2 (fun e => fNeg f z (A e)) ∧
    exec (.vexp2 g x t d a) s = puts [a] 8 (fun e => approx 0 t z (A e)) ∧
    exec (.vlog2 g x t d a) s = puts [a] 8 (fun e => approx 1 t z (A e)) ∧
    exec (.vrcp g x t d a) s = puts [a] 8 (fun e => approx 2 t z (A e)) ∧
    exec (.vrsq g x t d a) s = puts [a] 8 (fun e => approx 3 t z (A e)) ∧
    exec (.vscan g x t rm d a) s = .next ((read [a]).resultVec u x 8 d w (vScan t rm z (s.vsrc u x 0 a))) ∧
    exec (.vred g x t rm d a) s = .next ((read [a]).resultVec u x 6 d w [vRed t rm z (s.vsrc u x 0 a)]) ∧
    VecPuts s u x [a, b] 2 d w (fun e => if fCmp f z o.toNat (A e) (B e) then 2 ^ w - 1 else 0) (exec (.vcmp g x t d a b o) s) ∧
    exec (.vcmpAny g x t d a b o) s = pred ((List.range (2048 / w)).any (fun e => fCmp f z o.toNat (A e) (B e))) ∧
    exec (.vcmpAll g x t d a b o) s = pred ((List.range (2048 / w)).all (fun e => fCmp f z o.toNat (A e) (B e))) ∧
    (let V (src : VSrc) (k e : Nat) := unpack f z (elem (s.vsrc u x k src) w e)
     exec (.vdot g x t rm d a b c) s = .next ((read [a, b, c]).resultVec u x 5 d 32 ((List.range 64).map (fun l =>
      let i := if t = .f32 then l / 2 * 2 else 2 * l
      fused fp32 rm z [mulVal (V a 0 i) (V b 1 i), mulVal (V a 0 (i + 1)) (V b 1 (i + 1))]
        (unpack fp32 z (elem (s.vsrc u x 2 c) 32 l)))))) ∧
    (let r := vcvt z (!bitAt p.toNat 4) rm (o.toNat % 16) (o.toNat / 16 % 16) (p.toNat % 16)
        (BitVec.ofNat 2048 (s.rd u (vwFile x) d.toNat)) (s.vsrc u x 0 a)
     exec (.vcvt g x rm d a p o) s =
      .next ((read [a]).resultFp u x.slot.pos 4 (some (s.dst u (vwFile x) d.toNat)) r.1.toNat r.2))

/-- R132 and R137 to R139: the selecting, rearranging, integer-lane and index forms of the V and W slots, element by element. -/
def Obligations.VectorIntegerResults : Prop :=
  ∀ (s : State) (u : Issue) (g : Guard) (x : VW) (w : IW) (d n o : R11) (a b c : VSrc), Acts s u g →
    let A (k e : Nat) : BitVec k := laneOf k (s.vsrc u x 0 a) e
    let B (k e : Nat) : BitVec k := laneOf k (s.vsrc u x 1 b) e
    let C (k e : Nat) : BitVec k := laneOf k (s.vsrc u x 2 c) e
    let k := w.bits
    VecPuts s u x [a, b, c] 2 d k (fun e => if C k e ≠ 0 then (A k e).toNat else (B k e).toNat) (exec (.vsel g x w d a b c) s) ∧
    VecPuts s u x [a, b, c] 3 d 32 (fun l =>
      let i := (B 32 l).toNat % 128
      if i < 64 then (A 32 i).toNat else (C 32 (i - 64)).toNat) (exec (.vperm g x d a b c) s) ∧
    VecPuts s u x [a] 3 d k (fun _ => (A k n.toNat).toNat) (exec (.vbcast g x w d a n) s) ∧
    (n.toNat < 64 → VecPuts s u x [a] 3 d 32 (fun l => (A 32 ((l + (64 - n.toNat)) % 64)).toNat) (exec (.vrotl g x d a n) s)) ∧
    VecPuts s u x [a, b] 2 d k (fun e => (A k e + B k e).toNat) (exec (.viadd g x w d a b) s) ∧
    VecPuts s u x [a, b] 2 d k (fun e => (A k e * B k e).toNat) (exec (.vimul g x w d a b) s) ∧
    VecPuts s u x [a, b] 2 d 32 (fun e => (A 32 e &&& B 32 e).toNat) (exec (.vand g x d a b) s) ∧
    VecPuts s u x [a, b] 2 d 32 (fun e => (A 32 e ||| B 32 e).toNat) (exec (.vor g x d a b) s) ∧
    VecPuts s u x [a, b] 2 d 32 (fun e => (A 32 e ^^^ B 32 e).toNat) (exec (.vxor g x d a b) s) ∧
    VecPuts s u x [a, b] 2 d k (fun e => (A k e <<< ((B k e).toNat % k)).toNat) (exec (.vshl g x w d a b) s) ∧
    VecPuts s u x [a, b] 2 d k (fun e => (A k e >>> ((B k e).toNat % k)).toNat) (exec (.vshr g x w d a b) s) ∧
    VecPuts s u x [] 2 d 32 (fun l => (n.toNat + l * o.toNat) % 2 ^ 32) (exec (.vidx g x d n o) s) ∧
    exec (.vsetx g x d a n) s = .next ((s.captures u x 0 [a] (s.vsrcs u x 0 [a])).resultFpu u x.slot.pos 1 (vwIx x) d.toNat
      ((A 32 n.toNat).toNat % 2 ^ 16)) ∧
    exec (.vsetxAdd g x d n o) s = .next (s.resultFpu u x.slot.pos 1 (vwIx x) d.toNat
      (BitVec.ofNat 16 (s.rd u (vwIx x) n.toNat) + o.signExtend 16).toNat) ∧
    exec (.vsetxLi g x d n) s = .next (s.resultFpu u x.slot.pos 1 (vwIx x) d.toNat n.toNat)

/-- R24, R33 and R127: what a source of a V or W syllable reads: its register; a register it also captures into its position's latch; the
latch; the row the bundle's MDRAIN emits; or the register whose number is index + offset modulo the allocation. Only a capture changes
anything, and only its own latch. R140: a VPOPQ pops the head of the seat's index data queue into its register, with latency 2; with no entry
and none to come it takes QIMBAL, and with one to come it holds. -/
def Obligations.VectorSourcesAndPops : Prop :=
  (∀ (s : State) (u : Issue) (x : VW) (k : Nat) (n : R11) (ir : BitVec 4) (io : BitVec 7) (v : Vec) (st : Strand),
     let t := s.seat u.core u.seat
     k < 3 → t.strand = some st →
     s.vsrc u x k (.reg n) = BitVec.ofNat 2048 (s.rd u (vwFile x) n.toNat) ∧
     s.vsrc u x k (.cap n) = BitVec.ofNat 2048 (s.rd u (vwFile x) n.toNat) ∧
     s.vsrc u x k .latch = tget t.regs.hl 0 (vwLatch x k) ∧
     s.vsrc u x k (.ind ir io) = BitVec.ofNat 2048 (s.rd u (vwFile x)
       ((s.rd u (vwIx x) ir.toNat + io.toNat) % (128 * (if x = .w then st.wu else st.vu)))) ∧
     (∀ g d a, u.syls = [.mdrain g d a] →
       s.vsrc u x k .fl = tget ((s.core u.core).mx.bankRows (d.toNat % 2)) 0 a.toNat) ∧
     s.capture u x k (.reg n) v = s ∧ s.capture u x k .latch v = s ∧ s.capture u x k .fl v = s ∧ s.capture u x k (.ind ir io) v = s ∧
     s.capture u x k (.cap n) v = s.modSeat u.core u.seat (fun t => { t with regs := { t.regs with
       hl := tset t.regs.hl 0 ((match x with | .v => 0 | .w => 3) + k) v } })) ∧
  (∀ (s : State) (u : Issue) (g : Guard) (x : VW) (d : R11), Acts s u g →
     let q := (s.seat u.core u.seat).dataq
     (∀ h r, q = h :: r → Passes u (s.popqPre u 1) →
       exec (.vpopq g x d) s = .next ((s.modSeat u.core u.seat (fun t => { t with dataq := r })).fly u x.slot.pos 2
         (some (s.dst u (vwFile x) d.toNat)) h.toNat 0 false true)) ∧
     (q = [] → s.pushesOut u = 0 → u.checked = false →
       exec (.vpopq g x d) s = .next (s.preciseTrap u.core u.seat ⟨0x06, 1, 0, 0, 0, false, 0⟩)) ∧
     (q = [] → 0 < s.pushesOut u → u.checked = false → exec (.vpopq g x d) s = .next (s.holdBundle u)))

/-! ## Memory forms (R105 to R111, R141, R142, R242 to R249) -/

/-- R106 and R108: a global load or store whose checks pass goes under way at its virtual address, a store with the low bytes of its
register read at issue; the acquire and release forms carry their order, and a release its scope: at CORE, DIE or PKG it need not wait for what
the ports of the host and the fabric have accepted (R226). PREF asks for the translation and the line of its address, and no seat sees it. -/
def Obligations.GlobalLoadsAndStores : Prop :=
  ∀ (s : State) (u : Issue) (g : Guard) (z : Sz) (sx wr : Bool) (sc : Scope) (d a b : R11) (imm : Imm), Acts s u g →
    let near := (s.rd u .i a.toNat + imm.value.toNat) % 2 ^ 64
    let sum := (s.rd u .i a.toNat + s.rd u .i b.toNat) % 2 ^ 64
    let n := z.bytes
    let D := s.dst u .i d.toNat
    let low := s.rd u .i d.toNat % 2 ^ (8 * n)
    (Passes u (s.globalPre u near n 0) →
      exec (.ldg g z sx d a imm) s = .next (s.pushGlobal u { blankAcc 1 (.load sx) false near n with dst := some D } 0)) ∧
    (Passes u (s.globalPre u near n 2) →
      exec (.stg g z d a imm) s = .next (s.pushGlobal u { blankAcc 1 .store false near n with data := low } 2)) ∧
    (Passes u (s.globalPre u sum n 1) →
      exec (.ldga g z sc d a b) s =
        .next (s.pushGlobal u { blankAcc 1 (.load false) false sum n with dst := some D, acq := true } 1)) ∧
    (Passes u (s.globalPre u sum n 3) →
      exec (.stgl g z sc d a b) s =
        .next (s.pushGlobal u { blankAcc 1 .store false sum n with data := low, rel := true, sys := sc == .sys } 3)) ∧
    exec (.pref g wr a imm) s = .next (s.prefetch u.core (s.who u).1 (s.who u).2.1 near) ∧
    ∀ c i, (s.prefetch u.core (s.who u).1 (s.who u).2.1 near).seat c i = s.seat c i

/-- R107, R209, R218 and R219: what going under way does. With a cached translation that permits it, the access joins the seat's
list with its physical address, key and least latency; with none it waits for a walk; one whose check fails takes a deferred XLATE with the
reason and the address, and is not sent. That a missed access to a page that the tables call ORDERED joins the order of R241 at once, and that
a bundle whose CHECKED accesses have passed (R239) uses the translation the tables give, is the model's inference (log 20). -/
def Obligations.GlobalAccessUnderWay : Prop :=
  ∀ (s : State) (u : Issue) (a : Acc) (m : Nat) (x : Strand), (s.seat u.core u.seat).strand = some x →
    let now := (s.core u.core).now
    let answer := if u.passed then s.foresee u.core x.ten x.lid a.va (needOf m) else s.translate u.core x.ten x.lid a.va (needOf m)
    (∀ pa key cons, answer = .ok pa key cons →
      s.pushGlobal u a m = s.pushAcc u { a with
        pas := some [pa], key := key, ordered := cons == 2
        due := now + (if m ≤ 1 then globalLat u.core pa false else if m = 4 then globalLat u.core pa true else 1) }) ∧
    (answer = .absent → s.pushGlobal u a m = s.pushAcc u { a with due := now }) ∧
    (answer = .miss → s.pushGlobal u a m = s.pushAcc u { a with due := now, ordered := s.ordered u a.va m }) ∧
    (∀ r, answer = .fail r → s.pushGlobal u a m = s.modSeat u.core u.seat (fun t => { t with
      deferred := t.deferred ++ [⟨0x07, b2n a.pool, a.va, u.pc.toNat, r, true, u.seq⟩] }))

/-- What putting a result under way leaves alone: all but the acting seat's list of results under way. What an access that goes under way
changes: the core's next number, and the seat's list of accesses, at whose end it stands with the bundle's place in program order. -/
def Obligations.ResultAndAccessFrames : Prop :=
  (∀ (s : State) (u : Issue) (pos lat : Nat) (f : File) (n v : Nat),
     let t := s.result u pos lat f n v
     t.mem = s.mem ∧ t.dies = s.dies ∧ t.tens = s.tens ∧ t.launches = s.launches ∧ t.lines = s.lines ∧ t.iss = s.iss ∧
     (∀ c, c ≠ u.core → t.core c = s.core c) ∧
     (∀ i, i ≠ u.seat → t.seat u.core i = s.seat u.core i) ∧
     (∀ fl, { t.seat u.core u.seat with flights := fl } = { s.seat u.core u.seat with flights := fl }) ∧
     (t.core u.core).mx = (s.core u.core).mx ∧ (t.core u.core).now = (s.core u.core).now ∧ (t.core u.core).sem = (s.core u.core).sem) ∧
  (∀ (s : State) (u : Issue) (a : Acc),
     let t := s.pushAcc u a
     let id := (s.core u.core).nextId
     (t.seat u.core u.seat) = { s.seat u.core u.seat with
       accs := (s.seat u.core u.seat).accs ++ [{ a with id := id, seq := u.seq, bundle := u.pc }] } ∧
     (t.core u.core).nextId = id + 1 ∧
     t.mem = s.mem ∧ t.dies = s.dies ∧ t.tens = s.tens ∧ t.launches = s.launches ∧ t.lines = s.lines ∧ t.pkg = s.pkg ∧ t.iss = s.iss ∧
     (∀ c, c ≠ u.core → t.core c = s.core c) ∧ (∀ i, i ≠ u.seat → t.seat u.core i = s.seat u.core i) ∧
     (t.core u.core).mx = (s.core u.core).mx ∧ (t.core u.core).sem = (s.core u.core).sem ∧ (t.core u.core).now = (s.core u.core).now)

/-- R110, R111, R141 and R142: a pool access whose checks pass goes under way at its offset in the strand's window on its own die, with its
least latency (R209); a vector access at 64 offsets of 4 bytes. -/
def Obligations.PoolLoadsAndStores : Prop :=
  ∀ (s : State) (u : Issue) (g : Guard) (z : Sz) (sx s4 : Bool) (x : VW) (sc : Scope) (d a b : R11) (imm : Imm), Acts s u g →
    let near : Int := sextN 64 ((s.rd u .j a.toNat + imm.value.toNat) % 2 ^ 64)
    let sum : Int := sextN 64 ((s.rd u .j a.toNat + s.rd u .j b.toNat) % 2 ^ 64)
    let n := z.bytes
    let D := s.dst u .j d.toNat
    let low := s.rd u .j d.toNat % 2 ^ (8 * n)
    let base := s.vecOff u x s4 a imm
    let stride := s.vecStride u x a
    let lanes (step : Int) := (List.range 64).map (fun (l : Nat) => s.winPa u (base + (l : Int) * step).toNat)
    let sends (acc : Acc) (pas : List Nat) (lat : Nat) : Host.Outcome State Fault Refusal :=
      .next (s.pushAcc u { acc with pas := some pas, due := (s.core u.core).now + lat })
    let P (off : Int) : List Nat := [s.winPa u off.toNat]
    (Passes u (s.poolPre u near n n) →
      exec (.ldp g z sx d a imm) s =
        sends { blankAcc 2 (.load sx) true (off64 near) n with dst := some D } (P near) (poolLat u.core (P near) 8 14) ∧
      exec (.stp g z d a imm) s = sends { blankAcc 2 .store true (off64 near) n with data := low } (P near) 1) ∧
    (Passes u (s.poolPre u sum n n) →
      exec (.ldpa g z sc d a b) s =
        sends { blankAcc 2 (.load false) true (off64 sum) n with dst := some D, acq := true } (P sum) (poolLat u.core (P sum) 8 14) ∧
      exec (.stpl g z sc d a b) s =
        sends { blankAcc 2 .store true (off64 sum) n with data := low, rel := true, sys := sc == .sys } (P sum) 1) ∧
    (Passes u (s.sqldPre u d.toNat near) →
      exec (.sqld g d a imm) s = sends (blankAcc 2 .sqld true (off64 near) (2 * d.toNat)) (P near)
        (poolLat u.core (P near) 8 14)) ∧
    (Passes u (s.lanePre u base 4) →
      exec (.vldp g x s4 d a imm) s = sends { blankAcc x.slot.pos .vload true (off64 base) 4 with dst := some (s.dst u (vwFile x) d.toNat) }
        (lanes 4) (poolLat u.core (lanes 4) 12 20) ∧
      exec (.vstp g x s4 d a imm) s =
        sends { blankAcc x.slot.pos .vstore true (off64 base) 4 with data := s.rd u (vwFile x) d.toNat } (lanes 4) 1) ∧
    (Passes u (s.lanePre u base stride) →
      exec (.vldps g x s4 d a imm) s = sends { blankAcc x.slot.pos .vload true (off64 base) 4 with dst := some (s.dst u (vwFile x) d.toNat) }
        (lanes stride) (poolLat u.core (lanes stride) 12 20))

/-- R106 and R107: a global access of n bytes at 2^56 or above takes XLATE with INFO0 0, and one at an address that n does not divide takes
ALIGN with INFO0 0, the address in TINFO1; nothing is sent. An atomic is stated for a seat with fewer than 64 requests unanswered at every
home, since a 65th waits first (R249). R110: a pool access of n bytes at a negative offset or past the end of the window takes XLATE with
INFO0 1, and one at an offset that n does not divide takes ALIGN with INFO0 1, the offset in TINFO1. -/
def Obligations.AddressTraps : Prop :=
  (∀ (s : State) (u : Issue) (g : Guard) (z : Sz) (w : AW) (f : FW) (o : Ord) (sx : Bool) (sc : Scope) (d a b c : R11) (imm : Imm),
     Acts s u g → u.checked = false →
     let near := (s.rd u .i a.toNat + imm.value.toNat) % 2 ^ 64
     let sum := (s.rd u .i a.toNat + s.rd u .i b.toNat) % 2 ^ 64
     let at_ := s.rd u .i a.toNat
     let traps (cause va : Nat) : Host.Outcome State Fault Refusal :=
       .next (s.preciseTrap u.core u.seat ⟨cause, 0, va, 0, 0, false, 0⟩)
     let fails (va n : Nat) (out : Host.Outcome State Fault Refusal) : Prop :=
       (2 ^ 56 ≤ va → out = traps 0x07 va) ∧ (va < 2 ^ 56 → va % n ≠ 0 → out = traps 0x0F va)
     fails near z.bytes (exec (.ldg g z sx d a imm) s) ∧
     fails near z.bytes (exec (.stg g z d a imm) s) ∧
     fails sum z.bytes (exec (.ldga g z sc d a b) s) ∧
     fails sum z.bytes (exec (.stgl g z sc d a b) s) ∧
     ((∀ h, s.unanswered u.core u.seat h < 64) →
       fails at_ w.bytes (exec (.agadd g w o d a b) s) ∧ fails at_ w.bytes (exec (.agincw g w o d a b) s) ∧
       fails at_ w.bytes (exec (.agaddb g w o d a b c) s) ∧ fails at_ w.bytes (exec (.agcas g w o d a b c) s) ∧
       fails at_ w.bytes (exec (.agxch g w o d a b) s) ∧ fails at_ w.bytes (exec (.agmin g w o d a b) s) ∧
       fails at_ w.bytes (exec (.agmax g w o d a b) s) ∧ fails at_ w.bytes (exec (.agand g w o d a b) s) ∧
       fails at_ w.bytes (exec (.agor g w o d a b) s) ∧ fails at_ w.bytes (exec (.agxor g w o d a b) s) ∧
       fails at_ (match f with | .f32 => 4 | .bf => 2) (exec (.agfadd g f o d a b) s))) ∧
  (∀ (s : State) (u : Issue) (g : Guard) (z : Sz) (w : AW) (f : FW) (o : Ord) (sx : Bool) (sc : Scope) (d a b c : R11) (imm : Imm),
     Acts s u g → u.checked = false →
     let near : Int := sextN 64 ((s.rd u .j a.toNat + imm.value.toNat) % 2 ^ 64)
     let sum : Int := sextN 64 ((s.rd u .j a.toNat + s.rd u .j b.toNat) % 2 ^ 64)
     let own : Int := sextN 64 (s.rd u .j a.toNat)
     let traps (cause : Nat) (off : Int) : Host.Outcome State Fault Refusal :=
       .next (s.preciseTrap u.core u.seat ⟨cause, 1, off64 off, 0, 0, false, 0⟩)
     let fails (off : Int) (n : Nat) (out : Host.Outcome State Fault Refusal) : Prop :=
       (off < 0 ∨ (s.winSize u : Int) < off + n → out = traps 0x07 off) ∧
       (0 ≤ off → off + n ≤ (s.winSize u : Int) → off.toNat % n ≠ 0 → out = traps 0x0F off)
     fails near z.bytes (exec (.ldp g z sx d a imm) s) ∧
     fails near z.bytes (exec (.stp g z d a imm) s) ∧
     fails sum z.bytes (exec (.ldpa g z sc d a b) s) ∧
     fails sum z.bytes (exec (.stpl g z sc d a b) s) ∧
     fails own w.bytes (exec (.apadd g w o d a b) s) ∧
     fails own w.bytes (exec (.apincw g w o d a b) s) ∧ fails own w.bytes (exec (.apaddb g w o d a b c) s) ∧
     fails own w.bytes (exec (.apcas g w o d a b c) s) ∧ fails own w.bytes (exec (.apxch g w o d a b) s) ∧
     fails own w.bytes (exec (.apmin g w o d a b) s) ∧ fails own w.bytes (exec (.apmax g w o d a b) s) ∧
     fails own (match f with | .f32 => 4 | .bf => 2) (exec (.apfadd g f o d a b) s))

/-- R243 to R246: an atomic whose checks pass goes under way with its operation, its operands cut to its width, and its order: a global one at
i[a], to be translated as an atomic; a pool one at j[a] in the window, with its least latency (R247). R243 and R245: what each integer atomic
stores for the old value m, its operands v and x and its width w, and whether it succeeds. -/
def Obligations.AtomicFormsAndValues : Prop :=
  (∀ (s : State) (u : Issue) (g : Guard) (w : AW) (f : FW) (o : Ord) (d a b c : R11), Acts s u g →
     let va := s.rd u .i a.toNat
     let off : Int := sextN 64 (s.rd u .j a.toNat)
     let pas := [s.winPa u off.toNat]
     let G (op : AtOp) (n data data2 dst : Nat) (q : Option Nat) : Host.Outcome State Fault Refusal :=
       .next (s.pushAtom u { blankAcc 1 (.atom op) false va n with
         data := data % 2 ^ (8 * n), data2 := data2 % 2 ^ (8 * n), dst := some (s.dst u .i dst), dst2 := q.map (s.dst u .q)
         acq := o.acquires, rel := o.releases })
     let P (op : AtOp) (n data data2 dst : Nat) (q : Option Nat) : Host.Outcome State Fault Refusal :=
       .next (s.pushAcc u { blankAcc 2 (.atom op) true (off64 off) n with
         data := data % 2 ^ (8 * n), data2 := data2 % 2 ^ (8 * n), dst := some (s.dst u .j dst), dst2 := q.map (s.dst u .q)
         acq := o.acquires, rel := o.releases, pas := some pas, due := (s.core u.core).now + poolLat u.core pas 10 16 })
     let bi := s.rd u .i b.toNat
     let ci := s.rd u .i c.toNat
     let bj := s.rd u .j b.toNat
     let cj := s.rd u .j c.toNat
     (Passes u (s.atomPre u va w.bytes) →
       exec (.agadd g w o d a b) s = G .add w.bytes bi 0 d.toNat none ∧
       exec (.agincw g w o d a b) s = G .incw w.bytes bi 0 d.toNat none ∧
       exec (.agaddb g w o d a b c) s = G .addb w.bytes bi ci (d.toNat % 64) (some (d.toNat / 256)) ∧
       exec (.agcas g w o d a b c) s = G .cas w.bytes bi ci d.toNat none ∧
       exec (.agxch g w o d a b) s = G .xch w.bytes bi 0 d.toNat none ∧
       exec (.agmin g w o d a b) s = G .smin w.bytes bi 0 d.toNat none ∧
       exec (.agmax g w o d a b) s = G .smax w.bytes bi 0 d.toNat none ∧
       exec (.agand g w o d a b) s = G .and w.bytes bi 0 d.toNat none ∧
       exec (.agor g w o d a b) s = G .or w.bytes bi 0 d.toNat none ∧
       exec (.agxor g w o d a b) s = G .xor w.bytes bi 0 d.toNat none) ∧
     (Passes u (s.atomPre u va (match f with | .f32 => 4 | .bf => 2)) →
       exec (.agfadd g f o d a b) s = match f with
         | .f32 => G .faddF32 4 bi 0 d.toNat none
         | .bf => G .faddBf 2 bi 0 d.toNat none) ∧
     (Passes u (s.poolPre u off w.bytes w.bytes) →
       exec (.apadd g w o d a b) s = P .add w.bytes bj 0 d.toNat none ∧
       exec (.apincw g w o d a b) s = P .incw w.bytes bj 0 d.toNat none ∧
       exec (.apaddb g w o d a b c) s = P .addb w.bytes bj cj (d.toNat % 64) (some (d.toNat / 256)) ∧
       exec (.apcas g w o d a b c) s = P .cas w.bytes bj cj d.toNat none ∧
       exec (.apxch g w o d a b) s = P .xch w.bytes bj 0 d.toNat none ∧
       exec (.apmin g w o d a b) s = P .smin w.bytes bj 0 d.toNat none ∧
       exec (.apmax g w o d a b) s = P .smax w.bytes bj 0 d.toNat none) ∧
     (Passes u (s.poolPre u off (match f with | .f32 => 4 | .bf => 2) (match f with | .f32 => 4 | .bf => 2)) →
       exec (.apfadd g f o d a b) s = match f with
         | .f32 => P .faddF32 4 bj 0 d.toNat none
         | .bf => P .faddBf 2 bj 0 d.toNat none)) ∧
  (∀ (w m v x : Nat), m < 2 ^ w → v < 2 ^ w → x < 2 ^ w → 0 < w →
     let B (n : Nat) : BitVec w := BitVec.ofNat w n
     atomNew .add w m v x = ((B m + B v).toNat, true) ∧
     atomNew .incw w m v x = (if v ≤ m then 0 else m + 1, true) ∧
     atomNew .addb w m v x = (if m + v < 2 ^ w ∧ m + v ≤ x then (m + v, true) else (m, false)) ∧
     atomNew .cas w m v x = (if m = v then x else m, true) ∧
     atomNew .xch w m v x = (v, true) ∧
     atomNew .smin w m v x = (if (B v).slt (B m) then v else m, true) ∧
     atomNew .smax w m v x = (if (B m).slt (B v) then v else m, true) ∧
     atomNew .and w m v x = ((B m &&& B v).toNat, true) ∧
     atomNew .or w m v x = ((B m ||| B v).toNat, true) ∧
     atomNew .xor w m v x = ((B m ^^^ B v).toNat, true))

/-! ## Registers of the E slot, control registers, semaphores, boards (R52, R190 to R202, R223, R251 to R263, R302, R303, R366 to
R368) -/

/-- R196, R197 and R223: the register and translation forms of the E slot. A CSRRD of FSTAT waits for the earlier floating-point results
(R69), and in a bundle that was held for a check a CSRRD gives what it read when the bundle issued (R239); TLBINV drops the core's own
translations at once, and it and ICFLUSH make the seat's next bundle wait; a count of 0 covers the whole space. -/
def Obligations.SystemForms : Prop :=
  ∀ (s : State) (u : Issue) (g : Guard) (d a b : R11) (imm : Imm), Acts s u g →
    let A := s.rd u .e a.toNat
    let B := s.rd u .e b.toNat
    let csr := imm.value.toNat
    let puts (lat v : Nat) : Host.Outcome State Fault Refusal := .next (s.result u 9 lat .e d.toNat v)
    let from_ := if B = 0 then 0 else A
    let range := if B = 0 then 2 ^ 56 else (B + 65535) / 65536 * 65536
    let base (p : Prop) : Prop := (u.checked = true ∨ (A < 2 ^ 56 ∧ A % 65536 = 0)) → p
    exec (.eli g d imm) s = puts 1 imm.value.toNat ∧
    exec (.eadd g d a b) s = puts 1 ((A + B) % 2 ^ 64) ∧
    exec (.emov g d a) s = puts 1 A ∧
    (csr ≠ 0x030 ∨ Passes u (s.fstatPre u) → exec (.csrrd g d imm) s = puts 2 (u.eval.getD (s.csr u.core u.seat csr))) ∧
    exec (.csrwr g a imm) s =
      .next ((s.modSeat u.core u.seat (fun t => t.csrWrite csr (BitVec.ofNat 64 A))).modCore u.core
        (fun k => k.csrWrite csr (BitVec.ofNat 64 A))) ∧
    base (exec (.tlbinv g a b) s = .next ((s.dropLocalTlb u.core (s.who u).1 from_ range).modSeat u.core u.seat (fun t =>
      { t with wait := some (.tlbinv from_ range s.pkg.tueWidx.toNat) }))) ∧
    base (exec (.icflush g a b) s = .next (s.modSeat u.core u.seat (fun t =>
      { t with wait := some (.icflush from_ range u.seq) })))

/-- R52, R92, R153, R359 and R388: what the control registers read as, those of the core's place, service level, time, gear, energy counts,
modes and traps. CORECNT and PKGXY are not stated here. -/
def Obligations.ControlRegistersRead : Prop :=
  ∀ (s : State) (c i : Nat),
    let k := s.core c
    let t := s.seat c i
    s.csr c i 0x000 = i + c % 8 * 2 ^ 8 + c / 8 % 16 * 2 ^ 12 ∧
    s.csr c i 0x002 = c / 128 ∧ s.csr c i 0x003 = c / 128 ∧
    s.csr c i 0x005 = s.svclvl + (if s.svcFail then 4 else 0) ∧
    s.csr c i 0x010 = s.tbase % 2 ^ 64 ∧
    s.csr c i 0x020 = k.gear + (s.die (c / 128)).gear * 2 ^ 8 + (if k.gearSeen < (s.die (c / 128)).gears.length then 2 ^ 16 else 0) ∧
    s.csr c i 0x021 = t.mode.emode.toNat ∧ s.csr c i 0x022 = k.ectrDecl.toNat ∧ s.csr c i 0x023 = k.ectrRes.toNat ∧
    s.csr c i 0x024 = k.ehold.toNat ∧ s.csr c i 0x030 = t.mode.fstat.toNat ∧ s.csr c i 0x031 = t.mode.fctl.toNat ∧
    s.csr c i 0x038 = t.mode.modectl.toNat ∧ s.csr c i 0x040 = k.deficit.toNat ∧ s.csr c i 0x041 = k.bconf.toNat ∧
    s.csr c i 0x050 = t.mode.srlost.toNat ∧ s.csr c i 0x060 = t.trap.cause.toNat ∧ s.csr c i 0x061 = t.trap.pc.toNat ∧
    s.csr c i 0x062 = t.trap.dly.toNat ∧ s.csr c i 0x063 = t.trap.info0.toNat ∧ s.csr c i 0x064 = t.trap.info1.toNat ∧
    s.csr c i 0x065 = t.trap.info2.toNat ∧ s.csr c i 0x066 = t.trap.info3.toNat ∧ s.csr c i 0x067 = t.trap.vec.toNat

/-- R7, R52, R68, R69, R90, R93, R177 and R383: what a CSRWR changes. A read-only register stays; a bit of an expert field changes only
under its expert enable; a bit of a W1C field is cleared where the value has 1, but a flag of FSTAT raised in the same cycle stays; the
counters are replaced. -/
def Obligations.ControlRegistersWritten : Prop :=
  ∀ (t : Seat) (k : Core) (v : Word) (x : Strand), t.strand = some x →
    let on (b : Nat) : Bool := x.expert.testBit b
    let m := t.mode
    let keeps (n : Nat) : Prop := t.csrWrite n v = t ∧ k.csrWrite n v = k
    (∀ n, n ∈ [0x000, 0x001, 0x002, 0x003, 0x004, 0x005, 0x010, 0x020, 0x060, 0x061, 0x062, 0x063, 0x064, 0x065, 0x066, 0x067] →
      keeps n) ∧
    (k.csrWrite 0x022 v = { k with ectrDecl := v } ∧ k.csrWrite 0x023 v = { k with ectrRes := v } ∧
      k.csrWrite 0x024 v = { k with ehold := v } ∧ k.csrWrite 0x040 v = { k with deficit := v } ∧
      k.csrWrite 0x041 v = { k with bconf := v }) ∧
    (∀ n, n ∈ [0x022, 0x023, 0x024, 0x040, 0x041] → t.csrWrite n v = t) ∧
    (∀ n, n ∈ [0x021, 0x030, 0x031, 0x038, 0x050] → k.csrWrite n v = k) ∧
    (∃ w, t.csrWrite 0x021 v = { t with mode := { m with emode := w } } ∧ ∀ j, j < 64 →
      w.getLsbD j = if j < 2 ∧ on 1 then v.getLsbD j else m.emode.getLsbD j) ∧
    (∃ w, t.csrWrite 0x031 v = { t with mode := { m with fctl := w } } ∧ ∀ j, j < 64 →
      w.getLsbD j = if (j = 5 ∧ on 9) ∨ (j < 5 ∧ on 10) then v.getLsbD j else m.fctl.getLsbD j) ∧
    (∃ w, t.csrWrite 0x038 v = { t with mode := { m with modectl := w } } ∧ ∀ j, j < 64 →
      w.getLsbD j = if (j = 0 ∧ on 0) ∨ (j = 1 ∧ on 2) ∨ (j = 2 ∧ on 3) ∨ (j = 3 ∧ on 4) ∨ (j = 4 ∧ on 7) then v.getLsbD j
        else m.modectl.getLsbD j) ∧
    (∃ w, t.csrWrite 0x030 v = { t with mode := { m with fstat := w } } ∧ ∀ j, j < 64 →
      w.getLsbD j = ((m.fstat.getLsbD j && !(decide (j < 5) && v.getLsbD j)) || t.nowFlags.testBit j)) ∧
    ∃ w, t.csrWrite 0x050 v = { t with mode := { m with srlost := w } } ∧ ∀ j, j < 3 →
      w.getLsbD j = (m.srlost.getLsbD j && !v.getLsbD j)

/-- R198 to R202, R302, R303 and R367: the waits, signals, fences and launches of the E slot. Each wait is left with the seat, whose next
bundle it holds back; a fence that finds nothing to wait for only releases; a timeline's words are read with latency 2, in a bundle that was
held for a check as they stood when it issued (R239); TLRD.ERRC reads and clears the error word in one step (R303), which in a bundle that was
held for a check is when the bundle goes on (the model's inference, log 106). R191, R192 and
R195: a signal adds to its semaphore and saturates at 65,535, where its seat takes SEMOVF in deferred form with the semaphore, increment,
bundle and old value; a wait holds until the value is at least its threshold and then subtracts it; no other semaphore changes. -/
def Obligations.SynchronisationFormsAndSemaphores : Prop :=
  (∀ (s : State) (u : Issue) (g : Guard) (ret : Bool) (sc : Scope) (fk : FenceKind) (d a b c : R11) (imm : Imm), Acts s u g →
     let ten := (s.who u).1
     let waits (w : PWait) : Host.Outcome State Fault Refusal := .next (s.modSeat u.core u.seat (fun t => { t with wait := some w }))
     let own := c.toNat < 1024
     let other := 128 * (u.core / 128) + 8 * (s.rd u .e (c.toNat % 32) / 2 ^ 12 % 16) + s.rd u .e (c.toNat % 32) / 2 ^ 8 % 8
     let line := tget (s.tenancy ten).tls {} ((if own then u.core else other) * 16 + b.toNat)
     let mine := tget (s.tenancy ten).tls {} (u.core * 16 + b.toNat)
     exec (.semsig g ret d a imm) s = .next (s.signal u
       ⟨a.toNat, imm.value.toNat, u.seq, 9, false, if ret then some (s.dst u .e d.toNat) else none, u.pc⟩) ∧
     exec (.semwait g a imm) s = waits (.sem a.toNat imm.value.toNat) ∧
     (Passes u (s.fencePre u sc fk) →
       exec (.fence g sc fk) s = .next (match fk with
         | .acq => s
         | .rel => s.releaseSeat u.core u.seat
         | .ar => s.releaseSeat u.core u.seat)) ∧
     exec (.phase g d) s = waits (.phase d.toNat ((s.seat u.core u.seat).phase + 1) false) ∧
     (Passes u (s.launchPre u (s.rd u .e a.toNat) b.toNat) →
       exec (.launch g d a b) s = .next (s.pushGlobal u { blankAcc 9 .launch false (s.rd u .e a.toNat) 64 with
         data := b.toNat, dst := some (s.dst u .e d.toNat), rel := true, sys := false } 0)) ∧
     exec (.cwait g a b c) s = waits (.tl b.toNat (BitVec.ofNat 64 (s.rd u .e a.toNat))
       (if own then none else some (other / 8 % 16, other % 8))) ∧
     exec (.tlrd g d b c) s = .next (s.resultVar u 9 2 .e d.toNat (u.eval.getD (line.value % 2 ^ 64))) ∧
     exec (.tlrdErr g d b c) s = .next (s.resultVar u 9 2 .e d.toNat (u.eval.getD line.err.toNat)) ∧
     exec (.tlrdErrc g d b c) s = .next ((s.modTenancy ten (fun x => { x with
       tls := tput x.tls (u.core * 16 + b.toNat) { mine with err := 0 } })).resultVar u 9 2 .e d.toNat mine.err.toNat) ∧
     (Passes u (s.barrPre u a.toNat) → exec (.barr g d a) s = waits (.barr d.toNat a.toNat 0 0 false))) ∧
  (∀ (s : State) (c i : Nat) (g : Sig) (k : Core) (n v : Nat), g.sem < 256 →
     let old := (s.core c).semVal g.sem
     let t := s.applySig c i g
     ((t.core c).semVal g.sem = min 65535 (old + g.inc)) ∧
     (∀ j, j ≠ g.sem → (t.core c).semVal j = (s.core c).semVal j) ∧
     (65535 < old + g.inc → (t.seat c i).deferred = (s.seat c i).deferred ++ [⟨0x0C, g.sem, g.inc, g.bundle.toNat, old, true, g.seq⟩]) ∧
     (old + g.inc ≤ 65535 → (t.seat c i).deferred = (s.seat c i).deferred) ∧
     (k.tryWait n v = none ↔ k.semVal n < v) ∧
     (∀ k', k.tryWait n v = some k' → k'.semVal n + v = k.semVal n ∧ ∀ j, j ≠ n → k'.semVal j = k.semVal j))

/-- R254, R255, R257 and R258: a board form writes what the board's reply gives, once it has come; BVIEW.WORD reads a word of a view mask with
latency 1, under its expert enable (R256). R253, R255, R256, R258 and R262: what a board does with a request of the tenancy it is bound to,
and with one it refuses. A first post joins the end of the post order, a re-post keeps its place; a stale post changes nothing; BADV of the
current level empties the board. -/
def Obligations.BoardFormsAndUnit : Prop :=
  (∀ (s : State) (u : Issue) (g : Guard) (d a b c : R11) (r : List Nat), Acts s u g →
     let at_ (k : Nat) := r.getD k 0
     (u.reply = some r →
       exec (.bpost g d a b c) s =
         .next ((s.resultVar u 9 0 .e (d.toNat % 32) (at_ 0)).resultVar u 9 0 .vm (d.toNat / 256) (at_ 1)) ∧
       exec (.bview g d a) s =
         .next ((s.resultVar u 9 0 .e (d.toNat % 32) (at_ 0)).resultVar u 9 0 .vm (d.toNat / 256) (at_ 1)) ∧
       exec (.bread g d a b c) s =
         .next ((s.resultVar u 9 0 .e d.toNat (at_ 0)).resultVar u 9 0 .e c.toNat (at_ 1)) ∧
       exec (.badv g d a b) s = .next (s.resultVar u 9 0 .e d.toNat (at_ 0))) ∧
     (u.checked = true ∨ (s.seat u.core u.seat).expert 6 = true →
       exec (.bviewWord g d a b) s = .next (s.result u 9 1 .e d.toNat
         (s.rd u .vm (a.toNat % 8) / 2 ^ (64 * (s.rd u .e b.toNat % 32)) % 2 ^ 64)))) ∧
  (∀ (b : Board) (ten kind : Nat) (explicit : Bool) (handle part value : Word),
     let k := part.toNat
     let reply (out : Board × BoardReply) (b' : Board) (reason : Nat) (vals : List Nat) (p : Nat) : Prop :=
       out.1 = b' ∧ out.2.reason = reason ∧ out.2.vals = vals ∧ out.2.parts = p
     (b.en = false → reply (b.apply ten explicit kind handle part value) b 2 [] 0) ∧
     (b.en = true → b.ten ≠ ten → reply (b.apply ten explicit kind handle part value) b 3 [] b.parts) ∧
     (b.en = true → b.ten = ten →
       (kind = 0 ∨ kind = 2 → b.parts ≤ k → reply (b.apply ten explicit kind handle part value) b 1 [] b.parts) ∧
       (k < b.parts →
         (explicit = true → handle.setWidth 32 ≠ b.level →
           reply (b.apply ten explicit 0 handle part value) b 0 [2 ^ 64 - 1, 0] b.parts) ∧
         (explicit = false ∨ handle.setWidth 32 = b.level →
           (tfind b.slots k = none → reply (b.apply ten explicit 0 handle part value)
             { b with slots := tput b.slots k value, order := b.order ++ [k] } 0
             [b.order.length + 1, Board.view { b with slots := tput b.slots k value }] b.parts) ∧
           (tfind b.slots k ≠ none → reply (b.apply ten explicit 0 handle part value)
             { b with slots := tput b.slots k value } 0 [b.order.length, Board.view { b with slots := tput b.slots k value }] b.parts)) ∧
         reply (b.apply ten explicit 2 handle part value) b 0
           [((tfind b.slots k).getD 0).toNat, b.level.toNat + (if (tfind b.slots k).isSome then 2 ^ 32 else 0)] b.parts) ∧
       reply (b.apply ten explicit 1 handle part value) b 0 [b.level.toNat * 2 ^ 32 + b.order.length, b.view] b.parts ∧
       (value.setWidth 32 = b.level → reply (b.apply ten explicit 3 handle part value)
         { b with level := b.level + 1, slots := [], order := [] } 0 [b.level.toNat] b.parts) ∧
       (value.setWidth 32 ≠ b.level → reply (b.apply ten explicit 3 handle part value) b 0 [b.level.toNat] b.parts)))

/-! ## The matrix array, streams and rings, the sparsity unit, copies and the index engine (R264 to R294, R304 to R323) -/

/-- R274, R277, R279 and R280: writing a stream's word keeps the word's defined bits, and word 0 restarts the stream and abandons a tile that it
feeds; writing a tap restarts its step; RINGSET configures, advances or reads a ring, in a bundle that was held as the ring stood when it issued
(R239). -/
def Obligations.StreamAndRingForms : Prop :=
  ∀ (s : State) (u : Issue) (g : Guard) (d a b c : R11), Acts s u g →
    let m := (s.core u.core).mx
    let st := m.stream b.toNat
    let r := m.ring b.toNat
    let v : Word := BitVec.ofNat 64 (s.rd u .e a.toNat)
    let n := s.rd u .e a.toNat % 2 ^ 9
    let puts (m' : Matrix) : Host.Outcome State Fault Refusal := .next (s.modCore u.core (fun k => { k with mx := m' }))
    (c.toNat ≠ 0 → exec (.strset g a b c) s = puts (m.setStream b.toNat { st with
      w := tset st.w 0 c.toNat (v &&& (if c.toNat = 5 then 0xFFFF else 0xFFFFFFFF0000FFFF)) })) ∧
    (c.toNat = 0 → exec (.strset g a b c) s = puts { m.setStream b.toNat { st with
      w := tset st.w 0 0 (v &&& 0xFE0000000FFFFFFF), i := [], k := [], sc := 0 } with
      tile := match m.tile with
        | none => none
        | some t => if t.stream = b.toNat then none else some t }) ∧
    exec (.strtap g a b c) s = puts (m.setStream b.toNat { st with tap := tset st.tap 0 c.toNat v, k := tset st.k 0 c.toNat 0 }) ∧
    (Passes u (s.ringPre u b.toNat v) → exec (.ringsetGeom g a b) s = puts { m.setRing b.toNat
        { geom := v &&& 0xFFFFFFFFFFFF, head := 0, tail := 0, fill := 0, free := (v &&& 0xFFFFFFFFFFFF).toNat / 2 ^ 40 % 2 ^ 8 + 1, resv := [] } with
      tile := match m.tile with
        | none => none
        | some t => if (m.stream t.stream).bound = some b.toNat then none else some t }) ∧
    (Passes u (s.ringAdvPre u b.toNat n) → exec (.ringsetAdvance g a b) s = puts (m.setRing b.toNat
      { r with tail := (r.tail + n) % (r.geom.toNat / 2 ^ 40 % 2 ^ 8 + 1), fill := r.fill + n, free := r.free - n })) ∧
    exec (.ringsetRd g d b) s =
      .next (s.result u 9 2 .e d.toNat (u.eval.getD (r.head + r.tail * 2 ^ 8 + r.fill * 2 ^ 16 + r.free * 2 ^ 32)))

/-- R269, R270, R272 and R273: the array's configuration and the rows that enter and leave its banks, each an operation of latency 2 on the
bank as its latest operation leaves it (R267), under way until it has settled (R194); a pop sees what its own bundle's earlier accesses do to
the bytes it reads (R276). MDRAIN reads into fl under either guard. -/
def Obligations.MatrixRowForms : Prop :=
  ∀ (s : State) (u : Issue) (g : Guard) (d a b c : R11), s.iss = some u →
    let m := (s.core u.core).mx
    let bank := d.toNat % 2
    let sh := d.toNat.testBit 1
    let z := d.toNat.testBit 2
    let old := m.latest bank
    let puts (m' : Matrix) : Host.Outcome State Fault Refusal := .next (s.modCore u.core (fun k => { k with mx := m' }))
    let op (rows : Tab Vec) : Host.Outcome State Fault Refusal := .next (s.bankOp u m 2 bank rows 0 false)
    let turned (rows : Tab Vec) := if sh then rotateBank rows else rows
    (s.guard u g = true →
      (Passes u (s.mcfgPre u) → exec (.mcfg g b c) s = puts { m with
        fa := b.toNat % 16, fb := b.toNat / 16 % 16, bank := c.toNat % 2, scl := c.toNat.testBit 1, h := [], tile := none }) ∧
      exec (.mzero g d) s = .next ((s.bankOp u m 2 bank [] 0 false).modCore u.core (fun k => { k with
        mx := if k.mx.bank = bank then { k.mx with h := [] } else k.mx })) ∧
      exec (.mshift g d) s = op (rotateBank old) ∧
      (Passes u (s.mpushPre u a c) →
        (c.toNat = 0 → exec (.mpush g d a b c) s = op (turned (tset old 0 b.toNat (BitVec.ofNat 2048 (s.rd u .v a.toNat))))) ∧
        (c.toNat = 1 → exec (.mpush g d a b c) s = op (turned (tset old 0 b.toNat (BitVec.ofNat 2048 (s.rd u .w a.toNat))))) ∧
        (c.toNat = 2 → let fmt := (m.stream a.toNat).fmt
          let (v, m') := s.pop u m a.toNat (arrayBytes fmt 64)
          let first := s.actFirst u (s.scanPops u [(a.toNat, arrayBytes fmt 64)]).2.1
          exec (.mpush g d a b c) s = .next (first.bankOp u m' 2 bank (turned (tset (m'.latest bank) 0 b.toNat (pushRow fmt v))) 0 false)))) ∧
    (Passes u (s.drainPre u d) →
      let m' := { m with fl := tget (m.bankRows bank) 0 a.toNat }
      (s.guard u g = true → z = true ∨ sh = true →
        exec (.mdrain g d a) s = .next ((s.modCore u.core (fun k => { k with mx := m' })).bankOp u m' 2 bank
          (turned (if z then tset old 0 a.toNat 0 else old)) 0 false)) ∧
      (s.guard u g = false ∨ (z = false ∧ sh = false) → exec (.mdrain g d a) s = puts m'))

/-- R271 and R286: a beat of the array pops its operands under either guard, A's first, and then accumulates when its guard holds: a dense one
with its elements of A and rows of B, a sparse one as its tile's header and masks say (R288, R290); what the bundle's own earlier accesses do
to the bytes it pops comes first (R276). R73, R74, R267, R271 and R281: what a beat does to the array: each value of the accumulating bank
gains the fused sum of its products; under SCL the shadow bank gains it, and the end of a K-block folds it in with two scales and clears it; a
false guard leaves the values. -/
def Obligations.MatrixBeats : Prop :=
  (∀ (s : State) (u : Issue) (g : Guard) (a b : R11), s.iss = some u →
     let m := (s.core u.core).mx
     let k := kbOf m.fa
     let A := s.pop u m a.toNat (operandBytes m.fa)
     let B := s.pop u A.2 b.toNat (operandBytes m.fb)
     let ends := m.scl && (m.stream a.toNat).advance.1.sc == 0
     let terms (i : Nat) : List (FVal × List FVal) := (List.range k).map (fun e =>
       (arrayElem m.fa A.1 (k * i + e), (List.range 64).map (fun j => arrayElem m.fb B.1 (64 * e + j))))
     let first := s.actFirst u (s.scanPops u [(a.toNat, operandBytes m.fa), (b.toNat, operandBytes m.fb)]).2.1
     (Passes u (s.maccPre u a.toNat b.toNat) →
       exec (.macc g a b) s = .next (first.beat u B.2 8 (s.guard u g) ends terms) ∧
       exec (.maccZg g a b) s = .next (first.beat u B.2 8 (s.guard u g) ends terms)) ∧
     (Passes u (s.maccsPre u a.toNat b.toNat) →
       exec (.maccs g a b) s = .next ((s.actFirst u (s.beatReads u a.toNat b.toNat)).sparseBeat u a.toNat b.toNat (s.guard u g)))) ∧
  (∀ (s : State) (u : Issue) (m : Matrix) (lat : Nat) (acts ends : Bool) (terms : Nat → List (FVal × List FVal)),
     let t := s.beat u m lat acts ends terms
     let m' := (t.core u.core).mx
     let now := (s.core u.core).now
     let zero : FVal := .fin false 0 0
     let sum (old : Tab Vec) (i j : Nat) : Nat := (maccSum (unpack fp32 false (elem (tget old 0 i) 32 j))
       ((terms i).map (fun q => mulVal q.1 (q.2.getD j zero)))).bits
     let sa := sc16 (m.scales.getD 0 0)
     let sb := sc16 (m.scales.getD 1 0)
     t.mem = s.mem ∧
     m'.streams = m.streams ∧ m'.rings = m.rings ∧ m'.a0 = m.a0 ∧ m'.a1 = m.a1 ∧ m'.fa = m.fa ∧ m'.fb = m.fb ∧
     m'.scales = (if ends then m.scales.drop 2 else m.scales) ∧
     ∃ rows, m'.ops = m.ops ++ [⟨max (now + lat) (m.lastDone m.bank), m.bank, rows⟩] ∧
       (acts = false → rows = m.latest m.bank ∧ m'.h = m.h) ∧
       (acts = true → ∀ i j, i < 64 → j < 64 →
         (m.scl = false → m'.h = m.h ∧ elem (tget rows 0 i) 32 j = sum (m.latest m.bank) i j % 2 ^ 32) ∧
         (m.scl = true → ends = false → rows = m.latest m.bank ∧ elem (tget m'.h 0 i) 32 j = sum m.h i j % 2 ^ 32) ∧
         (m.scl = true → ends = true → m'.h = [] ∧ elem (tget rows 0 i) 32 j =
           (scaleUpdate (elem (tget (m.latest m.bank) 0 i) 32 j) (sum m.h i j % 2 ^ 32) sa sb).bits % 2 ^ 32)))

/-- R291, R292 and R294: a form of the sparsity unit whose operands pass becomes the newest command of its core's unit, with the next number
of timeline 9; SHDR and SHDR.W read and write a header as plain accesses. R291, R295 and R299: what issuing a command of the unit changes: it
stands last in the unit's list, numbered one above the last that timeline 9 issued; the timeline's value, its error word, memory and every
register stay. -/
def Obligations.SparsityFormsAndCommands : Prop :=
  (∀ (s : State) (u : Issue) (g : Guard) (d a b c : R11), Acts s u g →
     let E (n : R11) : Word := BitVec.ofNat 64 (s.rd u .e n.toNat)
     let sends (op : UnitOp) (x y z : Word) (dst : Option Reg) : Host.Outcome State Fault Refusal :=
       .next (s.issueUnit u op x y z dst)
     let t := s.rd u .e a.toNat
     let pas := [s.winPa u t]
     let now := (s.core u.core).now
     (Passes u (s.sprunePre u a b c) → exec (.sprune g a b c) s = sends .sprune (E a) (E b) (E c) none) ∧
     (Passes u (s.sprunetPre u a b c) → exec (.sprunet g a b c) s = sends .sprunet (E a) (E b) (E c) none) ∧
     (Passes u (s.sregrowPre u a b c) → exec (.sregrow g a b c) s = sends .sregrow (E a) (E b) (E c) none) ∧
     (Passes u (s.sexpandPre u a b) → exec (.sexpand g a b) s = sends .sexpand (E a) (E b) 0 none) ∧
     exec (.scheck g d a) s = sends .scheck (E a) 0 0 (some (s.dst u .q d.toNat)) ∧
     (Passes u (s.shdrPre u a) →
       exec (.shdrCk g a) s = sends .shdrCk (E a) 0 0 none ∧
       exec (.shdr g d a) s = .next (s.pushAcc u { blankAcc 8 (.load false) true t 8 with
         dst := some (s.dst u .e d.toNat), pas := some pas, due := now + poolLat u.core pas 8 14 }) ∧
       exec (.shdrW g a c) s = .next (s.pushAcc u { blankAcc 8 .store true t 8 with
         data := s.rd u .e c.toNat, pas := some pas, due := now + 1 }))) ∧
  (∀ (s : State) (u : Issue) (op : UnitOp) (x y z : Word) (dst : Option Reg) (w : Strand), (s.seat u.core u.seat).strand = some w →
     let t := s.issueUnit u op x y z dst
     let line (s : State) (n : Nat) : TLine := tget (s.tenancy w.ten).tls {} (u.core * 16 + n)
     (t.core u.core).unit = (s.core u.core).unit ++
       [⟨(line s 9).issued + 1, op, x, y, z, w.ten, w.lid, w.idx, u.seat, (s.core u.core).nextId, dst, u.seq, false⟩] ∧
     line t 9 = { line s 9 with issued := (line s 9).issued + 1 } ∧
     (∀ n, n < 9 → line t n = line s n) ∧
     t.mem = s.mem ∧ (∀ c i, t.seat c i = s.seat c i) ∧ (∀ c, c ≠ u.core → t.core c = s.core c))

/-- R304, R311 and R312: COPY takes its packet from seven e registers under header word 2 · 2^48, COPYP from the window, where its bundle's own
earlier accesses come first; once a channel and, for a ring, a tile are free, the command is issued on the channel b names. -/
def Obligations.CopyForms : Prop :=
  ∀ (s : State) (u : Issue) (g : Guard) (d a b : R11), Acts s u g →
    let regs : List Word := [BitVec.ofNat 64 (2 * 2 ^ 48)] ++ (List.range 7).map (fun k => BitVec.ofNat 64 (s.rd u .e (a.toNat + k)))
    let off := s.rd u .e a.toNat
    let n := if s.winBytes u off 8 / 2 ^ 48 % 2 ^ 8 = 3 then 16 else 8
    let words : List Word := (List.range n).map (fun k => BitVec.ofNat 64 (s.winBytes u (off + 8 * k) 8))
    (Passes u (s.copyPre u b.toNat (s.copyCmd u regs)) →
      exec (.copy g d a b) s = .next (s.issueCopy u b.toNat d (s.copyCmd u regs))) ∧
    (Passes u (s.copypPre u a b.toNat) →
      exec (.copyp g d a b) s = .next ((s.actFirst u [(sextN 64 off, 128)]).issueCopy u b.toNat d (s.copyCmd u words)))

/-- R314 to R323: the forms of the X slot. The lane forms act lane by lane with latency 2; a gather or scatter becomes a command of the index
engine; a .NB form tells in its predicate whether its queue had room (R177, R314); probes and walks go under way as pool accesses. -/
def Obligations.IndexForms : Prop :=
  ∀ (s : State) (u : Issue) (g : Guard) (gr : Gran) (csr : Bool) (x : XB) (d a b c : R11) (imm : Imm), Acts s u g →
    let A (l : Nat) : BitVec 32 := lane32 s u a l
    let B (l : Nat) : BitVec 32 := match x with
      | .reg n => lane32 s u n l
      | .lit k => BitVec.ofNat 32 k.toNat
    let puts (f : Nat → BitVec 32) (o : Host.Outcome State Fault Refusal) : Prop := ∃ v, v < 2 ^ 2048 ∧
      o = .next (s.result u 7 2 .xv d.toNat v) ∧ ∀ l, l < 64 → v / 2 ^ (32 * l) % 2 ^ 32 = (f l).toNat
    let data := s.rd u .xv b.toNat
    let keys := s.rd u .xv a.toNat
    let base : Int := sextN 64 (((lane32 s u a 0).toNat + imm.value.toNat) % 2 ^ 64)
    let lanes := (List.range 64).map (fun (l : Nat) => s.winPa u (base + (l : Int) * 4).toNat)
    let table := (lane32 s u c 0).toNat
    let slots := [s.winPa u table]
    let sends (acc : Acc) (pas : List Nat) (lat : Nat) : Host.Outcome State Fault Refusal :=
      .next (s.pushAcc u { acc with pas := some pas, due := (s.core u.core).now + lat })
    let probe (k : AccKind) (vals : Nat) : Host.Outcome State Fault Refusal :=
      sends { blankAcc 7 k true table (8 * 2 ^ (lane32 s u c 2).toNat) with data := keys, data2 := vals, dst := some (s.dst u .xv d.toNat) }
        slots (poolLat u.core slots 12 20)
    let nb (op v : Nat) (o : Host.Outcome State Fault Refusal) : Prop := Passes u (s.pushNbPre u op gr a c) →
      (s.idxFull u = true → o = .next (s.result u 7 1 .q (d.toNat % 8) 0)) ∧
      (s.idxFull u = false → o = .next ((s.issueIdx u op gr a c v).result u 7 1 .q (d.toNat % 8) 1))
    puts (fun l => A l + B l) (exec (.xadd g d a x) s) ∧
    puts (fun l => A l * B l) (exec (.xmul g d a x) s) ∧
    puts (fun l => A l &&& B l) (exec (.xand g d a x) s) ∧
    puts (fun l => A l <<< ((B l).toNat % 32)) (exec (.xshl g d a x) s) ∧
    puts (fun l => A l >>> ((B l).toNat % 32)) (exec (.xshr g d a x) s) ∧
    (Passes u (s.lanePre u base 4) → exec (.xldp g d a imm) s =
      sends { blankAcc 7 .xldp true (off64 base) 4 with dst := some (s.dst u .xv d.toNat) } lanes (poolLat u.core lanes 12 20)) ∧
    (Passes u (s.pushPre u 0 gr a c) → exec (.xpush g gr a c) s = .next (s.issueIdx u 0 gr a c 0)) ∧
    (Passes u (s.pushPre u 1 gr a c) → exec (.xscat g gr a b c) s = .next (s.issueIdx u 1 gr a c data)) ∧
    (Passes u (s.pushPre u 2 gr a c) → exec (.xscata g gr a b c) s = .next (s.issueIdx u 2 gr a c data)) ∧
    nb 0 0 (exec (.xpushNb g gr d a c) s) ∧ nb 1 data (exec (.xscatNb g gr d a b c) s) ∧ nb 2 data (exec (.xscataNb g gr d a b c) s) ∧
    (Passes u (s.hashPre u c) → exec (.xhash g d a c) s = probe .xhash 0 ∧ exec (.xins g d a b c) s = probe .xins data) ∧
    (Passes u (s.walkPre u csr c) → exec (.xwalk g csr d a c) s =
      sends { blankAcc 7 (.xwalk csr) true 0 (s.winSize u) with
        data := s.rd u .xv c.toNat, data2 := keys, dst := some (s.dst u .xv d.toNat), dst2 := some (s.dst u .xv a.toNat) } [s.winPa u 0] 1)

/-! ## Rules stated whole: zeros and NaN operands, bit fields, FCLASS, the bank's rows, the checksum (R65, R103, R122, R270, R284) -/

/-- R65, whole: the sign of an exact zero sum and of a product of zeros, the order and the choice of the minimum and maximum forms, and
compares of zeros and of NaNs. Under RD a sum whose terms are all −0 is −0 as well. The last clause says that a compare of the F, V or W slot
puts no result under way that carries a flag. -/
def Obligations.ZerosAndNans : Prop :=
  (∀ (rm : RM) (ts : List FVal) (lo : Int), ts ≠ [] → (∀ t ∈ ts, ∃ n m e, t = .fin n m e ∧ lo ≤ e) → sumAt lo ts = 0 →
    let neg := (∀ t ∈ ts, ∃ e, t = .fin true 0 e) ∨ rm = .rd
    (neg → sumVal rm ts = ⟨.fin true 0 0, 0⟩) ∧ (¬neg → sumVal rm ts = ⟨.fin false 0 0, 0⟩)) ∧
  (∀ (a b : Bool) (e k : Int), mulVal (.fin a 0 e) (.fin b 0 k) = ⟨.fin (a != b) 0 (e + k), 0⟩) ∧
  (∀ (e k : Int), minMaxVal false (.fin false 0 e) (.fin true 0 k) = .fin true 0 k ∧
    minMaxVal false (.fin true 0 k) (.fin false 0 e) = .fin true 0 k ∧
    minMaxVal true (.fin false 0 e) (.fin true 0 k) = .fin false 0 e ∧ minMaxVal true (.fin true 0 k) (.fin false 0 e) = .fin false 0 e) ∧
  (∀ (mx : Bool) (x : FVal), minMaxVal mx .nan x = x ∧ minMaxVal mx x .nan = x) ∧
  (∀ (t : FT) (z mx : Bool) (a b : Nat), unpack (ftFmt t) z a = .nan → unpack (ftFmt t) z b = .nan →
    fMinMax (ftFmt t) z mx a b = ⟨(ftFmt t).nan, 0⟩) ∧
  (∀ (a b : Bool) (e k : Int), cmpVal 0 (.fin a 0 e) (.fin b 0 k) = true ∧ cmpVal 1 (.fin a 0 e) (.fin b 0 k) = false ∧
    cmpVal 2 (.fin a 0 e) (.fin b 0 k) = false ∧ cmpVal 3 (.fin a 0 e) (.fin b 0 k) = true) ∧
  (∀ (x y : FVal), x = .nan ∨ y = .nan → cmpVal 0 x y = false ∧ cmpVal 1 x y = true ∧ cmpVal 2 x y = false ∧ cmpVal 3 x y = false ∧
    cmpVal 4 x y = true ∧ cmpVal 5 x y = false) ∧
  ∀ (s r : State) (u : Issue) (g : Guard) (x : VW) (t : FT) (d a b cc : R11) (v w : VSrc), s.iss = some u →
    (exec (.fcmp g t d a b cc) s = .next r ∨ exec (.vcmp g x t d v w cc) s = .next r ∨ exec (.vcmpAny g x t d v w cc) s = .next r ∨
      exec (.vcmpAll g x t d v w cc) s = .next r) →
    (r.seat u.core u.seat).deferred = (s.seat u.core u.seat).deferred ∧
    ∀ y ∈ (r.seat u.core u.seat).flights, y ∈ (s.seat u.core u.seat).flights ∨ y.fl = 0

/-- R122, whole: FCLASS writes 1 into its predicate when the mask has the bit of the class of the stored bits, whatever FCTL.FTZ says, and 0
otherwise; a word with bit 10 or 9 of field b set does not decode; data converted from E4M3 to FP16 is never of class 7. -/
def Obligations.FclassTellsTheClass : Prop :=
  (∀ (s : State) (u : Issue) (g : Guard) (t : FT) (d a mask : R11), Acts s u g →
    let f := ftFmt t
    let x := s.rd u .fr a.toNat % 2 ^ f.width
    let neg := x.testBit (f.ew + f.fw)
    let e := x / 2 ^ f.fw % 2 ^ f.ew
    let m := x % 2 ^ f.fw
    let cls :=
      if e = 2 ^ f.ew - 1 then (if m ≠ 0 then 8 else if neg then 0 else 7)
      else if e = 0 then (if m = 0 then (if neg then 3 else 4) else if neg then 2 else 5)
      else if neg then 1 else 6
    exec (.fclass g t d a mask) s = .next (s.fly u 3 4 (some (s.dst u .q (d.toNat % 8))) (if mask.toNat.testBit cls then 1 else 0) 0 true true)) ∧
  (∀ (ctx : DecCtx) (w : Word) (ext : Option (BitVec 63)) (t : FT) (x : Syl), w.toNat / 2 ^ 56 % 2 ^ 7 = 0x30 + t.code →
    w.toNat / 2 ^ 28 % 2 ^ 2 ≠ 0 → decodeSyl ctx .f w ext ≠ .ok x) ∧
  ∀ (z sat : Bool) (rm : RM) (x : Nat), x < 256 → classOf fp16 (convElem z sat rm 3 1 x).bits ≠ 7

/-- R270, whole: MZERO makes every value of the named bank +0, and the shadow bank h as well when that bank is the configured one; MSHIFT's
rotation makes new row i the old row (i + 1) mod 64; and 64 rotations leave every row where it was. No other bank changes. -/
def Obligations.ZeroAndRotateRows : Prop :=
  (∀ (s : State) (u : Issue) (g : Guard) (d : R11), Acts s u g →
    let m := (s.core u.core).mx
    let bank := d.toNat % 2
    (∃ t, exec (.mzero g d) s = .next t ∧
      let m' := (t.core u.core).mx
      (∀ i, tget (m'.latest bank) 0 i = 0) ∧ (∀ b, b ≠ bank → m'.latest b = m.latest b) ∧
      (m.bank = bank → ∀ i, tget m'.h 0 i = 0) ∧ (m.bank ≠ bank → m'.h = m.h)) ∧
    ∃ t, exec (.mshift g d) s = .next t ∧
      let m' := (t.core u.core).mx
      (∀ i, i < 64 → tget (m'.latest bank) 0 i = tget (m.latest bank) 0 ((i + 1) % 64)) ∧
      (∀ b, b ≠ bank → m'.latest b = m.latest b) ∧ m'.h = m.h) ∧
  ∀ (rows : Tab Vec) (i : Nat), i < 64 → tget ((List.range 64).foldl (fun x _ => rotateBank x) rows) 0 i = tget rows 0 i

/-- R284, whole: the checksum of a tile at T in memory, with its header h (R283): the exclusive or of every mask byte, each rotated left by the index
of the group that holds its bit 0. -/
def Obligations.ChecksumOfMasks : Prop :=
  ∀ (mem : Tab Byte) (T h : Nat),
    let off := h % 2 ^ 24
    let kt := 4 * (h / 2 ^ 42 % 2 ^ 10)
    let m := 4 * 2 ^ (h / 2 ^ 56 % 4)
    let ms := 8 * ((kt + 63) / 64)
    let rotl8 (x k : Nat) : Nat := (x <<< k ||| x >>> (8 - k)) % 2 ^ 8
    cksOf kt m (tileMasks (fun o n => leRead mem (T + o) n) h) =
      (List.range 64).foldl (fun cks i => (List.range ((kt + 7) / 8)).foldl (fun cks j =>
        cks ^^^ rotl8 (Memory.byte mem (T + off + i * ms + j)).toNat (8 * j / m % 8)) cks) 0

/-- R103, whole: BFX extracts len bits of X[a] from bit pos on, bits above bit 63 reading as 0, and BFI replaces the bits of X[d] under the mask;
pos and len are literals, of which others than 0 to 63 and 1 to 64 raise ILLBUNDLE with subcode RSV at decode; BFI's X[d] is among the
registers its syllable reads; and the rule's own word is its example. -/
def Obligations.BitFieldForms : Prop :=
  (∀ (s : State) (u : Issue) (g : Guard) (x : IJ) (d a pos len : R11), Acts s u g → pos.toNat ≤ 63 → 1 ≤ len.toNat → len.toNat ≤ 64 →
    let A := intReg s u x a
    let D := intReg s u x d
    let mask : Word := BitVec.ofNat 64 ((2 ^ len.toNat - 1) * 2 ^ pos.toNat)
    exec (.bfx g x d a pos len) s = .next (intResult s u x d (BitVec.ofNat 64 (A.toNat / 2 ^ pos.toNat % 2 ^ len.toNat))) ∧
    exec (.bfi g x d a pos len) s = .next (intResult s u x d ((D &&& ~~~mask) ||| ((A <<< pos.toNat) &&& mask)))) ∧
  (∀ (ctx : DecCtx) (slot : Slot) (w : Word) (ext : Option (BitVec 63)), ctx.lvl1 = false → slot = .i ∨ slot = .j →
    w.toNat / 2 ^ 56 % 2 ^ 7 = 0x14 ∨ w.toNat / 2 ^ 56 % 2 ^ 7 = 0x15 →
    let pos := w.toNat / 2 ^ 19 % 2 ^ 11
    let len := w.toNat / 2 ^ 8 % 2 ^ 11
    63 < pos ∨ len = 0 ∨ 64 < len → ∃ fld, decodeSyl ctx slot w ext = .error (illBundle 2 slot.pos fld)) ∧
  (∀ (ctx : DecCtx) (w : Word) (ext : Option (BitVec 63)) (x : Syl) (g : Guard) (d a pos len : R11), decodeSyl ctx .i w ext = .ok x →
    x.instr = .bfi g .i d a pos len → .reg .i d.toNat ∈ x.reads) ∧
  ∀ (ctx : DecCtx), ctx.lvl1 = false → ∃ x, decodeSyl ctx .i 0x1400080140400C00 none = .ok x ∧ x.instr = .bfx ⟨false, 0⟩ .i 4 5 8 12

/-! ## Events: accesses, translation, engines -/

/-- R106, R110, R111, R142, R226, R243 and R247: an access whose time has come, whose earlier accesses do not hold it back (R145, R227) and whose
homes serve it, performs, where no loss of its home has been declared to it. A load returns its bytes, extended as its form says; a store changes
its own bytes and no other; an atomic stores its new value in one step and keeps the old one and the success flag for its reply, where the host,
which may complete it as unsupported instead, gives it a deferred XLATE with reason 9 (R244: which requests the host so refuses is the model's
choice, log 111); a vector's lanes perform some at a time, and what has returned is kept with it (log 109: which lanes go together is the model's
choice); SQLD's scales join the queue's tail. -/
def Obligations.AccessesPerform : Prop :=
  ∀ (s : State) (c i id : Nat) (a : Machine.Acc),
    (s.die (c / 128)).halted = none → (s.seat c i).findAcc id = some a → (s.seat c i).mayPerform (s.core c).now a = true →
    s.homeAll (s.ownerOf c i).1 a.key a.parts = .ok → a.lost = none → a.accepted = none →
    let n := a.n
    let rest (t : State) : Prop := ∀ x, (∀ pa ∈ a.parts, x < pa ∨ pa + n ≤ x) → Memory.byte t.mem x = Memory.byte s.mem x
    (∀ pa, a.pas = some [pa] → 0 < n → n ≤ 8 →
      (a.kind = .load false → a.data = 0 → a.data2 = 0 → exec (.loadDataReturn c i id) s =
        .next ((s.fillLine pa).returnData c i a (s.load pa n))) ∧
      (a.kind = .load true → a.data = 0 → a.data2 = 0 → exec (.loadDataReturn c i id) s =
        .next ((s.fillLine pa).returnData c i a ((BitVec.ofNat (8 * n) (s.load pa n)).signExtend 64).toNat)) ∧
      (a.kind = .store → a.data2 = 0 → ∃ t, exec (.storeApply c i id) s = .next t ∧ rest t ∧
        ∀ k, k < n → Memory.byte t.mem (pa + k) = BitVec.ofNat 8 (a.data / 2 ^ (8 * k))) ∧
      (∀ op, a.kind = .atom op → a.due ≠ never → placeOf pa = .host → Config.freeValue s.free % 2 = 1 →
        exec (.atomicApply c i id) s = .next ((s.takeFree.2.deferTrap c i (xlateDeferred a 9)).endAcc c i { a with rel := false })) ∧
      (∀ op, a.kind = .atom op → a.due ≠ never → (placeOf pa = .host → Config.freeValue s.free % 2 = 0) →
        let new := atomNew op (8 * n) (s.load pa n) a.data a.data2
        ∃ t, exec (.atomicApply c i id) s = .next t ∧ rest t ∧
          (∀ k, k < n → Memory.byte t.mem (pa + k) = BitVec.ofNat 8 (new.1 / 2 ^ (8 * k))) ∧
          (t.seat c i).findAcc id = some { a with result := some (s.load pa n + (if new.2 then 2 ^ 64 else 0)) })) ∧
    (∀ lanes u, 1 < a.parts.length → s.nextLanes a = (lanes, u) →
      (a.lanesLeft ≠ 0 → lanes ≠ 0) ∧ lanes &&& a.lanesLeft = lanes ∧
      (a.kind = .vload ∨ a.kind = .xldp →
        let v := a.data ||| packList (8 * n) (a.parts.zipIdx.map (fun p => if lanes.testBit p.2 then s.load p.1 n else 0))
        let t := u.fillParts (laneParts lanes a.parts)
        exec (.loadDataReturn c i id) s = .next (if a.lanesLeft = lanes then t.returnData c i a v else t.keepLanes c i a v lanes)) ∧
      (a.kind = .vstore → ∃ t, exec (.storeApply c i id) s = .next t ∧ rest t ∧
        (a.lanesLeft ≠ lanes → (t.seat c i).findAcc id = some { a with data2 := a.data2 ||| lanes }))) ∧
    (∀ pa, a.pas = some [pa] → a.kind = .sqld → ∃ t, exec (.scaleArrive c i id) s = .next t ∧ rest t ∧
      (t.core c).mx.scales = (s.core c).mx.scales ++
        (List.range (n / 2)).map (fun j => s.load pa n / 2 ^ (16 * j) % 2 ^ 16))

/-- R226, R243, R250, R314, R318, R322, R323, R382 and R202: the other returns: an applied atomic replies with its old value and success flag; a
request two microseconds without a reply is sent again, and a home that holds its entry answers without applying it; a store or an atomic to the
host or a peer that the port cannot send is accepted by it; an access whose home was lost while it was outstanding stays lost: a load and an
atomic return the tephra value, a store is dropped and counted (the atomic's success flag is free, log 9); probes act some steps at a time (how
many is the model's choice, log 109), and walks and launches perform. -/
def Obligations.RepliesAndProbes : Prop :=
  ∀ (s : State) (c i id : Nat) (a : Machine.Acc), (s.die (c / 128)).halted = none → (s.seat c i).findAcc id = some a →
    (∀ r, a.result = some r → a.due ≤ (s.core c).now → exec (.atomicReply c i id) s =
      .next (((s.deliver c i a.seq a.pos a.dst (r % 2 ^ 64)).deliver c i a.seq a.pos a.dst2 (r / 2 ^ 64)).endAcc c i { a with rel := false })) ∧
    (∀ op h q tick, a.kind = .atom op → a.home = some (h, q, tick) → a.sent.isSome = true → a.result = none →
      tick + 2000 ≤ s.tbase → (s.seat c i).mayAct a = true → a.due ≠ never →
      let again := s.modSeat c i (fun t => t.modAcc id (fun _ => { a with home := some (h, q, s.tbase) }))
      let entry := tfind (s.die h).replay ((16 * c + i) * 64 + q % 64)
      (∀ r, h < 4 → entry = some (q, r) → exec (.requestResend c i id) s =
        .next (again.modSeat c i (fun t => t.modAcc id (fun x => { x with result := r.head? })))) ∧
      (entry = none → exec (.requestResend c i id) s = .next (again.applyAtom c i { a with home := some (h, q, s.tbase) } op))) ∧
    ((s.seat c i).mayPerform (s.core c).now a = true → a.parts.length = 1 → a.parts.all throughPort = true → a.accepted = none →
      a.lost = none → s.homeAll (s.ownerOf c i).1 a.key a.parts = .silent →
      let taken := ({ s with pkg := { s.pkg with accepts := s.pkg.accepts + 1 } }.modSeat c i (fun t =>
        t.modAcc id (fun x => { x with accepted := some s.pkg.accepts }))).settle c i
      (a.kind = .store → a.data2 = 0 → exec (.storeApply c i id) s = .next taken) ∧
      (∀ op, a.kind = .atom op → a.due ≠ never → exec (.atomicApply c i id) s = .next (taken.refuseAcc c i a .silent))) ∧
    (∀ m, a.lost = some m → a.parts.length = 1 → (s.seat c i).mayPerform (s.core c).now a = true →
      let f := s.takeFree
      (∀ sx, a.kind = .load sx → exec (.loadDataReturn c i id) s =
        .next ((s.loseAccess c i m 1 a).returnData c i a (extendLoad sx a.n (2 ^ (8 * a.n) - 1)))) ∧
      (a.kind = .store → exec (.storeApply c i id) s = .next ((s.dropStore m).endAcc c i a)) ∧
      (∀ op, a.kind = .atom op → a.due ≠ never → exec (.atomicApply c i id) s = .next ((f.2.loseAccess c i m 2 a).modSeat c i (fun t =>
        t.modAcc id (fun x => { x with
          result := some (2 ^ (8 * a.n) - 1 + (if f.1 % 2 = 1 then 2 ^ 64 else 0)), accepted := none }))))) ∧
    ((s.seat c i).mayPerform (s.core c).now a = true → a.parts.length ≤ 1 →
      (a.kind = .launch → exec (.loadDataReturn c i id) s = .next (s.performLaunch c i a)) ∧
      (a.kind = .xhash → exec (.loadDataReturn c i id) s = .next (s.someSteps.2.performHash c i a false s.someSteps.1)) ∧
      (a.kind = .xins → exec (.loadDataReturn c i id) s = .next (s.someSteps.2.performHash c i a true s.someSteps.1)) ∧
      (∀ csr, a.kind = .xwalk csr → exec (.loadDataReturn c i id) s = .next (s.performWalk c i a csr)))

/-- R212, R213, R216 to R219, R267, R280, R291 and R364: the events of walkers, the array, the sparsity unit and caches, each where it may
happen: a walk begins for an access that misses or for what a fetch, an engine or a prefetch asks for, keeps TCB_ROOT and the table bases as
they are then, and ends on them with an answer for each that waits; a bank settles, but not while a bundle of the seat that holds the M claim is
held for a reply; filled ring tiles are counted, the unit's oldest command completes, a line is written back, and a request that has waited past
the cross-die limit is judged, and so is a bundle held for another die. -/
def Obligations.WalkersAndEngines : Prop :=
  ∀ (s : State) (c i n : Nat),
    let ready (k : Nat) : Prop := (s.die k).halted = none
    (∀ die ten page, ready die → (s.die die).walkOf ten page 512 = none → (s.die die).walks.length < 512 →
      s.missing die ten page ≠ [] ∨ (ten, page) ∈ s.pagesAsked die →
      exec (.walk die ten page) s = .next (s.modDie die (fun d => { d with walks := d.walks ++ [⟨ten, page, (s.tenancy ten).root,
        [(s.die 0).tablebase, (s.die 1).tablebase, (s.die 2).tablebase, (s.die 3).tablebase]⟩] }))) ∧
    (∀ die ten page w, ready die → (s.die die).walkOf ten page 16 = some w → (s.rooted w).walkStop die ten (page * 2 ^ 16) = none →
      let found := (s.rooted w).walk die ten (page * 2 ^ 16)
      let t := s.walked die w
      exec (.walkComplete die ten page) s = .next (((t.missing die ten page).foldl
        (fun (t : State) p => t.endMiss p.1 p.2.1 p.2.2 found) t).answerAsks die ten page found)) ∧
    exec (.bankOpComplete c) s = .next (if (s.core c).seats.any (fun p => p.2.claims && p.2.held.isSome) then s
      else s.modCore c (fun k => { k with mx := k.mx.commit k.now })) ∧
    exec (.ringTileFill c n) s = .next (s.modCore c (fun k => { k with mx := k.mx.setRing n ((k.mx.ring n).count (k.mx.ring n).resv) })) ∧
    (∀ x r, ready (c / 128) → (s.core c).unit = x :: r → x.dead = false → s.marked c x.seat x.mark x.ten x.lid x.idx = true → s.poison = [] →
      let d := s.doUnit c (s.windowSize x.ten x.lid (c / 128)) (s.windowPa x.ten x.lid (c / 128) 0) x
      exec (.sparsityCmdComplete c) s =
        .next ((d.2.modCore c (fun k => { k with unit := r })).finishEngine x.ten c 9 x.num d.1)) ∧
    (∀ line l, tfind s.lines line = some l → exec (.lineWriteBack line) s = .next { s with
      lines := terase s.lines line
      keys := match l.dirty with
        | none => s.keys
        | some k => tput s.keys line (s.pkg.keygen * 256 + k)
      poison := match l.dirty with
        | none => s.poison
        | some _ => if l.bad then line :: s.poison.filter (· != line) else s.poison.filter (· != line) }) ∧
    (∀ id a pa, i < 4 → (s.seat c i).findAcc id = some a → a.pas = some [pa] → ready (c / 128) →
      let send (t : State) : State := t.modSeat c i (fun t => t.modAcc id (fun x => x.send s.tbase))
      (responderOf (c / 128) pa ≠ .own → a.sent = none → (s.seat c i).mayAct a = true → a.due ≠ never →
        exec (.crossDieTimeout c i id) s = .next (send s)) ∧
      (∀ t d, a.sent = some t → t + 1000 * s.pkg.xdto ≤ s.tbase → responderOf (c / 128) pa = .die d → d ∉ (s.die (c / 128)).slow →
        exec (.crossDieTimeout c i id) s = .next (((send s).modDie (c / 128) (fun x => { x with slow := d :: x.slow })).post (c / 128)
          0x08 0xFF (c / 8 % 16) (c % 8) [BitVec.ofNat 64 (d + (s.tbase - t) * 2 ^ 8)])) ∧
      (∀ t m, a.sent = some t → t + 1000 * s.pkg.xdto ≤ s.tbase → responderOf (c / 128) pa = .module m → s.moduleHeld m = false →
        exec (.crossDieTimeout c i id) s = .next (s.loseModule m))) ∧
    (∀ id h t d, i < 4 → (s.seat c i).findAcc id = none → (s.seat c i).held = some h → ready (c / 128) → h.sent = some t →
      h.responder c = .die d → t + 1000 * s.pkg.xdto ≤ s.tbase → d ∉ (s.die (c / 128)).slow →
      exec (.crossDieTimeout c i id) s = .next (((s.modSeat c i (fun t => { t with held := some { h with sent := some s.tbase } })).modDie
        (c / 128) (fun x => { x with slow := d :: x.slow })).post (c / 128) 0x08 0xFF (c / 8 % 16) (c % 8)
        [BitVec.ofNat 64 (d + (s.tbase - t) * 2 ^ 8)]))

/-- R296, R309, R314 and R318: the oldest index command of a seat, and the oldest copy of a channel, once what precedes it has performed. An order
runs some of a command and leaves it queued; with none, all that is left of it runs (log 14: the orders are the model's choice). A copy that has
moved its units and whose ring tile has been counted (R280) signals, advances its timeline and writes its COMPL word, in that order; until the
tile is counted it stays with the status it will have. A gather from the window appends its granules to the seat's index data queue, 0 for a lane
out of range; a scatter into the window stores the granule of each lane in range, in lane order; the command's timeline advances. -/
def Obligations.EngineCommandsComplete : Prop :=
  ∀ (s : State) (c i : Nat) (order : List Nat), (s.die (c / 128)).halted = none →
    (∀ x, (s.core c).idx.find? (fun y => y.seat == i) = some x → x.stuck = none → x.dead = false →
      s.marked c i x.mark x.ten x.lid x.idx = true →
      let e : Eng := ⟨c, x.ten, x.lid, x.idx, 16 * c + 12, x.num, x.gone, x.ask⟩
      let part : IdxRun := order.foldl (if x.op = 0 then IdxRun.gather c else if x.op = 1 then IdxRun.scatter c else IdxRun.add c) ⟨s, x, none⟩
      (order ≠ [] → part.stop = none → x.op < 3 → exec (if x.op = 0 then .gatherArrive c ⟨i, order⟩ else .scatterComplete c i order) s =
        .next (part.s.modCore c (fun k => k.keepIdx i { part.x with waits := none, ask := none }))) ∧
      (x.glob = false → x.did = [] → x.got = [] → x.lost = [] → x.status = 0 → x.pushed ≤ (s.core c).now → s.poison = [] →
        (∀ l ∈ x.lanes, l.2 = true → l.1 + x.gran ≤ s.windowSize x.ten x.lid (c / 128)) →
      let at_ (l : Nat) : Nat := s.windowPa x.ten x.lid (c / 128) l
      let ends (t : State) : State := (t.releaseCmd e.cmd).modCore c (fun k => { k with idx := dropFirst (fun y => y.seat == i) k.idx })
      (x.op = 0 → (s.seat c i).runs x.ten x.lid x.idx = true → (∀ l ∈ x.lanes, l.2 = true → inPool (at_ l.1) = true) →
        exec (.gatherArrive c ⟨i, []⟩) s =
        .next (((ends s).modSeat c i (fun t => { t with dataq := t.dataq ++ [BitVec.ofNat 2048 (packList (8 * x.gran)
          (x.lanes.map (fun l => if l.2 then s.load (at_ l.1) x.gran else 0)))] })).finishEngine x.ten c 8 x.num 0)) ∧
      (x.op = 1 → exec (.scatterComplete c i []) s =
        .next ((ends (x.lanes.zipIdx.foldl (fun (t : State) p => if p.1.2 then
          t.store (at_ p.1.1) x.gran 0 (x.data.toNat / 2 ^ (8 * x.gran * p.2) % 2 ^ (8 * x.gran)) else t) s)).finishEngine x.ten c 8 x.num 0)))) ∧
    (∀ ch x r, tget (s.core c).chans [] ch = x :: r → x.stuck = none → x.dead = false →
      s.marked c x.seat x.mark x.ten x.lid x.idx = true → x.status = 0 → x.ended = none →
      let e : Eng := ⟨c, x.ten, x.lid, x.idx, 16 * c + 4 + ch, x.num, x.gone, x.ask⟩
      let ends (p : CopyRun) (n : Nat) : State :=
        let y : CopyCmd := { p.x with waits := none, ask := none }
        let t := p.s.modCore c (fun k => { k with mx := k.mx.fillTile ch y true })
        if (t.core c).mx.counted ch y then
          (((t.modCore c (fun k => k.modChan ch List.tail)).releaseCmd e.cmd).finishEngine y.ten c ch y.num n).finishCopy y n
        else t.modCore c (fun k => k.modChan ch (fun l => { y with ended := some n } :: l.tail))
      (∀ p, order ≠ [] → s.copyMoves e x order = p → p.stop = none → p.x.left ≠ [] → exec (.copyComplete (.chan c ch) order) s =
        .next (p.s.modCore c (fun k => k.modChan ch (fun l => { p.x with waits := none, ask := none } :: l.tail)))) ∧
      (∀ p, s.copyMoves e x [] = p → p.x.inc = 0 → p.stop = none → exec (.copyComplete (.chan c ch) []) s = .next (ends p 0)) ∧
      ∀ p n, s.copyMoves e x order = p → p.stop = some (.status n) → n ≠ 0 →
        exec (.copyComplete (.chan c ch) order) s = .next (ends p n)) ∧
    (∀ ten x r p, (s.die 0).halted = none → s.qcopies = x :: r → x.ten = ten → x.stuck = none → x.dead = false → x.status = 0 →
      x.ended = none → x.inc = 0 →
      s.copyMoves ⟨0, ten, 0, 0, 8192, x.num, x.gone, x.ask⟩ x [] = p → p.stop = none → p.s.qcopies = s.qcopies →
      exec (.copyComplete (.queued ten 0) []) s =
        .next ({ p.s.releaseCmd (1 + x.num * 16384 + 8192) with qcopies := r }.finishCopy x 0))

/-! ## Events: semaphores, phases, boards, barriers, CHECKED pages -/

/-- R191, R201 and R367: what makes the waits of seats end: the waits on a semaphore in turn, the release of a phase to which every member has
come, the release of a pod's phase, to which the strands of every launch of the tenancy with DOM 5 have come, and the arrivals and releases of
the sideband barriers: a generation ends in the tick 64 after its last arrival. R367 and R368: a seat that waits on a barrier is released with
the generation it awaited as its result once that has passed, and with the present one and bit 63 set once the barrier has been written to
since; otherwise it goes on waiting. One whose state is restored gets the present generation. R366: a write of BARCFG sets the ID's enable,
tenancy and count, makes its arrival count 0 and releases the seats that wait on it with bit 63 set; that it also drops the generations whose last
arrival has come and whose release has not is the model's inference (log 42). -/
def Obligations.WaitsEndAndBarriersRelease : Prop :=
  (∀ (s : State) (c i n : Nat) (ten lid g : Nat) (peers : List (Nat × Word)),
     (∀ j v, (∀ r ∈ (s.die (c / 128)).recs, ∀ ten, r.waitsSem c ten n = false) → tget (s.core c).semLast 0 n % 4 = j →
       (s.seat c j).wait = some (.sem n v) →
       v ≤ (s.core c).semVal n → (∀ j', j' < 4 → j' ≠ j → (s.seat c j').wait = none ∧ (s.seat c j').bcw = .none) → j < 4 →
       ∃ t, exec (.semWaitComplete c n) s = .next t ∧ (t.core c).semVal n + v = (s.core c).semVal n ∧ (t.seat c j).wait = none) ∧
     (∀ l, (s.eachSeat State.arrivePhase).launch ten lid = some l → l.dom ≠ 5 →
       exec (.phaseRelease ten lid g) s = .next (((s.eachSeat State.arrivePhase).modLaunch ten lid (fun l =>
         if l.allArrived g then { l with phases := tput l.phases g { rel := (l.phase g).rel + 1, arrived := [], lost := false } }
         else l)).eachSeat State.takePhase)) ∧
     (∀ l ch, let s' := s.eachSeat State.arrivePhase
       s'.launch ten lid = some l → s'.podChannel ten = some ch → l.dom = 5 → l.started = true →
       (∀ x ∈ s'.launches, x.ten = ten → x.dom = 5 → x.started = true → x.noneMissing 0 = true) →
       (∃ x ∈ s'.launches, x.ten = ten ∧ x.dom = 5 ∧ x.started = true ∧ 0 < x.here 0) → s'.homeOne (s'.podPa l ch) 0 = .ok →
       (∀ m, m < 64 → (tget s'.pkg.pod 0 (2 * ch + 1)).getLsbD m = true → m ≠ s'.pkg.lsd.toNat % 64 → ∃ v, (m, v) ∈ peers) →
       exec (.podPhaseRelease ten lid peers) s = .next (s'.podRelease l ch peers)) ∧
     (∀ d id x y, (s.seat c i).wait = some (.barr d id x y false) → (s.die (c / 128)).halted = none →
       (∀ a ∈ (s.seat c i).accs, a.performed = true ∨ a.accepted.isSome = true) →
       ∃ t, exec (.barrierArrival c i) s = .next t ∧
         (let b := s.bar id
          tget t.pkg.bars {} id = (if b.arr = b.count then { b with arr := 0, due := b.due ++ [s.tbase + 64] } else { b with arr := b.arr + 1 }) ∧
          (t.seat c i).wait = some (.barr d id ((b.gen + b.due.length + 1) % 2 ^ 32) b.rst true))) ∧
     (∀ id, let b := tget s.pkg.bars {} id
       s.bar id = { b with
         gen := (b.gen + (b.due.filter (fun t => decide (t ≤ s.tbase))).length) % 2 ^ 32
         due := b.due.filter (fun t => decide (s.tbase < t)) } ∧
       ((tfind s.pkg.bars id).isSome = true → exec (.barrierRelease id) s = .next ((s.setBar id (s.bar id)).eachSeat State.takeBarr))) ∧
     (∀ id (v : Word), let s' := s.eachSeat State.takeBarr
       let b := s'.bar id
       exec (.barcfgWrite id v) s = .next ((s'.setBar id { b with
         en := v.getLsbD 63, ten := v.toNat / 2 ^ 48 % 2 ^ 8, count := v.toNat / 2 ^ 32 % 2 ^ 12
         arr := 0, due := [], rst := (b.rst + 1) % 2 ^ 16 }).eachSeat State.takeBarr))) ∧
  (∀ (s : State) (c i d id g rst : Nat), (s.seat c i).wait = some (.barr d id g rst true) →
     let b := s.bar id
     let passed := (BitVec.ofNat 32 b.gen - BitVec.ofNat 32 g).msb = false
     g < 2 ^ 32 → b.gen < 2 ^ 32 →
     ((s.seat c i).restore = true → s.takeBarr c i = s) ∧
     ((s.seat c i).restore = false → s.takeBarr c i = s.endBarr c i false) ∧
     ∀ resumed,
       (b.rst ≠ rst → s.endBarr c i resumed =
         (s.deliverLast c i ⟨.e, d⟩ (b.gen + 2 ^ 63)).modSeat c i (fun t => { t with wait := none })) ∧
       (b.rst = rst → passed → s.endBarr c i resumed =
         (s.deliverLast c i ⟨.e, d⟩ (if resumed then b.gen else g)).modSeat c i (fun t => { t with wait := none })) ∧
       (b.rst = rst → ¬passed → s.endBarr c i resumed = s))

/-- R235, R239, R240, R251, R253, R254, R262 and R263: a held bundle's request is serialised at its board's home and answered; its reply lets
the bundle's effects follow, or fails it with BOARD or REMLOST; a CHECKED access is checked at its home, whose answer ends a report of it as slow
(R364) and where a conflict is MEMRACE; and a board is created, freed or granted by BRDCFG. -/
def Obligations.HeldBundlesAndBoards : Prop :=
  ∀ (s : State) (c i : Nat),
    (∀ h kind handle part value, (s.seat c i).held = some h → h.board = some (kind, handle, part, value) → h.answer = none → h.check = [] →
      (s.die (c / 128)).halted = none → (kind = 1 ∨ kind = 2 ∨ ∀ a ∈ (s.seat c i).accs, a.performedAt (handle.getLsbD 56) = true) →
      let p := s.sendBoard c i h handle
      (h.sent.isSome = true → p = (h, s)) ∧
      (p.2.boardHome handle = .ok → exec (.boardSerialise c i) s = .next (p.2.serialise c i (s.seat c i) p.1 kind handle part value)) ∧
      (p.2.boardHome handle = .silent → exec (.boardSerialise c i) s = .next p.2) ∧
      (∀ m, p.2.boardHome handle = .lost m → exec (.boardSerialise c i) s = .next (p.2.answerBoard c i 5 [m]))) ∧
    (∀ h kind handle part value reason vals, (s.seat c i).held = some h → h.board = some (kind, handle, part, value) →
      h.answer = some (reason, vals) → h.due ≤ (s.core c).now → (s.die (c / 128)).halted = none → s.iss = none →
      let t := match boardTarget c handle with
        | none => s
        | some d => s.heard (c / 128) d
      exec (.boardReply c i) s = .next (if reason = 0 then t.resumeHeld c i { h.iss with reply := some vals, checked := true }
        else if reason = 5 then t.failHeld c i ⟨0x0A, 3, handle.toNat, 0, vals.headD 0, false, 0⟩
        else t.failHeld c i ⟨0x0B, reason, handle.toNat, if kind = 0 ∨ kind = 2 then part.toNat else 0, vals.headD 0, false, 0⟩)) ∧
    (∀ h x va pa n m r, (s.seat c i).held = some h → (s.seat c i).strand = some x → h.check = (va, pa, n, m) :: r →
      s.homeOne pa 0 ≠ .silent → (s.die (c / 128)).halted = none → s.iss = none →
      let s' := s.heardFrom (c / 128) pa
      (∀ q, s'.raceAt x.ten x.lid x.idx m pa n = some q → exec (.checkedCheck c i) s = .next (s'.failHeld c i
        ⟨0x08, min 3 m * 2 ^ 8 + (if q.coarse then 1 else 0), va, q.lid * 2 ^ 32 + q.idx % 2 ^ 32, q.gran, false, 0⟩)) ∧
      (s'.raceAt x.ten x.lid x.idx m pa n = none → exec (.checkedCheck c i) s = .next (
        let t := s'.noteAt x.ten x.lid x.idx m pa n
        if r = [] ∧ h.board = none then t.resumeHeld c i { h.iss with passed := true, checked := true }
        else t.modSeat c i (fun t => { t with held := some { h with
          check := r, sent := if r = [] then none else h.sent, iss := { h.iss with passed := true } } })))) ∧
    (∀ d b (v : Word), let old := tget (s.die d).boards {} b
      let ten := v.toNat / 2 ^ 48 % 2 ^ 8
      let puts (x : Board) : Host.Outcome State Fault Refusal := .next (s.modDie d (fun y => { y with boards := tput y.boards b x }))
      (old.en = false → v.getLsbD 63 = true → ten ≤ 16 → exec (.brdcfgCreate d b v) s = puts {
        en := true, fab := v.getLsbD 62, ten := ten, parts := v.toNat / 2 ^ 32 % 2 ^ 11 + 1, level := 0, slots := [], order := [] }) ∧
      (old.en = false → v.getLsbD 63 = true → 16 < ten → exec (.brdcfgCreate d b v) s = .next s) ∧
      exec (.brdcfgFree d b) s = puts {} ∧
      (old.en = true → v.getLsbD 63 = true → exec (.brdcfgGrant d b v) s = puts { old with fab := v.getLsbD 62 }))

/-! ## Events: cores, traps, the debugger, strands -/

/-- R15, R16, R70, R91, R99, R151, R156 and R178: what happens of itself on a core whose die runs: a bundle that passes its checks issues, unless
another seat is to take over or an FPX stands to be taken; what has completed reaches its registers; a HALT ends its strand; of the ready
seats one of the highest rank is chosen, a seat that has only been blocked going on, and one of higher rank takes over at a bundle boundary;
4096 bundles end a seat's turn; a core adopts a gear value 64 cycles after its write at the latest, several of one gear point counting as one
change (that a core adopts the values in the order in which they were written is the model's choice, log 121); traps and deferred traps take
hold. -/
def Obligations.CoreEvents : Prop :=
  ∀ (s : State) (c i : Nat), s.coreStill c = false →
    (∀ fresh u s1, let s' := (s.settleSems c).arriveGears c
      let s0 := s'.refresh c i
      (s.core c).running = some i → (s.settleSems c).outranked c i = false → (s.settleSems c).spent c i = false →
      (s'.seat c i).strand.isSome = true → s0.fpPending c i = false → s0.seatOpen c i = true → s0.overdue c i = false →
      (s0.seat c i).pend = none → (s0.seat c i).stalled ≤ (s0.core c).now → (s0.seat c i).wait = none → (s0.seat c i).deferred = [] →
      s0.attempt c i fresh = (s1, .issue u) →
      ∃ t, exec (.bundleIssue c fresh) s = .next t ∧ t.iss = some { u with checked := true, sig0 := none } ∧ t.mem = s1.mem) ∧
    (∀ fresh, (s.core c).running = some i → (s.settleSems c).outranked c i = true ∨ (s.settleSems c).spent c i = true →
      exec (.bundleIssue c fresh) s = .next s) ∧
    (∃ t, exec (.resultWriteback c) s = .next t ∧
      ∀ j, j < 4 → (s.seat c j).strand.isSome = true → (t.seat c j).regs = ((s.seat c j).commit (s.core c).now).regs) ∧
    (let s' := s.beforeSpill c i
     (s.seat c i).held = none → (s.seat c i).leave = some .halt → (s.seat c i).killed = none → (s'.seat c i).leave = some .halt →
      (s'.seat c i).killed = none → s'.quiet c i = true → exec (.bundleComplete c i) s = .next (s'.endStrand c i 0)) ∧
    (∀ j, let s' := s.settleSems c
      (s.core c).running = none → (s.core c).gaveUp = true ∨ s'.seatReady c (s.core c).last = false → (s.core c).bubbled = true →
      s'.pickSeat c = some j →
      exec (.seatSwitch c) s = .next (s'.runSeat c j) ∧ s'.seatReady c j = true ∧
      ∀ j', j' < 4 → s'.seatReady c j' = true → s'.seatRank c j' ≤ s'.seatRank c j) ∧
    (let s' := s.settleSems c
     (s.core c).running = none → (s.core c).gaveUp = false → s'.seatReady c (s.core c).last = true →
      exec (.seatSwitch c) s = .next (s'.modCore c (fun k => { k with running := some k.last, bubbled := false }))) ∧
    (∀ j, let s' := s.settleSems c
      (s.core c).running = some j → s'.pinned c j = false → s'.otherReady c j (s'.seatRank c j + 1) = true →
      exec (.seatSwitch c) s = .next ((s'.idle c 1).modCore c (fun k =>
        { k with running := none, last := j, bubbled := true, gaveUp := true }))) ∧
    (∀ j, (s.core c).running = some j → 4096 ≤ (s.seat c j).run → (s.seat c j).mode.modectl.toNat.testBit 4 = false →
      s.pinned c j = false → s.otherReady c j (s.seatRank c j) = true →
      exec (.quantumExpiry c) s = .next ((s.idle c 1).modCore c (fun k =>
        { k with running := none, last := j, bubbled := true, gaveUp := true }))) ∧
    (let s' := s.arriveGears c
     exec (.gearPoint c) s = .next (match (s'.die (c / 128)).gears[(s'.core c).gearSeen]? with
      | none => s'
      | some (v, _) => s'.modCore c (fun k => k.adoptGear v k.now))) ∧
    (∀ (k : Core) (v now : Nat), let k' := k.adoptGear v now
      k'.gear = min 8 v ∧ k'.gearSeen = k.gearSeen + 1 ∧
      (k.changed ≠ some now → (k.gear = min 8 v → k'.pgear = k.pgear ∧ k'.changed = k.changed) ∧
        (k.gear ≠ min 8 v → k'.pgear = k.gear ∧ k'.changed = some now)) ∧
      (k.changed = some now → (k.pgear = min 8 v → k'.pgear = k.oldChange.1 ∧ k'.changed = k.oldChange.2) ∧
        (k.pgear ≠ min 8 v → k'.pgear = k.pgear ∧ k'.changed = some now))) ∧
    (∀ d (v : BitVec 4), exec (.gearWrite d v) s =
      .next (s.modDie d (fun x => { x with gear := v.toNat, gears := x.gears ++ [(v.toNat, s.cyc)] }))) ∧
    (∀ p, (s.seat c i).pend = some p → (s.seat c i).loading = false → exec (.trapEntry c i) s = .next (s.enterTrap c i p)) ∧
    ((s.core c).running = some i → s.seatOpen c i = true → (s.seat c i).pend = none → (s.seat c i).wait = none →
      (s.refresh c i).fpPending c i = false → (s.seat c i).stalled ≤ (s.core c).now →
      exec (.deferredTrap c i) s = .next ((s.refresh c i).takeDeferred c i))

/-- R151 and R153: trap entry writes the cause with its DEFER and MULTI bits, TPC, TDLY and TINFO0 to 3, and goes on at TVEC.ADDR in trap mode
with no delay state; a seat that was stepped or is to halt halts there (R159). It keeps every register, TVEC, the accesses under way and memory.
R151 and R156: what the entry reports is settled when it is made, of all the deferred traps found by then: the earliest, with MULTI where there
are several. That a precise trap which one of them precedes is reported in its place and found again when its bundle issues again, while
SWTRAP and BREAK, whose bundles do not issue again, are reported first, is the model's inference (log 104). -/
def Obligations.TrapEntryWritesTheTrapRegisters : Prop :=
  ∀ (s : State) (c i : Nat) (p : PendingTrap),
    let t := s.seat c i
    let q := (s.seat c i).reports p
    let all := if p.rcd.defer then p.rcd :: (s.seat c i).deferred else (s.seat c i).deferred
    ((p.rcd.defer = false → p.redo = none → q = (p, false, (s.seat c i).deferred)) ∧
     (∀ r, p.rcd.defer = true ∨ p.redo.isSome = true → earliest all = some r →
       q = ({ p with rcd := r, tpc := p.redo.getD p.tpc }, decide (1 < all.length), [])) ∧
     (p.redo.isSome = true → p.rcd.defer = false → (s.seat c i).deferred = [] → q = (p, false, []))) ∧
    (q.1.rcd.cause < 2 ^ 8 → i < 4 → ∃ e : State,
    s.enterTrap c i p = (if t.step = true ∨ t.halting = true then e.debugStop c i else e) ∧
    let t' := e.seat c i
    t'.tm = true ∧ t'.pc = (t.trap.vec &&& ~~~(7 : Word)) ∧ t'.delay.count = 0 ∧ t'.pend = none ∧
    t'.trap.cause.toNat % 2 ^ 8 = q.1.rcd.cause ∧ t'.trap.cause.getLsbD 8 = q.1.rcd.defer ∧ t'.trap.cause.getLsbD 9 = q.2.1 ∧
    t'.trap.cause.toNat < 2 ^ 10 ∧ t'.deferred = q.2.2 ∧
    t'.trap.pc = q.1.tpc ∧ t'.trap.dly = p.dly.word ∧ t'.trap.fall = p.dly.falls ∧
    t'.trap.info0 = BitVec.ofNat 64 q.1.rcd.info0 ∧ t'.trap.info1 = BitVec.ofNat 64 q.1.rcd.info1 ∧
    t'.trap.info2 = BitVec.ofNat 64 q.1.rcd.info2 ∧ t'.trap.info3 = BitVec.ofNat 64 q.1.rcd.info3 ∧ t'.trap.vec = t.trap.vec ∧
    t'.regs = t.regs ∧ t'.accs = t.accs ∧ t'.mode = t.mode ∧ e.mem = s.mem ∧ (e.core c).now = (s.core c).now ∧
    ∀ c', c' ≠ c → e.core c' = s.core c')

/-- R150, R151, R154, R156 and R164: a trap of a seat in trap mode, or with TVEC.EN at 0, kills the strand with error status; otherwise the seat
drains, the last result's cycle being the first of the four entry cycles, and the trap is entered once the seat's loads have returned (that the
loads come after the drain is the model's reading, log 105). A precise trap has the bundle's own address as TPC and its delay state as TDLY. Of
several pending deferred traps the one whose faulting bundle comes first is taken. R101, R148 and R152: a return from a trap drains the seat,
leaves trap mode, and resumes the strand at TPC with the delay state of TDLY, n cycles from now at the earliest; it changes no register, no trap
register and no memory. -/
def Obligations.TrapTakenAndReturn : Prop :=
  (∀ (s : State) (c i : Nat) (r : TrapRec) (tpc : Word) (dly : Delay) (redo : Option Word),
     let s' : State := { (s.returnWait c i).modSeat c i (fun t => { t with holding := false, ported := false, counted := false }) with iss := none }
     let t := s'.seat c i
     let d := (s'.drain c i).idle c 4
     (t.tm = true ∨ t.trap.vec.getLsbD 0 = false → s.takeTrap c i r tpc dly redo = s'.killStrand c i 1) ∧
     (t.tm = false → t.trap.vec.getLsbD 0 = true → t.loading = true →
       s.takeTrap c i r tpc dly redo = d.modSeat c i (fun t => { t with pend := some ⟨r, tpc, dly, redo⟩ })) ∧
     (t.tm = false → t.trap.vec.getLsbD 0 = true → t.loading = false →
       s.takeTrap c i r tpc dly redo = d.enterTrap c i ⟨r, tpc, dly, redo⟩) ∧
     (d.core c).now = max (s'.core c).now (s'.lastOf c i) + 4 ∧
     s.preciseTrap c i r = (s.idle c 1).takeTrap c i r (s.seat c i).pc (s.delayOf c i) (some (s.seat c i).pc) ∧
     (∀ x, earliest (s.seat c i).deferred = some x → x ∈ (s.seat c i).deferred ∧ (∀ y ∈ (s.seat c i).deferred, x.seq ≤ y.seq) ∧
       s.takeDeferred c i = ((s.modSeat c i (fun t => { t with deferred := dropFirst (fun y => y == x) t.deferred })).idle c
         1).takeTrap c i x (s.seat c i).pc (s.delayOf c i) none)) ∧
  (∀ (s : State) (c i n : Nat), i < 4 →
     let t := (s.drain c i).seat c i
     let e := s.returnTrap c i n
     let t' := e.seat c i
     t'.tm = false ∧ t'.pc = t.trap.pc ∧ t'.delay = unpackDelay t.trap.dly t.trap.pc t.trap.fall ∧ t'.trap = t.trap ∧ t'.regs = t.regs ∧
     t'.mode = t.mode ∧ t'.accs = t.accs ∧ e.mem = s.mem ∧ (e.core c).now = max ((s.core c).now + n) (s.lastOf c i))

/-- R157, R158, R159 and R365: the debugger halts a seat at an issue boundary, once its loads and every other result under way have returned,
with its pipelines drained and its delay state recorded; resumes or steps it as the halt left it; reads without effect and writes a halted
seat; a die's own halt stops its counters until it resumes. R157: what a debugger's write to a halted seat does to its registers: the register
named, and no other; q0 discards. That a write of the halt pc or of the halt delay state ends the check of a branch's target is the model's
inference (log 70). -/
def Obligations.DebuggerReadsAndWrites : Prop :=
  (∀ (s : State) (c i : Nat),
     (s.coreStill c = false → s.haltable c i = true → exec (.debugHalt c i) s = .next ((s.returnWait c i).debugStop c i)) ∧
     (s.resultsOut c i = true → s.debugStop c i = s.modSeat c i (fun t => { t with halting := true })) ∧
     (s.resultsOut c i = false → i < 4 → let t := (s.debugStop c i).seat c i
       t.halted = true ∧ t.halting = false ∧ t.step = false ∧
       t.delay = ((s.drainAll c i).delayOf c i).resume ((s.drainAll c i).seat c i).pc) ∧
     (s.coreStill c = false → (s.seat c i).halted = true →
       let resumed (step : Bool) : State := s.modSeat c i (fun t => { t with halted := false, step := step })
       exec (.debugResume c i) s = .next (resumed false) ∧ exec (.debugStep c i) s = .next (resumed true) ∧
       (∀ what n v, exec (.debugAccess c i false what n v) s = .next s) ∧
       (∀ what n v, exec (.debugAccess c i true what n v) s = .next (s.modSeat c i (fun t => t.debugWrite what n v)))) ∧
     (∀ d, (s.die d).halted = none → exec (.dieDebugHalt d) s = .next (s.modDie d (fun x => { x with halted := some s.tbase }))) ∧
     (∀ d k, (s.die d).halted = some k → (∀ p ∈ s.tens, p.2.unwritten = []) →
       ∃ t, exec (.dieDebugResume d) s = .next t ∧ (t.die d).halted = none ∧ t.mem = s.mem ∧
       ∀ a, (t.seat c i).findAcc a =
         if c / 128 = d then ((s.seat c i).findAcc a).map (fun x => x.shift (s.tbase - k) s.tbase) else (s.seat c i).findAcc a)) ∧
  (∀ (t : Seat) (n v : Nat),
     (n < 64 → t.debugWrite .i n v = { t with regs := writeReg t.regs ⟨.i, n⟩ v }) ∧
     (n < 32 → t.debugWrite .e n v = { t with regs := writeReg t.regs ⟨.e, n⟩ v }) ∧
     (n < t.alloc .v → t.debugWrite .v n v = { t with regs := writeReg t.regs ⟨.v, n⟩ v }) ∧
     (n < 8 → t.debugWrite .tb n v = { t with regs := writeReg t.regs ⟨.i, 64 + n⟩ v }) ∧
     t.debugWrite .q 0 v = t ∧
     t.debugWrite .tpc n v = { t with trap := { t.trap with pc := BitVec.ofNat 64 v } } ∧
     t.debugWrite .tvec n v = { t with trap := { t.trap with vec := BitVec.ofNat 64 v &&& 0xFFFFFFFFFFFFFFF9 } } ∧
     (t.debugWrite .haltPc n v).pc = BitVec.ofNat 64 v ∧ (t.debugWrite .haltPc n v).target = none ∧ (t.debugWrite .haltDly n v).target = none)

/-- R99, R107, R171, R173, R176, R183, R186, R220, R221, R290, R333 and R334: how strands leave and take seats: each event under the conditions it
waits for. A strand that leaves becomes a record with its state spilled, unless its record or its spill area consumes an error (R338), in which
case it stays; a record whose wake condition is met becomes ready; the record chosen is restored on a free seat, or killed if its checksum is
wrong; a killed strand leaves once its engines are done. -/
def Obligations.StrandEvents : Prop :=
  ∀ (s : State) (c i : Nat),
    (s.coreStill c = false → let s' := s.refresh c i
      (s'.seat c i).killed = none → (s'.seat c i).held = none → (s'.seat c i).spoiled = false → s'.owed c i = false → s'.quiet c i = true →
      (s.seat c i).leave ≠ some .yield → ∀ w live, (s'.seat c i).leave = some (.suspend w live) →
        exec (.suspendSpill c i) s = .next (s'.leaveSeat c i (s'.suspendExit c i w live))) ∧
    (s.coreStill c = false → let s' := s.beforeSpill c i
      (s'.seat c i).killed = none → (s'.seat c i).held = none → (s'.seat c i).spoiled = false → s'.owed c i = false → s'.quiet c i = true →
      (s.seat c i).leave = some .yield → (s'.seat c i).leave = some .yield → exec (.suspendSpill c i) s =
        .next (s'.leaveSeat c i { wake := 0, live := s'.liveOf c i, clears := true })) ∧
    (s.coreStill c = false → let s' := s.refresh c i
      ∀ va k, (s'.seat c i).killed = none → (s'.seat c i).held = none → (s'.seat c i).spoiled = false → s'.owed c i = false →
      (s.seat c i).leave ≠ some .yield → (s'.seat c i).leave = some (.page va k) →
      s'.onlyMissing c i = true → exec (.suspendSpill c i) s =
        .next (s'.leaveSeat c i { wake := BitVec.ofNat 64 (2 ^ 62 + va % 2 ^ 56), live := s'.liveOf c i, ready := (s'.seat c i).paged })) ∧
    (∀ z x e, (s.seat c i).strand = some x → (s.die (c / 128)).freeEntry = some e →
      let r := s.exitRec c i z x e
      (s.leaveStop c z r = none → s.leaveSeat c i z = s.vacate c i z r) ∧
      (∀ cls pa va, s.leaveStop c z r = some (.err cls pa va) → s.leaveSeat c i z =
        (s.agentConsume (some 5) r.strand.ten r.strand.lid cls pa va).modSeat c i (fun t => { t with spoiled := true }))) ∧
    (s.coreStill c = false → (s.seat c i).leave = some .preempt → (s.seat c i).killed = none → (s.seat c i).held = none →
      (s.seat c i).spoiled = false → let s' := s.beforeSpill c i
      ∀ z, (s'.seat c i).pend = none → (s'.seat c i).deferred = [] → (s'.seat c i).accs = [] → (s'.seat c i).sigs = [] →
      s'.owed c i = false → s'.waitExit c i = some z →
      exec (.preemptSpill c i) s = .next (((s'.drainAll c i).modSeat c i Seat.dropWait).leaveSeat c i z)) ∧
    (∀ d e r, (s.die d).recs.find? (fun r => r.entry == e) = some r → (s.die d).halted = none →
      (r.ready = false → s.wakeMet r = true → (r.only = none ∨ r.kind ≠ 1) →
        exec (.wakeReady d e) s = .next (s.wakeWhere d (fun q => q.entry == e))) ∧
      (∀ k, r.ready = false → r.only = some k → r.kind = 1 →
        exec (.wakeReady d e) s = .next (s.semComplete k (r.wake.toNat / 2 ^ 48 % 2 ^ 8))) ∧
      (∀ c', s.nextPlace d (s.listOf d r) = some (r, c') →
        (s.entryStop d e = none → s.recGood d e = false → exec (.seatRecord d e) s = .next (s.endRec d r 4)) ∧
        (∀ j, s.entryStop d e = none → s.recGood d e = true → (s.core c').freeSeatNum = some j →
          (r.fresh = true → exec (.seatRecord d e) s = .next (s.seatRec d r c' j)) ∧
          (r.fresh = false → s.restoreStop r = none → exec (.seatRecord d e) s = .next ((s.restoreFill r).seatRec d r c' j)) ∧
          (∀ cls pa va, r.fresh = false → s.restoreStop r = some (.err cls pa va) → exec (.seatRecord d e) s =
            .next (s.agentConsume (some 5) r.strand.ten r.strand.lid cls pa va))))) ∧
    (s.coreStill c = false → (s.seat c i).restore = true → (s.seat c i).strand.isSome = true → (s.seat c i).killed = none →
      (s.seat c i).leave = none → (s.seat c i).accs = [] →
      exec (.resume c i) s =
        .next ((s.modSeat c i (fun t => { t with restore := false, leave := t.after, after := none })).endBarr c i true)) ∧
    (∀ r, s.coreStill c = false → (s.seat c i).halted = false → (s.seat c i).halting = false →
      (s.die (c / 128)).recs.find? (fun r => (s.victims (c / 128) r).contains (c, i)) = some r →
      (∀ p ∈ s.victims (c / 128) r, p ≠ (c, i) → s.victimBefore r.strand.ten (c, i) p = true) →
      exec (.preemptRequest c i) s = .next (s.askFor c i r.entry)) ∧
    (∀ tick, s.coreStill c = false → (s.seat c i).preempt = some tick → tick + 50000 ≤ s.tbase → (s.seat c i).strand.isSome = true →
      (s.seat c i).killed = none → (s.seat c i).leave = none → (s.seat c i).held = none → (s.seat c i).pend = none →
      (s.seat c i).halted = false → (s.seat c i).halting = false → (s.seat c i).restore = false → (s.seat c i).deferred = [] → s.inTile c i = false →
      exec (.preemptTimeout c i) s = .next (s.preemptNow c i)) ∧
    (∀ status x, s.coreStill c = false → (s.seat c i).killed = some status → (s.seat c i).strand = some x →
      let s' := s.settle c i
      (s'.seat c i).accs = [] → (s'.seat c i).sigs = [] → (s'.core c).working x = false →
      exec (.strandKill c i) s = .next (s'.endStrand c i status))

/-! ## Events: queues and launches, tenancies and registers, host and fabric, reliability, the package -/

/-- R180 to R184, R188, R210, R313 and R392: packets and launches. A packet whose turn it is is taken: the read index moves past its slots; a LAUNCH
joins the launches, or completes with status 2 when malformed and 3 when a mode is not enabled; COPY and COPYX join the copies of the queues;
SIGNAL stores its value and completes; WAITALL has been waited for. A launch starts once its dependences and R183 allow, records are created,
ageing and budgets take hold, a finished launch completes, and one that has not passed its switch point is cancelled with status 5, or with the
smaller code it has already. That a LAUNCH packet is taken, and its MODE judged, before its dependences are met is the model's choice (log 92);
that a launch makes the front end's die forget the code it has fetched is its inference (log 90). -/
def Obligations.LaunchEvents : Prop :=
  ∀ (s : State) (ten q : Nat),
    (∀ p, let s0 := if s.serves ten then s.probeQueue ten q else s
      s0.served ten q = some p →
      let s' := s0.takePacket ten q p
      let n := (s'.issueCompl ten p.compl).1
      let s1 := (s'.issueCompl ten p.compl).2
      (p.type = 1 →
        let l := p.launch ten q ((s1.tenancy ten).keys + 1) (s.packetPrio ten q p) n ((s1.tenancy ten).expert.toNat % 2 ^ 11)
          (tget (s.tenancy ten).queues {} q).since
        let s2 := s1.modTenancy ten (fun x => { x with keys := x.keys + 1 })
        (p.launchOk l = false → exec (.launchPacket ten q) s = .next (s2.failPacket l 2)) ∧
        (p.launchOk l = true → l.modeOk = false → exec (.launchPacket ten q) s = .next (s2.failPacket l 3)) ∧
        (p.launchOk l = true → l.modeOk = true →
          exec (.launchPacket ten q) s = .next (({ s2 with launches := s2.launches ++ [l] }.dropCode ten).noteQueues ten))) ∧
      (p.type = 2 → exec (.copyPacket ten q) s = .next (s'.queueCopy ten q p)) ∧
      (p.type = 3 → exec (.copyxPacket ten q) s = .next (s'.queueCopy ten q p)) ∧
      (p.type = 4 → p.signalOk = false → exec (.signalPacket ten q) s = .next (s1.finishCompl ten p.compl n 2)) ∧
      (p.type = 4 → p.signalOk = true → ∀ ps, s1.agentRange ten .write (p.word 1) 8 = .ok ps → exec (.signalPacket ten q) s =
        .next ((s1.agentStore none ten 0 (p.word 1) 8 (p.word 2)).finishCompl ten p.compl n 0)) ∧
      (p.type = 5 → exec (.waitallPacket ten q) s = .next s')) ∧
    (∀ key l, s.byKey ten key = some l → s.alive ten = true →
      (l.started = false → l.deps.all (s.depMet ten) = true →
        ((∃ d ∈ l.dies, (s.die d).largestWindow < l.pool) → exec (.launchStart ten key) s = .next (s.endLaunch l 2)) ∧
        ((∀ d ∈ l.dies, l.pool ≤ (s.die d).largestWindow) → s.svcFail = true → s.svclvl < l.svc →
          exec (.launchStart ten key) s = .next (s.endLaunch l 3)) ∧
        ((∀ d ∈ l.dies, l.pool ≤ (s.die d).largestWindow) → s.canStart l = true →
          let n := (s.tenancy ten).lids % (2 ^ 32 - 1) + 1
          exec (.launchStart ten key) s = .next ((s.modTenancy ten (fun x => { x with lids := n })).modKey ten key
            (fun l => { l with started := true, lid := n })))) ∧
      (l.finished = true →
        (l.outcome = 8 → l.rerun = true → l.again = false →
          exec (.launchComplete ten key) s = .next (s.modKey ten key (fun l => l.rerunOf s.tbase))) ∧
        (l.outcome ≠ 8 ∨ l.rerun = false ∨ l.again = true → exec (.launchComplete ten key) s = .next (s.endLaunch l l.outcome)))) ∧
    (∀ lid d base choice l, s.launch ten lid = some l → l.started = true → s.alive ten = true → (s.die d).halted = none → d ∈ l.dies →
      (∀ r ∈ (s.die d).waiting, r.ten ≠ ten) →
      (tfind l.window d = none → s.windowFree d base l.pool = true →
        exec (.recordCreate ten lid d base choice) s = .next (s.reserveWindow l d base)) ∧
      ((∀ k ∈ l.dies, (tfind l.window k).isSome = true) → exec (.recordCreate ten lid d base choice) s = .next (s.createRec l d choice))) ∧
    (∀ lid l, s.launch ten lid = some l →
      let put (t : State) (late : Nat) : State := t.modTenancy ten (fun x =>
        { x with lctl := BitVec.ofNat 64 (2 ^ 62 + 2 ^ 61 + late * 2 ^ 60 + lid % 2 ^ 32) })
      (l.started = true → l.switch = none → exec (.cancel ten lid) s =
        .next (put ((s.dropRecsOf ten lid).endLaunch l (if l.status = 0 then 5 else min l.status 5)) 0)) ∧
      (l.switch.isSome = true → exec (.cancel ten lid) s = .next (put s 1))) ∧
    (∀ x, (s.die 0).halted = none → tfind (s.tenancy ten).queues q = some x →
      ∃ t, exec (.priorityAgeing ten q) s = .next t ∧ tfind (t.tenancy ten).queues q = some (x.age s.tbase) ∧
        t.launches = s.launches.map (fun l => if l.ten = ten ∧ l.queue = q then l.age s.tbase else l)) ∧
    (∀ key, ∃ t, exec (.budgetExpiry ten key) s = .next t ∧
      ∀ l, s.byKey ten key = some l → t.byKey ten key = some (match l.switch with
        | none => l
        | some k => if l.budget ≠ 0 ∧ k + 2 ^ l.budget ≤ s.tbase then { l with overrun := true } else l))

/-- R216, R217, R221, R222, R341, R364, R373, R375 to R377, R385 and R392: the writes that the host makes to registers, and what the table-update
engine, a page release, a kill and a reset of a tenancy do. That a write of TUE_RBASE begins the ring again, with its next command the first
and TUE_DONE at 0, is the model's inference (log 35). -/
def Obligations.TenancyAndRegisterEvents : Prop :=
  ∀ (s : State) (ten d : Nat) (v : Word),
    exec (.tenancyKill ten) s = .next (s.doomTenancy ten) ∧
    (∃ t, exec (.pageRelease ten v) s = .next t ∧ (t.tenancy ten).pgrel = (v &&& 0x00FFFFFFFFFF0001) ∧
      ∀ x ∈ (t.die d).posted, x ∈ (s.die d).posted ∧ ¬(x.1 = ten ∧ (v.getLsbD 0 = true ∨ x.2 % 2 ^ 40 = v.toNat / 2 ^ 16 % 2 ^ 40))) ∧
    (∀ q, q < 16 → exec (.queueEnable ten q v) s =
      .next ((s.modTenancy ten (fun x => { x with queues := tput x.queues q ((tget x.queues {} q).control v) })).noteQueues ten)) ∧
    (∀ q slot hdr base log2 dev w r, s.queueOf ten q = some (base, log2, dev, w, r) →
      let va := base + 64 * (slot % 2 ^ log2)
      s.agentWaits ten .write va 8 = false → exec (.notifyWrite ten q slot hdr) s =
        .next ((s.agentStore none ten 0 va 8 hdr.toNat).noteQueues ten)) ∧
    (s.pkg.hostUp = true → exec (.tcbResetUnfreeze ten) s = .next ((s.modTenancy ten (fun x => { x with frozen := false })).noteQueues ten)) ∧
    (∃ t, exec (.tcbResetKill ten) s = .next t ∧
      t.tenancy ten = { frozen := (s.tenancy ten).frozen && !s.pkg.hostUp } ∧
      ∀ k b, (tget (t.die k).boards {} b).en = true → (tget (t.die k).boards {} b).ten ≠ ten) ∧
    exec (.tueRbaseWrite v) s = .next { s with pkg := { s.pkg with tueRbase := v, tueNext := 1, tueDone := 0 } } ∧
    ((∀ k, k < 4 → (s.die k).halted = none) → ∀ x, s.tueHead = some x → x.bad s.pkg.tueNext = false →
      (x.op = 1 → exec .tueWrite s = .next (((((s.tableStore 0 x.target x.value).tableStore 1 x.target x.value).tableStore 2 x.target
        x.value).tableStore 3 x.target x.value).tueDone false)) ∧
      (x.op = 2 → 0 < x.value → exec .flushva s =
        .next (s.flush x.ten (x.target / 2 ^ 16 * 2 ^ 16) ((x.value + 65535) / 65536 * 65536))) ∧
      (x.op = 3 → exec .flushten s = .next (s.flush x.ten 0 (2 ^ 64)))) ∧
    ((s.die d).recs = [] → s.windowsOn d = [] → (∀ p ∈ s.cores, p.1 / 128 = d → p.2.residents = []) → exec (.recareaWrite d v) s =
      .next (s.modDie d (fun x => { x with recarea := (v &&& 0xFFF0000) ||| BitVec.ofNat 64 (max 1 (v.toNat % 2 ^ 12)) }))) ∧
    exec (.tablebaseWrite d v) s = .next (s.modDie d (fun x => { x with tablebase := v &&& 0x3FFFFF0000 })) ∧
    exec (.xdtoWrite v) s = .next { s with pkg := { s.pkg with xdto := min 10000 (max 1 (v.toNat % 2 ^ 14)) } } ∧
    exec (.keydatWrite v) s = .next { s with pkg := { s.pkg with
      keymap := tset s.pkg.keymap 0 s.pkg.keyidx.toNat (v &&& 0x80FF000000000000) } } ∧
    (∀ off, off < 0x20000 ∨ 0x31000 ≤ off → exec (.regWrite 0 off v) s = .next { s with pkg := s.pkg.regWrite off v }) ∧
    (∀ t off, t ≤ 16 → off < 0x1000 → exec (.regWrite 0 (0x20000 + 0x1000 * t + off) v) s =
      .next (s.modTenancy t (fun x => x.regWrite true off v))) ∧
    (∀ off, 1 ≤ ten → ten ≤ 16 → off < 0x1000 → exec (.regWrite ten off v) s = .next (s.modTenancy ten (fun x => x.regWrite false off v))) ∧
    (∀ m, m < 64 → ∃ t, exec (.routeTableWrite m v) s = .next t ∧ tget t.pkg.route 0 m = (v &&& 0x800000000000000F) ∧
      (v.getLsbD 63 = true → (tget s.pkg.route 0 m).getLsbD 63 = false → ∀ n, n % 128 = 64 + m → tget t.pkg.reqSeq 0 n = 0))

/-- R372 to R374, R377 to R382, R385 and R387: the host's accesses, a peer's requests, and what befalls links: a read answers with the bytes, a write
changes its bytes, a read of a register answers with its value; a request under a key not bound is refused, and a peer's load, store or atomic
is applied once; a lost lane, a retrain, its timeout, the loss of a peer or the host, and their return. That queue-timeline entries which the
host could not be sent are written when a link is up again, or its loss declared, is the model's choice (log 128). -/
def Obligations.HostAndFabricEvents : Prop :=
  ∀ (s : State) (fn m port : Nat),
    (∀ va n v ps, s.pkg.hostUp = true → s.pkg.hostHeld = none → fn ≤ 16 →
      let s' := s.agentWalks fn va n
      (s'.agentRange fn .read va n = .ok ps → exec (.hostAccess fn va n .read v) s =
        .next ((s'.partsFill ps).replyHost false false (s'.partsVal ps))) ∧
      (s'.agentRange fn .write va n = .ok ps →
        exec (.hostAccess fn va n .write v) s = .next (((s'.partsFill ps).partsStore ps v).noteQueues fn)) ∧
      (∀ r, s'.agentRange fn .read va n = .error (.fail r) →
        exec (.hostAccess fn va n .read v) s = .next (s'.replyHost true false (2 ^ (8 * n) - 1))) ∧
      (∀ r, s'.agentRange fn .write va n = .error (.fail r) → exec (.hostAccess fn va n .write v) s = .next s') ∧
      exec (.hostAccess fn va n .regRead v) s = .next (s.replyHost false false (s.regRead fn va))) ∧
    (∀ key req, (tget s.pkg.keymap 0 key).getLsbD 63 = false → exec (.fabricRequestIn key req) s = .next (s.replyPeer (match req with
      | .board _ _ _ _ _ _ => 4
      | _ => 12) [])) ∧
    (∀ ten va n ps v,
      (s.agentRange ten .read va n = .ok ps → s.applyPeer ten (.load va n) = (s.partsFill ps).replyPeer 0 [s.partsVal ps]) ∧
      (s.agentRange ten .write va n = .ok ps → s.applyPeer ten (.store va n v) =
        (((s.partsFill ps).partsStore ps v).noteQueues ten).replyPeer 0 []) ∧
      (∀ op u tag pa, s.agentRange ten .atomic va n = .ok ps → ps.map Prod.fst = [pa] → ownHome ps = true → tag.replay = false →
        accRefused (.atom op) pa = none →
        let new := atomNew op (8 * n) (s.partsVal ps) v u
        s.applyPeer ten (.atomic op va n v u tag) = (((s.partsFill ps).partsStore ps new.1).keepReply (homeDie pa) (tagSource tag) tag.seq
          [0, s.partsVal ps, if new.2 then 1 else 0]).replyPeer 0 [s.partsVal ps, if new.2 then 1 else 0])) ∧
    (∀ key req, let e := tget s.pkg.keymap 0 key
      e.getLsbD 63 = true → exec (.fabricRequestIn key req) s = .next (s.applyPeer (e.toNat / 2 ^ 48 % 2 ^ 8) req)) ∧
    (s.pkg.hostUp = true → ∀ page, s.hostPending fn page = false → exec (.atsInvalidate fn page) s =
      .next { s with pkg := { s.pkg with ats := tset s.pkg.ats 0 fn (tget s.pkg.ats 0 fn + 1) } }) ∧
    exec (.peerLoss m) s = .next (s.loseModule m).writeQlines ∧
    (m < 64 → exec (.peerRemoveDeclare m) s = .next (s.loseModule m).writeQlines) ∧
    (m < 64 → (tget s.pkg.route 0 m).getLsbD 63 = true → ∀ t, s.loseModule m = t → (tget t.pkg.route 0 m).getLsbD 63 = false ∧
      ∀ c, c < 16 → (tget t.pkg.pod 0 (2 * c + 1)).getLsbD m = false) ∧
    (s.pkg.hostUp = true → (s.loseModule 64).pkg.hostUp = false ∧ ∀ ten, ten ≤ 16 → ((s.loseModule 64).tenancy ten).frozen = true) ∧
    (s.pkg.hostUp = false → exec .hostLinkReturn s =
      .next { s with pkg := { s.pkg with hostUp := true, hostHeld := none, hostNarrow := false } }) ∧
    (let w := s.pkg.lane port
     let fault := w % 16
     let h := s.beginHold port
     (tfind s.pkg.portHeld port = none → h = { s with pkg := { s.pkg with portHeld := tput s.pkg.portHeld port s.tbase } }) ∧
     (w.testBit 7 = false → exec (.linkUp port) s = .next { s with pkg := s.pkg.setLane port true false fault }.writeQlines) ∧
     (w.testBit 7 = true → w.testBit 6 = false →
       let retrains : Host.Outcome State Fault Refusal := .next { h with pkg := h.pkg.setLane port true true fault }
       exec (.linkRetrain port) s = retrains ∧ (∀ l, l < 9 → fault ≠ 15 → fault ≠ l → exec (.laneFault port l) s = retrains)) ∧
     (w.testBit 7 = true → ∀ l, l < 9 → fault = 15 → exec (.laneFault port l) s =
       let t := if w.testBit 6 then s else h
       .next { t with pkg := t.pkg.setLane port true (w.testBit 6) l }) ∧
     (w.testBit 7 = true → exec (.flitReplay port) s = .next { s with pkg := { s.pkg with
       replayed := tset s.pkg.replayed 0 port (tget s.pkg.replayed 0 port + 1) } }) ∧
     (∀ k, tfind s.pkg.portHeld port = some k → (w.testBit 6 = true → s.tbase ≤ k + 150000) →
       let e := s.endHold port
       tfind e.pkg.portHeld port = none ∧ e.mem = s.mem ∧
       exec (.linkRetrainComplete port) s = .next { e with pkg := e.pkg.setLane port true false fault }.writeQlines) ∧
     (w.testBit 7 = true → exec (.retrainTimeout port) s = .next (((List.range 64).filter (s.routed port)).foldl State.loseModule { s with
         pkg := { s.pkg.setLane port false false fault with portHeld := terase s.pkg.portHeld port } }).writeQlines)) ∧
    (s.pkg.hostUp = true → s.pkg.hostHeld = none → exec .pcieLinkDegrade s = .next { s with pkg := { s.pkg with hostHeld := some s.tbase } }) ∧
    (∀ k, s.pkg.hostHeld = some k →
      let t := s.shiftModules (fun m => m == 64) (min (s.tbase - k) 150000)
      t.mem = s.mem ∧
      exec .pcieRetrainComplete s = .next { t with pkg := { t.pkg with hostHeld := none, hostNarrow := true } }.writeQlines)

/-- R336 to R339, R346 to R348, R350, R354 and R355: errors and records: an error consumed dooms its tenancy, a corrected one and a scrub post
records, pairs check, mismatch and come back, a pass over a cluster drains it, tests it and replaces a failed core or loses it, and a die's
records go to the host in order. The model's inferences: which die passes next and when (log 36), that a pair returns to service 256 cycles
after its mismatch and once its cluster is vacant (log 84), and that no record goes while a tenancy is frozen (log 141). -/
def Obligations.ReliabilityEvents : Prop :=
  ∀ (s : State) (d cl : Nat),
    (∀ ten lid cls agent pa va, (cls = 1 ∨ cls = 2) →
      exec (.ueConsume ten lid cls agent pa va) s = .next ((s.poisonUnit (pa / 64)).consumeAt ten lid cls agent pa va) ∧
      pa / 64 ∈ (s.poisonUnit (pa / 64)).poison) ∧
    (∀ ten lid agent pa va, exec (.ueConsume ten lid 5 agent pa va) s = .next ((s.poisonLine (pa / 64)).consumeAt ten lid 5 agent pa va)) ∧
    (∀ place, exec (.ce d place) s = .next (s.postAt d 0x10 0xFF place)) ∧
    (∀ ce ue, (s.die d).halted = none → (s.die d).scrubbed + s.pkg.scrubint.toNat * 1000000000 ≤ s.tbase →
      ∃ t, exec (.scrub d ce ue) s = .next t ∧ (t.die d).scrubbed = s.tbase ∧ t.mem = s.mem ∧
        (∀ u ∈ ue, unitOn d u = true → u ∈ t.poison) ∧ ∀ u ∈ s.poison, u ∈ t.poison) ∧
    ((s.die d).passCluster = none → s.pkg.fumDie = d → s.pkg.fumLast + s.pkg.passTicks ≤ s.tbase →
      exec (.fumarolePass d) s = .next (s.beginPass d)) ∧
    (∀ t0, (s.die d).passCluster = some (cl, t0) →
      (s.vacant d cl = true → s.enginesDone d cl = true → ∃ t, exec (.fumarolePass d) s = .next t ∧ (t.cluster d cl).drain = .scan s.tbase ∧
        ∀ j, j < 8 → tget (t.cluster d cl).saved [] j = (s.core (128 * d + 8 * cl + j)).sem) ∧
      (t0 + 10000000 ≤ s.tbase → ∃ t, exec (.fumaroleAbandon d) s = .next t ∧ (t.cluster d cl).drain = .none)) ∧
    (∀ failed t0, (s.cluster d cl).drain = .scan t0 → ∃ t, exec (.scanSelfTestComplete d cl failed) s = .next t ∧
      (t.cluster d cl).drain = .none ∧ (t.cluster d cl).pending = [] ∧ (8 ∈ failed → (t.cluster d cl).spareUsed = true) ∧
      ((∀ j, j < 8 → (s.cluster d cl).physOf j ∉ failed ++ (s.cluster d cl).pending) → (t.cluster d cl).phys = (s.cluster d cl).phys)) ∧
    (∀ failed, (s.cluster d cl).drain = .none → exec (.scanSelfTestComplete d cl failed) s =
      .next (s.modCluster d cl (fun x => { x with pending := (x.pending ++ failed).eraseDups }))) ∧
    (let x := s.cluster d cl
     x.paired = true →
       (x.retry = none → 256 * (x.ckpt + 1) ≤ s.cyc →
         exec (.pairCheckpoint d cl) s = .next (s.modCluster d cl (fun x => { x with ckpt := s.cyc / 256 }))) ∧
       (x.mism = [] → x.drain = .none → exec (.pairMismatch d cl) s = .next (((s.modCluster d cl (fun x =>
         { x with mism := [s.tbase], retry := some s.cyc })).setDrain d cl (.pair s.tbase)).drainSeats d cl)) ∧
       (∀ a b r, x.mism = a :: b :: r → s.tbase < a + 2 ^ 30 → s.tbase < b + 2 ^ 30 → ∃ t, exec (.pairMismatch d cl) s = .next t ∧
         (t.cluster d cl).pairOut = true ∧ (t.cluster d cl).retry = none)) ∧
    (∀ k t0, (s.cluster d cl).retry = some k → (s.cluster d cl).drain = .pair t0 → s.vacant d cl = true → k + 256 ≤ s.cyc →
      let t := s.modCluster d cl (fun x => { x with retry := none })
      exec (.pairReturnToService d cl) s =
        .next (((t.judgeCluster d cl []).setDrain d cl .none).post d 0x12 0xFF cl 0 [0])) ∧
    (∀ ty ten place, exec (.eventPost d ty ten place) s = .next (s.postAt d ty ten place)) ∧
    ((∃ p ∈ s.tens, p.2.frozen = true) → exec (.eventSend d) s = .next s) ∧
    (∀ r rs, (s.die d).faultBuf = r :: rs → (s.die d).summary.any = false → s.hostSpace = true → s.pkg.hostHeld = none →
      (s.die d).halted = none →
      let sent := (s.emit d r).modDie d (fun x => { x with faultBuf := x.faultBuf.tail }.admitEvent)
      exec (.eventSend d) s = .next sent ∧ exec (.eventRetry d) s = .next sent ∧ sent.pkg.evqWidx = s.pkg.evqWidx + 1)

/-- R212, R213, R386 and R388: a package reset leaves every register at its reset value and memory in canonical form, with HBM as it was and new
keys; bring-up goes up level by level within 30 seconds, once every image is measured and none was refused, and stops when a level fails; images
are measured or refused at level 0; keys are bound. What outlives a reset is the model's reading (log 37), that the images are three and are
measured before the first level is its inference (log 15), that a binding leaves the key's other bindings is too (log 78), and a pool byte that
nothing has written reads 0 by its choice (log 1). -/
def Obligations.PackageEvents : Prop :=
  ∀ (s : State),
    (∃ t, exec .packageReset s = .next t ∧ t.tens = State.reset.tens ∧ t.launches = [] ∧ t.lines = [] ∧ t.svclvl = State.reset.svclvl ∧
      t.iss = none ∧ t.tbase = State.reset.tbase ∧ t.pkg = { keygen := s.pkg.keygen + 1 } ∧
      (∀ c, (t.core c).absent = false → t.core c = {}) ∧
      (∀ a, Memory.byte t.mem a = if inPool a = true then 0 else Memory.byte s.mem a)) ∧
    (s.pkg.measured = true ↔ s.pkg.rejected = false ∧ ∀ k, k < 3 → ∃ x ∈ s.pkg.images, x.1 = k) ∧
    (s.svcFail = false → s.pkg.measured = true → s.svclvl < 3 → s.tbase < 30 * 10 ^ 9 →
      exec .bringupLevel s = .next (((({ s with svclvl := s.svclvl + 1 }.relinkDie 0).relinkDie 1).relinkDie 2).relinkDie 3)) ∧
    (s.svclvl < 3 → exec .bringupFail s = .next { s with svcFail := true }) ∧
    (s.svcFail = true ∨ s.pkg.measured = false ∨ 30 * 10 ^ 9 ≤ s.tbase → exec .bringupLevel s = .next s) ∧
    (∀ image digest, s.svclvl = 0 → image < 3 → (∀ x ∈ s.pkg.images, x.1 ≠ image) → exec (.measuredBoot image digest true) s = .next { s with pkg := { s.pkg with images := s.pkg.images ++ [(image, digest)] } } ∧
      exec (.measuredBoot image digest false) s = .next { s with pkg := { s.pkg with rejected := true } }) ∧
    (∀ key ten, 0 < key → key ≤ 255 → ten ≤ 16 → (key, ten) ∉ s.bound →
      exec (.spdmKeyBind key ten) s = .next { s with bound := (key, ten) :: s.bound })

/-! ## Frames of every syllable, and decoding -/

/-- R11 and R24: a syllable whose guard is false completes and writes no register of any file, no access, no memory and no unit; a source in
capture mode still loads its hold latch, and a branch-class form still asks for its two delay bundles. MACC, MACC.ZG, MACCS and MDRAIN, whose
entries say what a false guard still performs, are stated apart. -/
def Obligations.FalseGuardHasNoEffect : Prop :=
  ∀ (i : Instr) (g : Guard) (s : State) (u : Issue), guardOf i = some g → s.iss = some u → s.guard u g = false →
    (∀ a b, i ≠ .macc g a b ∧ i ≠ .maccZg g a b ∧ i ≠ .maccs g a b ∧ i ≠ .mdrain g a b) →
    ∃ t, exec i s = .next t ∧ t.mem = s.mem ∧ t.dies = s.dies ∧ t.tens = s.tens ∧ t.launches = s.launches ∧ t.lines = s.lines ∧
      t.pkg = s.pkg ∧ (t.iss = s.iss ∨ t.iss = some { u with ctl := .branch none }) ∧
      ∀ c, (∀ j, t.seat c j = { s.seat c j with regs := { (s.seat c j).regs with hl := (t.seat c j).regs.hl } }) ∧
        (t.core c).mx = (s.core c).mx ∧ (t.core c).sem = (s.core c).sem ∧ (t.core c).now = (s.core c).now ∧ (t.core c).chans = (s.core c).chans ∧
        (t.core c).idx = (s.core c).idx ∧ (t.core c).unit = (s.core c).unit

/-- R16 and R106: no syllable changes memory when it issues: stores, atomics and engine commands perform later, each as an event of its own.
COPY and COPYP alone count their command on the COMPL timeline in memory (R182), and for a syllable that reads memory at issue the accesses of its own bundle that precede it perform first (R144, R229; log 110). R16:
a syllable of a bundle that issues changes no register of any file of any seat, nor a trap register, nor a pc: what it writes joins the
results under way of its own seat. Only the hold latches its sources capture change at once (R24). -/
def Obligations.SyllablesStoreAndWriteLater : Prop :=
  (∀ (i : Instr) (g : Guard) (s t : State), guardOf i = some g → exec i s = .next t →
     (∀ d a b c, i ≠ .copy g d a b ∧ i ≠ .copyp g d a b ∧ i ≠ .macc g a b ∧ i ≠ .maccZg g a b ∧
       i ≠ .maccs g a b ∧ i ≠ .mpush g d a b c) → SameMemory s t) ∧
  (∀ (i : Instr) (g : Guard) (s t : State) (u : Issue), guardOf i = some g → s.iss = some u → u.checked = true → exec i s = .next t →
     ∀ c j, (t.seat c j).regs = { (s.seat c j).regs with hl := (t.seat c j).regs.hl } ∧ (t.seat c j).pc = (s.seat c j).pc ∧
       (t.seat c j).trap = (s.seat c j).trap ∧ (t.seat c j).delay = (s.seat c j).delay ∧ (t.seat c j).tm = (s.seat c j).tm ∧
       (c ≠ u.core ∨ j ≠ u.seat → (t.seat c j).regs.hl = (s.seat c j).regs.hl ∧ (t.seat c j).flights = (s.seat c j).flights))

/-- R36 to R52 on words written out from the encoding tables of the spec: each decodes to the instruction it stands for, and words with an
unused opcode, or with a reserved field set, are refused. A sanity statement on fixed words. -/
def Obligations.SpecWordsDecode : Prop :=
  let ctx : DecCtx := ⟨2048, 2048, true, false, 0, 0, false⟩
  let g : Guard := ⟨false, 0⟩
  let reads (slot : Slot) (w : Word) (i : Instr) : Prop := ∃ x, decodeSyl ctx slot w none = .ok x ∧ x.instr = i
  let refuses (slot : Slot) (w : Word) (info : Nat) : Prop := ∃ e, decodeSyl ctx slot w none = .error e ∧ e.info0 = info
  reads .c 0x03007E0000000010 (.call g 63 (.short 8)) ∧
  reads .c 0x0500000FC0000000 (.ret g 63) ∧
  reads .c 0x010000013FFFFFF5 (.brq g true 4 (.short 0x1FFFFFFA)) ∧
  reads .i 0x160004000000000A (.li g .i 2 (.short 5)) ∧
  reads .i 0x1400080140400C00 (.bfx g .i 4 5 8 12) ∧
  reads .i 0x3700060140300700 (.agcas g .w64 .relaxed 3 5 6 7) ∧
  reads .j 0x3404080040100300 (.apaddb g .w32 .relaxed 0x204 1 2 3) ∧
  reads .j 0x0200040080000002 (.addi g .j 2 2 (.short 1)) ∧
  reads .f 0x0000060000280000 (.fadd g .f32 .rne 3 0 5) ∧
  reads .v 0x0800150000280080 (.vmul g .v .f32 .rne 10 .fl (.reg 5)) ∧
  reads .v 0x3600280040100300 (.vdot g .v .bf .rne 20 (.reg 1) (.reg 2) (.reg 3)) ∧
  reads .w 0x38002A0500000000 (.vred g .w .f32 .rne 21 (.reg 20)) ∧
  reads .k 0x0200040A00082400 (.kext g .f .v 2 40 1) ∧
  reads .x 0x0000060000280001 (.xadd g 3 0 (.lit 5)) ∧
  reads .s 0x0400020080000000 (.scheck g 1 2) ∧
  reads .e 0x0902060100280600 (.bpost g 0x103 4 5 6) ∧
  reads .e 0x0D000A01C0000000 (.barr g 5 7) ∧
  reads .e 0x1400040000000080 (.csrrd g 2 (.short 0x40)) ∧
  reads .e 0x07000A00C0000001 (.semsig g true 5 3 (.short 0)) ∧
  reads .m 0x0000000001100000 (.mcfg g 0x22 0) ∧
  reads .m 0x0200000000080000 (.macc g 0 1) ∧
  reads .m 0x0500020300280000 (.mpush g 1 12 5 0) ∧
  refuses .c 0x0C00000000000000 0x0001 ∧
  refuses .c 0x0800000000000001 0x6002 ∧
  refuses .s 0x0600000000000000 0x0801
end

