-- ==== Sys2Proof/Laws/Memory.lean ====
section
/-! SUPPORT. Laws of tables and of memory: an entry read after a write, the canonical form kept by every operation, equal memories
equal data, and little-endian reads and writes of several bytes. -/

namespace Sys2Proof

set_option Elab.async false

/-! ## Tables -/

@[simp] theorem tget_nil {α : Type} (d : α) (k : Nat) : tget [] d k = d := rfl

theorem tget_terase {α : Type} (t : Tab α) (d : α) (k k' : Nat) : tget (terase t k) d k' = if k' = k then d else tget t d k' := by
  induction t with
  | nil => simp [terase]
  | cons p r ih =>
    obtain ⟨a, v⟩ := p
    by_cases h : a = k
    · subst h
      simp only [terase, if_true, ih, tget]
      by_cases h' : k' = a
      · simp [h']
      · simp [h', Ne.symm h']
    · simp only [terase, if_neg h, tget, ih]
      by_cases h' : a = k'
      · subst h'; simp [h]
      · simp [h']

theorem tget_tinsert {α : Type} (t : Tab α) (d : α) (k : Nat) (v : α) (k' : Nat) (h : ∀ p ∈ t, p.1 ≠ k) :
    tget (tinsert t k v) d k' = if k' = k then v else tget t d k' := by
  induction t with
  | nil =>
    simp only [tinsert, tget]
    by_cases e : k = k'
    · simp [e]
    · simp [e, Ne.symm e]
  | cons p r ih =>
    obtain ⟨a, w⟩ := p
    have h1 : a ≠ k := h (a, w) (by simp)
    have h2 := ih (fun p hp => h p (by simp [hp]))
    simp only [tinsert]
    split
    · simp only [tget]
      by_cases e : k = k'
      · simp [e]
      · simp [e, Ne.symm e]
    · simp only [tget, h2]
      by_cases e : a = k'
      · subst e; simp [h1]
      · simp [e]

theorem mem_terase {α : Type} (t : Tab α) (k : Nat) (p : Nat × α) (h : p ∈ terase t k) : p ∈ t ∧ p.1 ≠ k := by
  induction t with
  | nil => simp [terase] at h
  | cons q r ih =>
    obtain ⟨a, v⟩ := q
    simp only [terase] at h
    split at h
    · exact ⟨by simp [(ih h).1], (ih h).2⟩
    · rcases List.mem_cons.mp h with rfl | h
      · exact ⟨by simp, by assumption⟩
      · exact ⟨by simp [(ih h).1], (ih h).2⟩

/-- An entry of a table after one has been set. -/
theorem tget_tset {α : Type} [DecidableEq α] (t : Tab α) (d : α) (k : Nat) (v : α) (k' : Nat) :
    tget (tset t d k v) d k' = if k' = k then v else tget t d k' := by
  unfold tset
  split
  · subst_vars; exact tget_terase t _ k k'
  · rw [tget_tinsert _ d k v k' (fun p hp => (mem_terase t k p hp).2), tget_terase]
    split <;> rfl

/-- An entry of a table after one has been put. -/
theorem tget_tput {α : Type} (t : Tab α) (d : α) (k : Nat) (v : α) (k' : Nat) :
    tget (tput t k v) d k' = if k' = k then v else tget t d k' := by
  unfold tput
  rw [tget_tinsert _ d k v k' (fun p hp => (mem_terase t k p hp).2), tget_terase]
  split <;> rfl

/-- Entries erased twice are erased once. -/
theorem terase_terase {α : Type} (t : Tab α) (k : Nat) : terase (terase t k) k = terase t k := by
  induction t with
  | nil => rfl
  | cons p r ih =>
    obtain ⟨a, v⟩ := p
    simp only [terase]
    split
    · exact ih
    · simp_all [terase]

/-- An entry inserted and erased again leaves the table without that key. -/
theorem terase_tinsert {α : Type} (t : Tab α) (k : Nat) (v : α) : terase (tinsert t k v) k = terase t k := by
  induction t with
  | nil => simp [tinsert, terase]
  | cons p r ih =>
    obtain ⟨a, w⟩ := p
    simp only [tinsert]
    split
    · simp [terase]
    · simp only [terase, ih]

/-- Of two entries put at one key the later stays. -/
theorem tput_tput {α : Type} (t : Tab α) (k : Nat) (v w : α) : tput (tput t k v) k w = tput t k w := by
  unfold tput
  rw [terase_tinsert, terase_terase]

/-! ## The canonical form -/

theorem twf_cons {α : Type} [DecidableEq α] (k : Nat) (v : α) (r : Tab α) (d : α) :
    twf ((k, v) :: r) d = true ↔ v ≠ d ∧ (∀ p ∈ r, k < p.1) ∧ twf r d = true := by
  simp [twf, and_assoc]

theorem twf_terase {α : Type} [DecidableEq α] (t : Tab α) (d : α) (k : Nat) (h : twf t d = true) : twf (terase t k) d = true := by
  induction t with
  | nil => exact h
  | cons p r ih =>
    obtain ⟨a, v⟩ := p
    obtain ⟨h1, h2, h3⟩ := (twf_cons a v r d).mp h
    simp only [terase]
    split
    · exact ih h3
    · exact (twf_cons _ _ _ _).mpr ⟨h1, fun p hp => h2 p (mem_terase r k p hp).1, ih h3⟩

theorem mem_tinsert {α : Type} (t : Tab α) (k : Nat) (v : α) (p : Nat × α) (h : p ∈ tinsert t k v) : p = (k, v) ∨ p ∈ t := by
  induction t with
  | nil => simpa [tinsert] using h
  | cons q r ih =>
    obtain ⟨a, w⟩ := q
    simp only [tinsert] at h
    split at h
    · simpa using h
    · rcases List.mem_cons.mp h with rfl | h
      · simp
      · rcases ih h with h | h <;> simp [h]

theorem twf_tinsert {α : Type} [DecidableEq α] (t : Tab α) (d : α) (k : Nat) (v : α) (h : twf t d = true) (hv : v ≠ d)
    (hk : ∀ p ∈ t, p.1 ≠ k) : twf (tinsert t k v) d = true := by
  induction t with
  | nil => simp [tinsert, twf, hv]
  | cons p r ih =>
    obtain ⟨a, w⟩ := p
    obtain ⟨h1, h2, h3⟩ := (twf_cons a w r d).mp h
    have hak : a ≠ k := hk (a, w) (by simp)
    simp only [tinsert]
    split
    · refine (twf_cons _ _ _ _).mpr ⟨hv, fun p hp => ?_, h⟩
      rcases List.mem_cons.mp hp with rfl | hp
      · assumption
      · exact Nat.lt_trans (by assumption) (h2 p hp)
    · refine (twf_cons _ _ _ _).mpr ⟨h1, fun p hp => ?_, ih h3 (fun p hp => hk p (by simp [hp]))⟩
      rcases mem_tinsert r k v p hp with rfl | hp
      · simp only; omega
      · exact h2 p hp

/-- Setting an entry keeps the canonical form. -/
theorem twf_tset {α : Type} [DecidableEq α] (t : Tab α) (d : α) (k : Nat) (v : α) (h : twf t d = true) : twf (tset t d k v) d = true := by
  unfold tset
  split
  · exact twf_terase t d k h
  · exact twf_tinsert _ d k v (twf_terase t d k h) (by assumption) (fun p hp => (mem_terase t k p hp).2)

theorem twf_filter {α : Type} [DecidableEq α] (t : Tab α) (d : α) (q : Nat × α → Bool) (h : twf t d = true) : twf (t.filter q) d = true := by
  induction t with
  | nil => exact h
  | cons p r ih =>
    obtain ⟨a, v⟩ := p
    obtain ⟨h1, h2, h3⟩ := (twf_cons a v r d).mp h
    simp only [List.filter_cons]
    split
    · exact (twf_cons _ _ _ _).mpr ⟨h1, fun p hp => h2 p (List.mem_of_mem_filter hp), ih h3⟩
    · exact ih h3

theorem tget_absent {α : Type} (t : Tab α) (d : α) (k : Nat) (h : ∀ p ∈ t, p.1 ≠ k) : tget t d k = d := by
  induction t with
  | nil => rfl
  | cons p r ih =>
    obtain ⟨a, v⟩ := p
    simp only [tget, if_neg (h (a, v) (by simp))]
    exact ih (fun p hp => h p (by simp [hp]))

/-! ## Bytes -/

/-- A byte of memory after a little-endian write of n bytes (R4). -/
theorem byte_leWrite (m : Tab Byte) (a n v b : Nat) :
    tget (leWrite m a n v) Config.blank b
      = if a ≤ b ∧ b < a + n then BitVec.ofNat 8 (v / 256 ^ (b - a)) else tget m Config.blank b := by
  induction n generalizing m a v with
  | zero => simp only [leWrite]; rw [if_neg (by omega)]
  | succ n ih =>
    simp only [leWrite, ih, tget_tset]
    by_cases h : b = a
    · subst h
      rw [if_neg (by omega), if_pos rfl, if_pos (by omega)]
      simp
    · by_cases h' : a + 1 ≤ b ∧ b < a + 1 + n
      · rw [if_pos h', if_pos (by omega), Nat.div_div_eq_div_mul]
        congr 2
        rw [show b - a = (b - (a + 1)) + 1 by omega, Nat.pow_succ, Nat.mul_comm]
      · rw [if_neg h', if_neg h, if_neg (by omega)]

/-- A little-endian write keeps the canonical form. -/
theorem wf_leWrite (m : Tab Byte) (a n v : Nat) (h : Memory.wf m = true) : Memory.wf (leWrite m a n v) = true := by
  induction n generalizing m a v with
  | zero => exact h
  | succ n ih => exact ih _ _ _ (twf_tset m Config.blank a _ h)

/-- A read of bytes that two memories agree on. -/
theorem leRead_congr (m m' : Tab Byte) (a n : Nat) (h : ∀ b, a ≤ b → b < a + n → tget m Config.blank b = tget m' Config.blank b) :
    leRead m a n = leRead m' a n := by
  induction n generalizing a with
  | zero => rfl
  | succ n ih =>
    simp only [leRead]
    rw [h a (Nat.le_refl a) (by omega), ih (a + 1) (fun b h1 h2 => h b (by omega) (by omega))]

/-- What has been written reads back (R4). -/
theorem leRead_leWrite (m : Tab Byte) (a n v : Nat) : leRead (leWrite m a n v) a n = v % 256 ^ n := by
  induction n generalizing m a v with
  | zero => simp [leRead, Nat.mod_one]
  | succ n ih =>
    simp only [leRead, leWrite, ih]
    rw [byte_leWrite, if_neg (by omega), tget_tset, if_pos rfl, BitVec.toNat_ofNat, show 256 ^ (n + 1) = 256 * 256 ^ n by
      rw [Nat.pow_succ, Nat.mul_comm], Nat.mod_mul]

/-- A read apart from the bytes written. -/
theorem leRead_leWrite_apart (m : Tab Byte) (a n v b k : Nat) (h : b + k ≤ a ∨ a + n ≤ b) :
    leRead (leWrite m a n v) b k = leRead m b k := by
  refine leRead_congr _ _ b k (fun x h1 h2 => ?_)
  rw [byte_leWrite, if_neg (by omega)]

/-- Zero-filling keeps the canonical form. -/
theorem wf_zeroFill (m : Tab Byte) (a n : Nat) (h : Memory.wf m = true) : Memory.wf (zeroFill m a n) = true := by
  unfold zeroFill
  simp only []
  split
  · exact twf_filter m _ _ h
  · exact wf_leWrite _ _ _ _ (twf_filter m _ _ h)

end Sys2Proof
end

