-- ==== Sys2Proof/Laws/State.lean ====
section
/-! SUPPORT. Laws of the state's accessors: one lemma for each field and each update, and what the accessors read after an update. -/

namespace Sys2Proof.Machine

set_option Elab.async false

/-! ## setCore -/

@[simp] theorem State.setCore_dies (s : State) (c : Nat) (k : Core) : (s.setCore c k).dies = s.dies := rfl
@[simp] theorem State.setCore_tens (s : State) (c : Nat) (k : Core) : (s.setCore c k).tens = s.tens := rfl
@[simp] theorem State.setCore_launches (s : State) (c : Nat) (k : Core) : (s.setCore c k).launches = s.launches := rfl
@[simp] theorem State.setCore_qcopies (s : State) (c : Nat) (k : Core) : (s.setCore c k).qcopies = s.qcopies := rfl
@[simp] theorem State.setCore_pkg (s : State) (c : Nat) (k : Core) : (s.setCore c k).pkg = s.pkg := rfl
@[simp] theorem State.setCore_mem (s : State) (c : Nat) (k : Core) : (s.setCore c k).mem = s.mem := rfl
@[simp] theorem State.setCore_lines (s : State) (c : Nat) (k : Core) : (s.setCore c k).lines = s.lines := rfl
@[simp] theorem State.setCore_keys (s : State) (c : Nat) (k : Core) : (s.setCore c k).keys = s.keys := rfl
@[simp] theorem State.setCore_poison (s : State) (c : Nat) (k : Core) : (s.setCore c k).poison = s.poison := rfl
@[simp] theorem State.setCore_bound (s : State) (c : Nat) (k : Core) : (s.setCore c k).bound = s.bound := rfl
@[simp] theorem State.setCore_tbase (s : State) (c : Nat) (k : Core) : (s.setCore c k).tbase = s.tbase := rfl
@[simp] theorem State.setCore_subTick (s : State) (c : Nat) (k : Core) : (s.setCore c k).subTick = s.subTick := rfl
@[simp] theorem State.setCore_cyc (s : State) (c : Nat) (k : Core) : (s.setCore c k).cyc = s.cyc := rfl
@[simp] theorem State.setCore_svclvl (s : State) (c : Nat) (k : Core) : (s.setCore c k).svclvl = s.svclvl := rfl
@[simp] theorem State.setCore_svcFail (s : State) (c : Nat) (k : Core) : (s.setCore c k).svcFail = s.svcFail := rfl
@[simp] theorem State.setCore_iss (s : State) (c : Nat) (k : Core) : (s.setCore c k).iss = s.iss := rfl
@[simp] theorem State.setCore_agenda (s : State) (c : Nat) (k : Core) : (s.setCore c k).agenda = s.agenda := rfl
@[simp] theorem State.setCore_free (s : State) (c : Nat) (k : Core) : (s.setCore c k).free = s.free := rfl

/-! ## modCore -/

@[simp] theorem State.modCore_dies (s : State) (c : Nat) (f : Core → Core) : (s.modCore c f).dies = s.dies := rfl
@[simp] theorem State.modCore_tens (s : State) (c : Nat) (f : Core → Core) : (s.modCore c f).tens = s.tens := rfl
@[simp] theorem State.modCore_launches (s : State) (c : Nat) (f : Core → Core) : (s.modCore c f).launches = s.launches := rfl
@[simp] theorem State.modCore_qcopies (s : State) (c : Nat) (f : Core → Core) : (s.modCore c f).qcopies = s.qcopies := rfl
@[simp] theorem State.modCore_pkg (s : State) (c : Nat) (f : Core → Core) : (s.modCore c f).pkg = s.pkg := rfl
@[simp] theorem State.modCore_mem (s : State) (c : Nat) (f : Core → Core) : (s.modCore c f).mem = s.mem := rfl
@[simp] theorem State.modCore_lines (s : State) (c : Nat) (f : Core → Core) : (s.modCore c f).lines = s.lines := rfl
@[simp] theorem State.modCore_keys (s : State) (c : Nat) (f : Core → Core) : (s.modCore c f).keys = s.keys := rfl
@[simp] theorem State.modCore_poison (s : State) (c : Nat) (f : Core → Core) : (s.modCore c f).poison = s.poison := rfl
@[simp] theorem State.modCore_bound (s : State) (c : Nat) (f : Core → Core) : (s.modCore c f).bound = s.bound := rfl
@[simp] theorem State.modCore_tbase (s : State) (c : Nat) (f : Core → Core) : (s.modCore c f).tbase = s.tbase := rfl
@[simp] theorem State.modCore_subTick (s : State) (c : Nat) (f : Core → Core) : (s.modCore c f).subTick = s.subTick := rfl
@[simp] theorem State.modCore_cyc (s : State) (c : Nat) (f : Core → Core) : (s.modCore c f).cyc = s.cyc := rfl
@[simp] theorem State.modCore_svclvl (s : State) (c : Nat) (f : Core → Core) : (s.modCore c f).svclvl = s.svclvl := rfl
@[simp] theorem State.modCore_svcFail (s : State) (c : Nat) (f : Core → Core) : (s.modCore c f).svcFail = s.svcFail := rfl
@[simp] theorem State.modCore_iss (s : State) (c : Nat) (f : Core → Core) : (s.modCore c f).iss = s.iss := rfl
@[simp] theorem State.modCore_agenda (s : State) (c : Nat) (f : Core → Core) : (s.modCore c f).agenda = s.agenda := rfl
@[simp] theorem State.modCore_free (s : State) (c : Nat) (f : Core → Core) : (s.modCore c f).free = s.free := rfl

/-! ## setSeat -/

@[simp] theorem State.setSeat_dies (s : State) (c i : Nat) (t : Seat) : (s.setSeat c i t).dies = s.dies := rfl
@[simp] theorem State.setSeat_tens (s : State) (c i : Nat) (t : Seat) : (s.setSeat c i t).tens = s.tens := rfl
@[simp] theorem State.setSeat_launches (s : State) (c i : Nat) (t : Seat) : (s.setSeat c i t).launches = s.launches := rfl
@[simp] theorem State.setSeat_qcopies (s : State) (c i : Nat) (t : Seat) : (s.setSeat c i t).qcopies = s.qcopies := rfl
@[simp] theorem State.setSeat_pkg (s : State) (c i : Nat) (t : Seat) : (s.setSeat c i t).pkg = s.pkg := rfl
@[simp] theorem State.setSeat_mem (s : State) (c i : Nat) (t : Seat) : (s.setSeat c i t).mem = s.mem := rfl
@[simp] theorem State.setSeat_lines (s : State) (c i : Nat) (t : Seat) : (s.setSeat c i t).lines = s.lines := rfl
@[simp] theorem State.setSeat_keys (s : State) (c i : Nat) (t : Seat) : (s.setSeat c i t).keys = s.keys := rfl
@[simp] theorem State.setSeat_poison (s : State) (c i : Nat) (t : Seat) : (s.setSeat c i t).poison = s.poison := rfl
@[simp] theorem State.setSeat_bound (s : State) (c i : Nat) (t : Seat) : (s.setSeat c i t).bound = s.bound := rfl
@[simp] theorem State.setSeat_tbase (s : State) (c i : Nat) (t : Seat) : (s.setSeat c i t).tbase = s.tbase := rfl
@[simp] theorem State.setSeat_subTick (s : State) (c i : Nat) (t : Seat) : (s.setSeat c i t).subTick = s.subTick := rfl
@[simp] theorem State.setSeat_cyc (s : State) (c i : Nat) (t : Seat) : (s.setSeat c i t).cyc = s.cyc := rfl
@[simp] theorem State.setSeat_svclvl (s : State) (c i : Nat) (t : Seat) : (s.setSeat c i t).svclvl = s.svclvl := rfl
@[simp] theorem State.setSeat_svcFail (s : State) (c i : Nat) (t : Seat) : (s.setSeat c i t).svcFail = s.svcFail := rfl
@[simp] theorem State.setSeat_iss (s : State) (c i : Nat) (t : Seat) : (s.setSeat c i t).iss = s.iss := rfl
@[simp] theorem State.setSeat_agenda (s : State) (c i : Nat) (t : Seat) : (s.setSeat c i t).agenda = s.agenda := rfl
@[simp] theorem State.setSeat_free (s : State) (c i : Nat) (t : Seat) : (s.setSeat c i t).free = s.free := rfl

/-! ## modSeat -/

@[simp] theorem State.modSeat_dies (s : State) (c i : Nat) (f : Seat → Seat) : (s.modSeat c i f).dies = s.dies := rfl
@[simp] theorem State.modSeat_tens (s : State) (c i : Nat) (f : Seat → Seat) : (s.modSeat c i f).tens = s.tens := rfl
@[simp] theorem State.modSeat_launches (s : State) (c i : Nat) (f : Seat → Seat) : (s.modSeat c i f).launches = s.launches := rfl
@[simp] theorem State.modSeat_qcopies (s : State) (c i : Nat) (f : Seat → Seat) : (s.modSeat c i f).qcopies = s.qcopies := rfl
@[simp] theorem State.modSeat_pkg (s : State) (c i : Nat) (f : Seat → Seat) : (s.modSeat c i f).pkg = s.pkg := rfl
@[simp] theorem State.modSeat_mem (s : State) (c i : Nat) (f : Seat → Seat) : (s.modSeat c i f).mem = s.mem := rfl
@[simp] theorem State.modSeat_lines (s : State) (c i : Nat) (f : Seat → Seat) : (s.modSeat c i f).lines = s.lines := rfl
@[simp] theorem State.modSeat_keys (s : State) (c i : Nat) (f : Seat → Seat) : (s.modSeat c i f).keys = s.keys := rfl
@[simp] theorem State.modSeat_poison (s : State) (c i : Nat) (f : Seat → Seat) : (s.modSeat c i f).poison = s.poison := rfl
@[simp] theorem State.modSeat_bound (s : State) (c i : Nat) (f : Seat → Seat) : (s.modSeat c i f).bound = s.bound := rfl
@[simp] theorem State.modSeat_tbase (s : State) (c i : Nat) (f : Seat → Seat) : (s.modSeat c i f).tbase = s.tbase := rfl
@[simp] theorem State.modSeat_subTick (s : State) (c i : Nat) (f : Seat → Seat) : (s.modSeat c i f).subTick = s.subTick := rfl
@[simp] theorem State.modSeat_cyc (s : State) (c i : Nat) (f : Seat → Seat) : (s.modSeat c i f).cyc = s.cyc := rfl
@[simp] theorem State.modSeat_svclvl (s : State) (c i : Nat) (f : Seat → Seat) : (s.modSeat c i f).svclvl = s.svclvl := rfl
@[simp] theorem State.modSeat_svcFail (s : State) (c i : Nat) (f : Seat → Seat) : (s.modSeat c i f).svcFail = s.svcFail := rfl
@[simp] theorem State.modSeat_iss (s : State) (c i : Nat) (f : Seat → Seat) : (s.modSeat c i f).iss = s.iss := rfl
@[simp] theorem State.modSeat_agenda (s : State) (c i : Nat) (f : Seat → Seat) : (s.modSeat c i f).agenda = s.agenda := rfl
@[simp] theorem State.modSeat_free (s : State) (c i : Nat) (f : Seat → Seat) : (s.modSeat c i f).free = s.free := rfl

/-! ## setDie -/

@[simp] theorem State.setDie_cores (s : State) (d : Nat) (x : Die) : (s.setDie d x).cores = s.cores := rfl
@[simp] theorem State.setDie_tens (s : State) (d : Nat) (x : Die) : (s.setDie d x).tens = s.tens := rfl
@[simp] theorem State.setDie_launches (s : State) (d : Nat) (x : Die) : (s.setDie d x).launches = s.launches := rfl
@[simp] theorem State.setDie_qcopies (s : State) (d : Nat) (x : Die) : (s.setDie d x).qcopies = s.qcopies := rfl
@[simp] theorem State.setDie_pkg (s : State) (d : Nat) (x : Die) : (s.setDie d x).pkg = s.pkg := rfl
@[simp] theorem State.setDie_mem (s : State) (d : Nat) (x : Die) : (s.setDie d x).mem = s.mem := rfl
@[simp] theorem State.setDie_lines (s : State) (d : Nat) (x : Die) : (s.setDie d x).lines = s.lines := rfl
@[simp] theorem State.setDie_keys (s : State) (d : Nat) (x : Die) : (s.setDie d x).keys = s.keys := rfl
@[simp] theorem State.setDie_poison (s : State) (d : Nat) (x : Die) : (s.setDie d x).poison = s.poison := rfl
@[simp] theorem State.setDie_bound (s : State) (d : Nat) (x : Die) : (s.setDie d x).bound = s.bound := rfl
@[simp] theorem State.setDie_tbase (s : State) (d : Nat) (x : Die) : (s.setDie d x).tbase = s.tbase := rfl
@[simp] theorem State.setDie_subTick (s : State) (d : Nat) (x : Die) : (s.setDie d x).subTick = s.subTick := rfl
@[simp] theorem State.setDie_cyc (s : State) (d : Nat) (x : Die) : (s.setDie d x).cyc = s.cyc := rfl
@[simp] theorem State.setDie_svclvl (s : State) (d : Nat) (x : Die) : (s.setDie d x).svclvl = s.svclvl := rfl
@[simp] theorem State.setDie_svcFail (s : State) (d : Nat) (x : Die) : (s.setDie d x).svcFail = s.svcFail := rfl
@[simp] theorem State.setDie_iss (s : State) (d : Nat) (x : Die) : (s.setDie d x).iss = s.iss := rfl
@[simp] theorem State.setDie_agenda (s : State) (d : Nat) (x : Die) : (s.setDie d x).agenda = s.agenda := rfl
@[simp] theorem State.setDie_free (s : State) (d : Nat) (x : Die) : (s.setDie d x).free = s.free := rfl

/-! ## modDie -/

@[simp] theorem State.modDie_cores (s : State) (d : Nat) (f : Die → Die) : (s.modDie d f).cores = s.cores := rfl
@[simp] theorem State.modDie_tens (s : State) (d : Nat) (f : Die → Die) : (s.modDie d f).tens = s.tens := rfl
@[simp] theorem State.modDie_launches (s : State) (d : Nat) (f : Die → Die) : (s.modDie d f).launches = s.launches := rfl
@[simp] theorem State.modDie_qcopies (s : State) (d : Nat) (f : Die → Die) : (s.modDie d f).qcopies = s.qcopies := rfl
@[simp] theorem State.modDie_pkg (s : State) (d : Nat) (f : Die → Die) : (s.modDie d f).pkg = s.pkg := rfl
@[simp] theorem State.modDie_mem (s : State) (d : Nat) (f : Die → Die) : (s.modDie d f).mem = s.mem := rfl
@[simp] theorem State.modDie_lines (s : State) (d : Nat) (f : Die → Die) : (s.modDie d f).lines = s.lines := rfl
@[simp] theorem State.modDie_keys (s : State) (d : Nat) (f : Die → Die) : (s.modDie d f).keys = s.keys := rfl
@[simp] theorem State.modDie_poison (s : State) (d : Nat) (f : Die → Die) : (s.modDie d f).poison = s.poison := rfl
@[simp] theorem State.modDie_bound (s : State) (d : Nat) (f : Die → Die) : (s.modDie d f).bound = s.bound := rfl
@[simp] theorem State.modDie_tbase (s : State) (d : Nat) (f : Die → Die) : (s.modDie d f).tbase = s.tbase := rfl
@[simp] theorem State.modDie_subTick (s : State) (d : Nat) (f : Die → Die) : (s.modDie d f).subTick = s.subTick := rfl
@[simp] theorem State.modDie_cyc (s : State) (d : Nat) (f : Die → Die) : (s.modDie d f).cyc = s.cyc := rfl
@[simp] theorem State.modDie_svclvl (s : State) (d : Nat) (f : Die → Die) : (s.modDie d f).svclvl = s.svclvl := rfl
@[simp] theorem State.modDie_svcFail (s : State) (d : Nat) (f : Die → Die) : (s.modDie d f).svcFail = s.svcFail := rfl
@[simp] theorem State.modDie_iss (s : State) (d : Nat) (f : Die → Die) : (s.modDie d f).iss = s.iss := rfl
@[simp] theorem State.modDie_agenda (s : State) (d : Nat) (f : Die → Die) : (s.modDie d f).agenda = s.agenda := rfl
@[simp] theorem State.modDie_free (s : State) (d : Nat) (f : Die → Die) : (s.modDie d f).free = s.free := rfl

/-! ## setTenancy -/

@[simp] theorem State.setTenancy_cores (s : State) (n : Nat) (x : Tenancy) : (s.setTenancy n x).cores = s.cores := rfl
@[simp] theorem State.setTenancy_dies (s : State) (n : Nat) (x : Tenancy) : (s.setTenancy n x).dies = s.dies := rfl
@[simp] theorem State.setTenancy_launches (s : State) (n : Nat) (x : Tenancy) : (s.setTenancy n x).launches = s.launches := rfl
@[simp] theorem State.setTenancy_qcopies (s : State) (n : Nat) (x : Tenancy) : (s.setTenancy n x).qcopies = s.qcopies := rfl
@[simp] theorem State.setTenancy_pkg (s : State) (n : Nat) (x : Tenancy) : (s.setTenancy n x).pkg = s.pkg := rfl
@[simp] theorem State.setTenancy_mem (s : State) (n : Nat) (x : Tenancy) : (s.setTenancy n x).mem = s.mem := rfl
@[simp] theorem State.setTenancy_lines (s : State) (n : Nat) (x : Tenancy) : (s.setTenancy n x).lines = s.lines := rfl
@[simp] theorem State.setTenancy_keys (s : State) (n : Nat) (x : Tenancy) : (s.setTenancy n x).keys = s.keys := rfl
@[simp] theorem State.setTenancy_poison (s : State) (n : Nat) (x : Tenancy) : (s.setTenancy n x).poison = s.poison := rfl
@[simp] theorem State.setTenancy_bound (s : State) (n : Nat) (x : Tenancy) : (s.setTenancy n x).bound = s.bound := rfl
@[simp] theorem State.setTenancy_tbase (s : State) (n : Nat) (x : Tenancy) : (s.setTenancy n x).tbase = s.tbase := rfl
@[simp] theorem State.setTenancy_subTick (s : State) (n : Nat) (x : Tenancy) : (s.setTenancy n x).subTick = s.subTick := rfl
@[simp] theorem State.setTenancy_cyc (s : State) (n : Nat) (x : Tenancy) : (s.setTenancy n x).cyc = s.cyc := rfl
@[simp] theorem State.setTenancy_svclvl (s : State) (n : Nat) (x : Tenancy) : (s.setTenancy n x).svclvl = s.svclvl := rfl
@[simp] theorem State.setTenancy_svcFail (s : State) (n : Nat) (x : Tenancy) : (s.setTenancy n x).svcFail = s.svcFail := rfl
@[simp] theorem State.setTenancy_iss (s : State) (n : Nat) (x : Tenancy) : (s.setTenancy n x).iss = s.iss := rfl
@[simp] theorem State.setTenancy_agenda (s : State) (n : Nat) (x : Tenancy) : (s.setTenancy n x).agenda = s.agenda := rfl
@[simp] theorem State.setTenancy_free (s : State) (n : Nat) (x : Tenancy) : (s.setTenancy n x).free = s.free := rfl

/-! ## modTenancy -/

@[simp] theorem State.modTenancy_cores (s : State) (n : Nat) (f : Tenancy → Tenancy) : (s.modTenancy n f).cores = s.cores := rfl
@[simp] theorem State.modTenancy_dies (s : State) (n : Nat) (f : Tenancy → Tenancy) : (s.modTenancy n f).dies = s.dies := rfl
@[simp] theorem State.modTenancy_launches (s : State) (n : Nat) (f : Tenancy → Tenancy) : (s.modTenancy n f).launches = s.launches := rfl
@[simp] theorem State.modTenancy_qcopies (s : State) (n : Nat) (f : Tenancy → Tenancy) : (s.modTenancy n f).qcopies = s.qcopies := rfl
@[simp] theorem State.modTenancy_pkg (s : State) (n : Nat) (f : Tenancy → Tenancy) : (s.modTenancy n f).pkg = s.pkg := rfl
@[simp] theorem State.modTenancy_mem (s : State) (n : Nat) (f : Tenancy → Tenancy) : (s.modTenancy n f).mem = s.mem := rfl
@[simp] theorem State.modTenancy_lines (s : State) (n : Nat) (f : Tenancy → Tenancy) : (s.modTenancy n f).lines = s.lines := rfl
@[simp] theorem State.modTenancy_keys (s : State) (n : Nat) (f : Tenancy → Tenancy) : (s.modTenancy n f).keys = s.keys := rfl
@[simp] theorem State.modTenancy_poison (s : State) (n : Nat) (f : Tenancy → Tenancy) : (s.modTenancy n f).poison = s.poison := rfl
@[simp] theorem State.modTenancy_bound (s : State) (n : Nat) (f : Tenancy → Tenancy) : (s.modTenancy n f).bound = s.bound := rfl
@[simp] theorem State.modTenancy_tbase (s : State) (n : Nat) (f : Tenancy → Tenancy) : (s.modTenancy n f).tbase = s.tbase := rfl
@[simp] theorem State.modTenancy_subTick (s : State) (n : Nat) (f : Tenancy → Tenancy) : (s.modTenancy n f).subTick = s.subTick := rfl
@[simp] theorem State.modTenancy_cyc (s : State) (n : Nat) (f : Tenancy → Tenancy) : (s.modTenancy n f).cyc = s.cyc := rfl
@[simp] theorem State.modTenancy_svclvl (s : State) (n : Nat) (f : Tenancy → Tenancy) : (s.modTenancy n f).svclvl = s.svclvl := rfl
@[simp] theorem State.modTenancy_svcFail (s : State) (n : Nat) (f : Tenancy → Tenancy) : (s.modTenancy n f).svcFail = s.svcFail := rfl
@[simp] theorem State.modTenancy_iss (s : State) (n : Nat) (f : Tenancy → Tenancy) : (s.modTenancy n f).iss = s.iss := rfl
@[simp] theorem State.modTenancy_agenda (s : State) (n : Nat) (f : Tenancy → Tenancy) : (s.modTenancy n f).agenda = s.agenda := rfl
@[simp] theorem State.modTenancy_free (s : State) (n : Nat) (f : Tenancy → Tenancy) : (s.modTenancy n f).free = s.free := rfl

/-! ## modLaunch -/

@[simp] theorem State.modLaunch_cores (s : State) (n l : Nat) (f : Launch → Launch) : (s.modLaunch n l f).cores = s.cores := rfl
@[simp] theorem State.modLaunch_dies (s : State) (n l : Nat) (f : Launch → Launch) : (s.modLaunch n l f).dies = s.dies := rfl
@[simp] theorem State.modLaunch_tens (s : State) (n l : Nat) (f : Launch → Launch) : (s.modLaunch n l f).tens = s.tens := rfl
@[simp] theorem State.modLaunch_qcopies (s : State) (n l : Nat) (f : Launch → Launch) : (s.modLaunch n l f).qcopies = s.qcopies := rfl
@[simp] theorem State.modLaunch_pkg (s : State) (n l : Nat) (f : Launch → Launch) : (s.modLaunch n l f).pkg = s.pkg := rfl
@[simp] theorem State.modLaunch_mem (s : State) (n l : Nat) (f : Launch → Launch) : (s.modLaunch n l f).mem = s.mem := rfl
@[simp] theorem State.modLaunch_lines (s : State) (n l : Nat) (f : Launch → Launch) : (s.modLaunch n l f).lines = s.lines := rfl
@[simp] theorem State.modLaunch_keys (s : State) (n l : Nat) (f : Launch → Launch) : (s.modLaunch n l f).keys = s.keys := rfl
@[simp] theorem State.modLaunch_poison (s : State) (n l : Nat) (f : Launch → Launch) : (s.modLaunch n l f).poison = s.poison := rfl
@[simp] theorem State.modLaunch_bound (s : State) (n l : Nat) (f : Launch → Launch) : (s.modLaunch n l f).bound = s.bound := rfl
@[simp] theorem State.modLaunch_tbase (s : State) (n l : Nat) (f : Launch → Launch) : (s.modLaunch n l f).tbase = s.tbase := rfl
@[simp] theorem State.modLaunch_subTick (s : State) (n l : Nat) (f : Launch → Launch) : (s.modLaunch n l f).subTick = s.subTick := rfl
@[simp] theorem State.modLaunch_cyc (s : State) (n l : Nat) (f : Launch → Launch) : (s.modLaunch n l f).cyc = s.cyc := rfl
@[simp] theorem State.modLaunch_svclvl (s : State) (n l : Nat) (f : Launch → Launch) : (s.modLaunch n l f).svclvl = s.svclvl := rfl
@[simp] theorem State.modLaunch_svcFail (s : State) (n l : Nat) (f : Launch → Launch) : (s.modLaunch n l f).svcFail = s.svcFail := rfl
@[simp] theorem State.modLaunch_iss (s : State) (n l : Nat) (f : Launch → Launch) : (s.modLaunch n l f).iss = s.iss := rfl
@[simp] theorem State.modLaunch_agenda (s : State) (n l : Nat) (f : Launch → Launch) : (s.modLaunch n l f).agenda = s.agenda := rfl
@[simp] theorem State.modLaunch_free (s : State) (n l : Nat) (f : Launch → Launch) : (s.modLaunch n l f).free = s.free := rfl

/-! ## What the accessors read after an update -/

@[simp] theorem State.core_setCore (s : State) (c : Nat) (k : Core) (c' : Nat) :
    (s.setCore c k).core c' = if c' = c then k else s.core c' := tget_tput _ _ _ _ _

@[simp] theorem State.core_modCore (s : State) (c : Nat) (f : Core → Core) (c' : Nat) :
    (s.modCore c f).core c' = if c' = c then f (s.core c) else s.core c' := tget_tput _ _ _ _ _

@[simp] theorem State.die_setDie (s : State) (d : Nat) (x : Die) (d' : Nat) : (s.setDie d x).die d' = if d' = d then x else s.die d' :=
  tget_tput _ _ _ _ _

@[simp] theorem State.die_modDie (s : State) (d : Nat) (f : Die → Die) (d' : Nat) :
    (s.modDie d f).die d' = if d' = d then f (s.die d) else s.die d' := tget_tput _ _ _ _ _

@[simp] theorem State.tenancy_setTenancy (s : State) (n : Nat) (x : Tenancy) (n' : Nat) :
    (s.setTenancy n x).tenancy n' = if n' = n then x else s.tenancy n' := tget_tput _ _ _ _ _

@[simp] theorem State.tenancy_modTenancy (s : State) (n : Nat) (f : Tenancy → Tenancy) (n' : Nat) :
    (s.modTenancy n f).tenancy n' = if n' = n then f (s.tenancy n) else s.tenancy n' := tget_tput _ _ _ _ _

/-- A seat after one has been set. -/
@[simp] theorem State.seat_setSeat (s : State) (c i : Nat) (t : Seat) (c' i' : Nat) :
    (s.setSeat c i t).seat c' i' = if c' = c ∧ i' = i then t else s.seat c' i' := by
  simp only [State.seat, State.setSeat, State.core_modCore]
  by_cases h : c' = c
  · subst h
    simp only [if_true, tget_tput, true_and]
  · simp [h]

/-- A seat after one has been changed. -/
@[simp] theorem State.seat_modSeat (s : State) (c i : Nat) (f : Seat → Seat) (c' i' : Nat) :
    (s.modSeat c i f).seat c' i' = if c' = c ∧ i' = i then f (s.seat c i) else s.seat c' i' := State.seat_setSeat s c i _ c' i'

/-- A core apart from its seats after a seat has been changed. -/
theorem State.core_modSeat (s : State) (c i : Nat) (f : Seat → Seat) (c' : Nat) :
    (s.modSeat c i f).core c' = if c' = c then { s.core c with seats := tput (s.core c).seats i (f (s.seat c i)) } else s.core c' :=
  State.core_modCore s c _ c'

end Sys2Proof.Machine
end

