-- ==== Sys2Proof/Laws/FramesCore.lean ====
section
/-! SUPPORT. Memory across the operations of a core: every one leaves it alone or keeps its canonical form. -/

namespace Sys2Proof.Machine
set_option Elab.async false
set_option linter.all false
theorem foldl_mem {α : Type} (f : State → α → State) (h : ∀ s x, (f s x).mem = s.mem) (l : List α) (s : State) : (l.foldl f s).mem = s.mem := by
  induction l generalizing s with
  | nil => rfl
  | cons x r ih => exact (ih _).trans (h s x)
theorem foldl_wf {α : Type} (f : State → α → State) (h : ∀ s x, Memory.wf s.mem = true → Memory.wf (f s x).mem = true) (l : List α) (s : State)
    (hs : Memory.wf s.mem = true) : Memory.wf (l.foldl f s).mem = true := by
  induction l generalizing s with
  | nil => exact hs
  | cons x r ih => exact ih _ (h s x hs)
@[simp] theorem State.heard_mem (s : State) (me : Nat) (d : Nat) : (State.heard s me d).mem = s.mem := rfl
@[simp] theorem State.nextSeq_mem (s : State) (port : Nat) (h : Nat) : (State.nextSeq s port h).2.mem = s.mem := rfl
@[simp] theorem State.keepReply_mem (s : State) (d : Nat) (port : Nat) (n : Nat) (vals : List Nat) : (State.keepReply s d port n vals).mem = s.mem := rfl
@[simp] theorem State.reach_mem (s : State) (now : Nat) : (State.reach s now).mem = s.mem := by
  simp only [State.reach]
  split <;> simp
@[simp] theorem State.idle_mem (s : State) (c : Nat) (n : Nat) : (State.idle s c n).mem = s.mem := by simp [State.idle]
@[simp] theorem State.hold_mem (s : State) (c : Nat) : (State.hold s c).mem = s.mem := by simp [State.hold]
@[simp] theorem State.settleBanks_mem (s : State) (c : Nat) : (s.settleBanks c).mem = s.mem := by
  simp only [State.settleBanks]
  split <;> rfl
@[simp] theorem State.settleBy_mem (s : State) (c i last : Nat) : (s.settleBy c i last).mem = s.mem := by
  simp only [State.settleBy]
  rw [State.settleBanks_mem, State.modSeat_mem]
  split
  · exact State.idle_mem _ _ _
  · rfl
@[simp] theorem State.drain_mem (s : State) (c i : Nat) : (s.drain c i).mem = s.mem := State.settleBy_mem _ _ _ _
@[simp] theorem State.drainAll_mem (s : State) (c i : Nat) : (s.drainAll c i).mem = s.mem := State.settleBy_mem _ _ _ _
@[simp] theorem State.fly_mem (s : State) (u : Issue) (pos : Nat) (lat : Nat) (dst : Option Reg) (val : Nat) (fl : Nat) (fixed : Bool) (fpu : Bool) : (State.fly s u pos lat dst val fl fixed fpu).mem = s.mem := rfl
@[simp] theorem State.deliverBy_mem (s : State) (c : Nat) (i : Nat) (due : Nat) (seq : Nat) (pos : Nat) (dst : Option Reg) (val : Nat) : (State.deliverBy s c i due seq pos dst val).mem = s.mem := rfl
@[simp] theorem State.deliver_mem (s : State) (c : Nat) (i : Nat) (seq : Nat) (pos : Nat) (dst : Option Reg) (val : Nat) : (State.deliver s c i seq pos dst val).mem = s.mem := rfl
@[simp] theorem State.deliverLast_mem (s : State) (c : Nat) (i : Nat) (dst : Reg) (val : Nat) : (State.deliverLast s c i dst val).mem = s.mem := rfl
@[simp] theorem State.result_mem (s : State) (u : Issue) (pos : Nat) (lat : Nat) (f : File) (n : Nat) (val : Nat) : (State.result s u pos lat f n val).mem = s.mem := rfl
@[simp] theorem State.resultVar_mem (s : State) (u : Issue) (pos : Nat) (lat : Nat) (f : File) (n : Nat) (val : Nat) : (State.resultVar s u pos lat f n val).mem = s.mem := rfl
@[simp] theorem State.takeFree_mem (s : State) : (State.takeFree s).2.mem = s.mem := rfl
@[simp] theorem State.returnWait_mem (s : State) (c : Nat) (i : Nat) : (State.returnWait s c i).mem = s.mem := by
  simp only [State.returnWait]
  split <;> simp
@[simp] theorem State.tlbFill_mem (s : State) (c : Nat) (t : Tlb) : (State.tlbFill s c t).mem = s.mem := rfl
@[simp] theorem State.post_mem (s : State) (die : Nat) (ty : Nat) (ten : Nat) (cluster : Nat) (core : Nat) (words : List Word) : (State.post s die ty ten cluster core words).mem = s.mem := rfl
@[simp] theorem State.postAt_mem (s : State) (die : Nat) (ty : Nat) (ten : Nat) (place : Nat) : (State.postAt s die ty ten place).mem = s.mem := rfl
@[simp] theorem State.postPage_mem (s : State) (die : Nat) (ten : Nat) (lid : Nat) (va : Nat) (kind : Nat) : (State.postPage s die ten lid va kind).mem = s.mem := by
  simp only [State.postPage]
  split <;> simp
@[simp] theorem State.releaseLines_mem (s : State) (ten : Nat) (lid : Nat) (idx : Nat) : (State.releaseLines s ten lid idx).mem = s.mem := rfl
@[simp] theorem State.releaseCmd_mem (s : State) (cmd : Nat) : (State.releaseCmd s cmd).mem = s.mem := rfl
@[simp] theorem State.releaseSeat_mem (s : State) (c : Nat) (i : Nat) : (State.releaseSeat s c i).mem = s.mem := by
  simp only [State.releaseSeat]
  split <;> simp
@[simp] theorem State.releaseTen_mem (s : State) (ten : Nat) : (s.releaseTen ten).mem = s.mem := rfl
@[simp] theorem State.freeSeat_mem (s : State) (c : Nat) (i : Nat) : (State.freeSeat s c i).mem = s.mem := rfl
@[simp] theorem State.dropIssue_mem (s : State) (c : Nat) (i : Nat) : (State.dropIssue s c i).mem = s.mem := rfl
@[simp] theorem State.endStrand_mem (s : State) (c : Nat) (i : Nat) (status : Nat) : (State.endStrand s c i status).mem = s.mem := by
  simp only [State.endStrand]
  split <;> simp
@[simp] theorem State.killStrand_mem (s : State) (c : Nat) (i : Nat) (status : Nat) : (State.killStrand s c i status).mem = s.mem := by simp [State.killStrand]
@[simp] theorem State.debugStop_mem (s : State) (c : Nat) (i : Nat) : (State.debugStop s c i).mem = s.mem := by
  simp only [State.debugStop]
  split <;> simp
@[simp] theorem State.enterTrap_mem (s : State) (c : Nat) (i : Nat) (p : PendingTrap) : (State.enterTrap s c i p).mem = s.mem := by
  simp only [State.enterTrap]
  rw [apply_ite State.mem]
  simp
@[simp] theorem State.takeTrap_mem (s : State) (c : Nat) (i : Nat) (r : TrapRec) (tpc : Word) (dly : Delay) (redo : Option Word) : (State.takeTrap s c i r tpc dly redo).mem = s.mem := by
  simp only [State.takeTrap]
  (repeat' split) <;> simp [foldl_mem, *]
@[simp] theorem State.preciseTrap_mem (s : State) (c : Nat) (i : Nat) (r : TrapRec) : (State.preciseTrap s c i r).mem = s.mem := by simp [State.preciseTrap]
@[simp] theorem State.returnTrap_mem (s : State) (c i n : Nat) : (s.returnTrap c i n).mem = s.mem := by
  simp only [State.returnTrap, State.modSeat, State.modCore, State.setSeat, State.modCore, State.setCore, State.idle_mem, State.drain_mem]
@[simp] theorem State.deferTrap_mem (s : State) (c : Nat) (i : Nat) (r : TrapRec) : (State.deferTrap s c i r).mem = s.mem := rfl
@[simp] theorem State.holdBundle_mem (s : State) (u : Issue) : (State.holdBundle s u).mem = s.mem := by simp [State.holdBundle]
@[simp] theorem State.blockBundle_mem (s : State) (u : Issue) : (State.blockBundle s u).mem = s.mem := by simp [State.blockBundle]
@[simp] theorem State.pageSuspend_mem (s : State) (c : Nat) (i : Nat) (va : Nat) (kind : Nat) : (State.pageSuspend s c i va kind).mem = s.mem := by
  simp only [State.pageSuspend]
  (repeat' split) <;> simp [foldl_mem, *]
@[simp] theorem gate_wf (p : Pre) (s : State) (u : Issue) (k : State → State) (hs : Memory.wf s.mem = true) (hk : Memory.wf (k s).mem = true) :
    Memory.wf (gate p s u k).mem = true := by
  simp only [gate]
  split <;> simp [*]
@[simp] theorem State.resultFp_mem (s : State) (u : Issue) (pos : Nat) (lat : Nat) (dst : Option Reg) (val : Nat) (fls : List Nat) : (State.resultFp s u pos lat dst val fls).mem = s.mem := by
  simp only [State.resultFp]
  (repeat' split) <;> simp [foldl_mem, *]
@[simp] theorem State.pushAcc_mem (s : State) (u : Issue) (a : Acc) : (State.pushAcc s u a).mem = s.mem := rfl
@[simp] theorem State.applySig_mem (s : State) (c : Nat) (i : Nat) (g : Sig) : (State.applySig s c i g).mem = s.mem := by
  simp only [State.applySig]
  (repeat' split) <;> simp [foldl_mem, *]
@[simp] theorem State.drainSigs_mem (s : State) (c i n : Nat) : (s.drainSigs c i n).mem = s.mem := by
  induction n generalizing s with
  | zero => rfl
  | succ n ih =>
    simp only [State.drainSigs]
    split
    · rfl
    · split <;> simp [ih]
@[simp] theorem State.settle_mem (s : State) (c : Nat) (i : Nat) : (State.settle s c i).mem = s.mem := by simp [State.settle]
@[simp] theorem State.signal_mem (s : State) (u : Issue) (g : Sig) : (State.signal s u g).mem = s.mem := by simp [State.signal]
@[simp] theorem State.keyAfter_mem (s : State) (line : Nat) (l : Line) : (State.keyAfter s line l).mem = s.mem := by
  simp only [State.keyAfter]
  split <;> simp
@[simp] theorem State.writeBack_mem (s : State) (line : Nat) (l : Line) : (State.writeBack s line l).mem = s.mem := by simp [State.writeBack]
@[simp] theorem State.makeRoom_mem (s : State) (d : Nat) : (State.makeRoom s d).mem = s.mem := by
  simp only [State.makeRoom]
  (repeat' split) <;> simp [foldl_mem, *]
@[simp] theorem State.fillLine_mem (s : State) (pa : Nat) : (State.fillLine s pa).mem = s.mem := by
  simp only [State.fillLine]
  (repeat' split) <;> simp [foldl_mem, *]
@[simp] theorem State.dirtyLine_mem (s : State) (pa : Nat) (key : Nat) : (State.dirtyLine s pa key).mem = s.mem := by
  simp only [State.dirtyLine]
  split <;> simp
@[simp] theorem State.store_wf (s : State) (pa n key val : Nat) (hs : Memory.wf s.mem = true) : Memory.wf (s.store pa n key val).mem = true := by
  simp [State.store, wf_leWrite _ _ _ _ hs]
@[simp] theorem State.cleanUnit_mem (s : State) (unit : Nat) : (State.cleanUnit s unit).mem = s.mem := rfl
@[simp] theorem State.rewriteReplica_wf (off : Nat) (v : Nat) (s : State) (d : Nat) (hs : Memory.wf s.mem = true) : Memory.wf (State.rewriteReplica off v s d).mem = true := by simp [State.rewriteReplica, hs]
theorem State.rewriteReplicas_wf (off v : Nat) (l : List Nat) (s : State) (hs : Memory.wf s.mem = true) :
    Memory.wf (l.foldl (State.rewriteReplica off v) s).mem = true :=
  foldl_wf _ (fun s d hs => State.rewriteReplica_wf off v s d hs) l s hs
@[simp] theorem State.rewriteSector_wf (s : State) (good off : Nat) (hs : Memory.wf s.mem = true) : Memory.wf (s.rewriteSector good off).mem = true :=
  State.rewriteReplicas_wf _ _ _ _ hs
@[simp] theorem State.fixTable_wf (d : Nat) (s : State) (off : Nat) (hs : Memory.wf s.mem = true) : Memory.wf (s.fixTable d off).mem = true := by
  simp only [State.fixTable]
  split
  · split
    · simpa using hs
    · rw [State.heard_mem, State.postAt_mem]
      exact State.rewriteSector_wf _ _ _ (by simpa using hs)
  · simpa using hs
@[simp] theorem State.fixTables_wf (s : State) (d ten va : Nat) (hs : Memory.wf s.mem = true) : Memory.wf (s.fixTables d ten va).mem = true :=
  foldl_wf _ (fun s off hs => State.fixTable_wf d s off hs) _ s hs
@[simp] theorem State.prefetchLine_mem (s : State) (pa key : Nat) : (s.prefetchLine pa key).mem = s.mem := by
  simp only [State.prefetchLine]
  split <;> simp
@[simp] theorem State.prefetch_mem (s : State) (c ten lid va : Nat) : (s.prefetch c ten lid va).mem = s.mem := by
  simp only [State.prefetch]
  (repeat' split) <;> simp
@[simp] theorem State.rooted_mem (s : State) (w : Walk) : (s.rooted w).mem = s.mem := by
  simp only [State.rooted]
  rw [foldl_mem (fun (s : State) (p : Word × Nat) => s.modDie p.2 (fun d => { d with tablebase := p.1 })) (fun s p => rfl)]
  rfl
@[simp] theorem State.placeBundle_mem (s : State) (u : Issue) : (State.placeBundle s u).mem = s.mem := by simp [State.placeBundle]
@[simp] theorem State.control_mem (s : State) (u : Issue) : (s.control u).mem = s.mem := by
  simp only [State.control]
  (repeat' split) <;> simp
@[simp] theorem State.endIssue_mem (s : State) (u : Issue) (fp : Bool) : (s.endIssue u fp).mem = s.mem := by
  unfold State.endIssue
  extract_lets c i s1 s2 s3 s4 s5 t
  have h1 : s1.mem = s.mem := by
    simp only [s1]
    split <;> simp
  have h2 : s2.mem = s.mem := by simp [s2, h1]
  have h3 : s3.mem = s.mem := by
    simp only [s3]
    split <;> simp [h2]
  have h4 : s4.mem = s.mem := by
    simp only [s4]
    split <;> simp [h3]
  have h5 : s5.mem = s.mem := by simp [s5, h4]
  split
  · exact h5
  · rename_i s6 _
    have h6 : s6.mem = s.mem := by
      simp only [s6]
      split <;> simp [h5]
    split <;> simp [h6]
@[simp] theorem State.capture_mem (s : State) (u : Issue) (x : VW) (k : Nat) (v : VSrc) (val : Vec) : (State.capture s u x k v val).mem = s.mem := by
  simp only [State.capture]
  split <;> simp
@[simp] theorem State.captures_mem (s : State) (u : Issue) (x : VW) (k : Nat) (l : List VSrc) (vs : List Vec) : (s.captures u x k l vs).mem = s.mem := by
  induction l generalizing s k vs with
  | nil => rfl
  | cons v r ih => cases vs <;> simp [State.captures, ih]
@[simp] theorem State.pushPool_mem (s : State) (u : Issue) (a : Acc) (pas : List Nat) (lat : Nat) : (State.pushPool s u a pas lat).mem = s.mem := rfl
@[simp] theorem State.pushGlobal_mem (s : State) (u : Issue) (a : Acc) (m : Mode) : (State.pushGlobal s u a m).mem = s.mem := by
  simp only [State.pushGlobal]
  split <;> simp
@[simp] theorem State.ask_mem (s : State) (k : Ctl) : (State.ask s k).mem = s.mem := rfl
@[simp] theorem State.resultFpu_mem (s : State) (u : Issue) (pos : Nat) (lat : Nat) (f : File) (n : Nat) (val : Nat) : (State.resultFpu s u pos lat f n val).mem = s.mem := rfl
@[simp] theorem State.resultVec_mem (s : State) (u : Issue) (x : VW) (lat : Nat) (d : R11) (w : Nat) (rs : List FRes) : (State.resultVec s u x lat d w rs).mem = s.mem := by simp [State.resultVec]
@[simp] theorem State.pushLanes_mem (s : State) (u : Issue) (a : Acc) (off : Int) (stride : Int) : (State.pushLanes s u a off stride).mem = s.mem := rfl
@[simp] theorem State.sendHome_mem (s : State) (c : Nat) (i : Nat) (id : Nat) : (State.sendHome s c i id).mem = s.mem := by
  simp only [State.sendHome]
  (repeat' split) <;> simp [foldl_mem, *]
@[simp] theorem State.pushAtom_mem (s : State) (u : Issue) (a : Acc) : (State.pushAtom s u a).mem = s.mem := by
  simp only [State.pushAtom]
  (repeat' split) <;> simp [foldl_mem, *]
@[simp] theorem State.writeRec_wf (s : State) (d : Nat) (r : Rec) (hs : Memory.wf s.mem = true) : Memory.wf (State.writeRec s d r).mem = true := by simp [State.writeRec, hs]
@[simp] theorem State.relink_wf (s : State) (d : Nat) (rs : List Rec) (hs : Memory.wf s.mem = true) : Memory.wf (s.relink d rs).mem = true := by
  induction rs generalizing s with
  | nil => exact hs
  | cons r rs ih => exact ih _ (State.store_wf _ _ _ _ _ hs)
@[simp] theorem State.setRecs_wf (s : State) (d : Nat) (rs : List Rec) (hs : Memory.wf s.mem = true) : Memory.wf (State.setRecs s d rs).mem = true := by simp [State.setRecs, hs]
@[simp] theorem State.setEline_mem (s : State) (ten : Nat) (core : Nat) (t : Nat) (l : TLine) : (State.setEline s ten core t l).mem = s.mem := rfl
@[simp] theorem State.finishEngine_mem (s : State) (ten : Nat) (core : Nat) (t : Nat) (num : Nat) (status : Nat) : (State.finishEngine s ten core t num status).mem = s.mem := rfl
@[simp] theorem State.markOob_mem (s : State) (ten : Nat) (core : Nat) : (State.markOob s ten core).mem = s.mem := rfl
@[simp] theorem State.consume_mem (s : State) (ten : Nat) (lid : Nat) (cls : Nat) (agent : Nat) (pa : Nat) (va : Nat) : (State.consume s ten lid cls agent pa va).mem = s.mem := by
  simp only [State.consume]
  (repeat' split) <;> simp [foldl_mem, *]
@[simp] theorem State.consumeAt_mem (s : State) (ten : Nat) (lid : Nat) (cls : Nat) (agent : Nat) (pa : Nat) (va : Nat) : (State.consumeAt s ten lid cls agent pa va).mem = s.mem := by
  simp only [State.consumeAt]
  split <;> simp
@[simp] theorem State.partsStore_wf (s : State) (ps : List Part) (v : Nat) (hs : Memory.wf s.mem = true) : Memory.wf (s.partsStore ps v).mem = true := by
  induction ps generalizing s v with
  | nil => exact hs
  | cons p r ih => exact ih _ _ (State.store_wf _ _ _ _ _ hs)
@[simp] theorem State.partsFill_mem (s : State) (ps : List Part) : (State.partsFill s ps).mem = s.mem := by
  simp only [State.partsFill]
  (repeat' split) <;> simp [foldl_mem, *]
@[simp] theorem State.agentWalks_wf (s : State) (ten va n : Nat) (hs : Memory.wf s.mem = true) : Memory.wf (s.agentWalks ten va n).mem = true := by
  simp only [State.agentWalks]
  split
  · exact hs
  · exact foldl_wf _ (fun s k hs => State.fixTables_wf _ _ _ _ hs) _ _ hs
@[simp] theorem State.agentConsume_mem (s : State) (agent : Option Nat) (ten : Nat) (lid : Nat) (cls : Nat) (pa : Nat) (va : Nat) : (State.agentConsume s agent ten lid cls pa va).mem = s.mem := by
  simp only [State.agentConsume]
  (repeat' split) <;> simp [foldl_mem, *]
@[simp] theorem State.dropStore_mem (s : State) (m : Nat) : (State.dropStore s m).mem = s.mem := rfl
@[simp] theorem State.agentTouch_wf (s : State) (agent : Option Nat) (ten : Nat) (lid : Nat) (va : Nat) (n : Nat) (hs : Memory.wf s.mem = true) : Memory.wf (State.agentTouch s agent ten lid va n).mem = true := by
  simp only [State.agentTouch]
  split <;> simp [hs]
@[simp] theorem State.agentStore_wf (s : State) (agent : Option Nat) (ten : Nat) (lid : Nat) (va : Nat) (n : Nat) (val : Nat) (hs : Memory.wf s.mem = true) : Memory.wf (State.agentStore s agent ten lid va n val).mem = true := by
  simp only [State.agentStore]
  split <;> simp [hs]
@[simp] theorem State.writeQline_wf (s : State) (ten : Nat) (h : Nat) (hs : Memory.wf s.mem = true) : Memory.wf (State.writeQline s ten h).mem = true := by
  simp only [State.writeQline]
  split <;> simp [hs]
@[simp] theorem State.putQline_wf (s : State) (ten : Nat) (h : Nat) (l : TLine) (hs : Memory.wf s.mem = true) : Memory.wf (State.putQline s ten h l).mem = true := by simp [State.putQline, hs]
@[simp] theorem State.writeQlines_wf (s : State) (hs : Memory.wf s.mem = true) : Memory.wf s.writeQlines.mem = true :=
  foldl_wf _ (fun s p hs => foldl_wf _ (fun s h hs => State.writeQline_wf s _ h hs) _ s hs) _ s hs
@[simp] theorem State.probeQueue_wf (s : State) (ten q : Nat) (hs : Memory.wf s.mem = true) : Memory.wf (s.probeQueue ten q).mem = true := by
  simp only [State.probeQueue]
  split
  · exact hs
  · split
    · simp [hs]
    · split
      · simp (maxDischargeDepth := 9) [hs]
      · split <;> simp (maxDischargeDepth := 9) [hs]
@[simp] theorem State.noteQueues_mem (s : State) (ten : Nat) : (State.noteQueues s ten).mem = s.mem := rfl
@[simp] theorem State.setQline_wf (s : State) (ten : Nat) (h : Nat) (l : TLine) (hs : Memory.wf s.mem = true) : Memory.wf (State.setQline s ten h l).mem = true := by simp [State.setQline, hs]
@[simp] theorem State.issueCompl_wf (s : State) (ten : Nat) (h : Nat) (hs : Memory.wf s.mem = true) : Memory.wf (State.issueCompl s ten h).2.mem = true := by
  simp only [State.issueCompl]
  split <;> simp [hs]
@[simp] theorem State.finishCompl_wf (s : State) (ten : Nat) (h : Nat) (num : Nat) (status : Nat) (hs : Memory.wf s.mem = true) : Memory.wf (State.finishCompl s ten h num status).mem = true := by
  simp only [State.finishCompl]
  split <;> simp [hs]
@[simp] theorem State.finishCopy_wf (s : State) (x : CopyCmd) (status : Nat) (hs : Memory.wf s.mem = true) : Memory.wf (State.finishCopy s x status).mem = true := by simp [State.finishCopy, hs]
@[simp] theorem State.childDone_mem (s : State) (ten : Nat) (parent : Nat) (status : Nat) : (State.childDone s ten parent status).mem = s.mem := by
  simp only [State.childDone]
  split <;> simp
@[simp] theorem State.endLaunch_wf (s : State) (l : Launch) (status : Nat) (hs : Memory.wf s.mem = true) : Memory.wf (State.endLaunch s l status).mem = true := by simp [State.endLaunch, hs]
@[simp] theorem State.retireFrame_mem (s : State) (f : Nat) : (State.retireFrame s f).mem = s.mem := by
  simp only [State.retireFrame]
  split <;> simp
@[simp] theorem State.evictSeats_mem (s : State) (ten c : Nat) (l : List Nat) : (s.evictSeats ten c l).mem = s.mem := by
  induction l generalizing s with
  | nil => rfl
  | cons i r ih =>
    simp only [State.evictSeats, ih]
    (repeat' split) <;> simp
@[simp] theorem State.evictCore_wf (s : State) (ten c : Nat) (hs : Memory.wf s.mem = true) : Memory.wf (s.evictCore ten c).mem = true := by
  simp only [State.evictCore]
  refine foldl_wf _ (fun s x hs => State.finishCopy_wf _ _ _ hs) _ _ ?_
  rw [foldl_mem _ (fun s x => by simp)]
  simpa using hs
@[simp] theorem State.dropTenRecs_wf (ten : Nat) (s : State) (d : Nat) (hs : Memory.wf s.mem = true) : Memory.wf (State.dropTenRecs ten s d).mem = true := by simp [State.dropTenRecs, hs]
@[simp] theorem State.killTenancy_wf (s : State) (ten : Nat) (hs : Memory.wf s.mem = true) : Memory.wf (s.killTenancy ten).mem = true := by
  simp only [State.killTenancy]
  have hr (l : List Nat) (s : State) : (l.foldl State.retireFrame s).mem = s.mem := foldl_mem _ (fun s x => by simp) _ s
  have he (l : List Launch) (s : State) (hs : Memory.wf s.mem = true) :
      Memory.wf (l.foldl (fun s l => s.endLaunch l (worseStatus l.status 6)) s).mem = true :=
    foldl_wf _ (fun s x hs => State.endLaunch_wf _ _ _ hs) _ _ hs
  have hc (l : Tab Core) (s : State) (hs : Memory.wf s.mem = true) : Memory.wf (l.foldl (fun s p => s.evictCore ten p.1) s).mem = true :=
    foldl_wf _ (fun s x hs => State.evictCore_wf _ _ _ hs) _ _ hs
  have hd (l : List Nat) (s : State) (hs : Memory.wf s.mem = true) : Memory.wf (l.foldl (State.dropTenRecs ten) s).mem = true :=
    foldl_wf _ (fun s x hs => State.dropTenRecs_wf _ _ _ hs) _ _ hs
  have hf (l : List CopyCmd) (s : State) (hs : Memory.wf s.mem = true) : Memory.wf (l.foldl (fun s x => s.finishCopy x 0x1A) s).mem = true :=
    foldl_wf _ (fun s x hs => State.finishCopy_wf _ _ _ hs) _ _ hs
  simp only [State.modTenancy_mem, State.releaseTen_mem, hr]
  exact hf _ _ (hd _ _ (hc _ _ (he _ _ hs)))
@[simp] theorem State.doomTenancy_wf (s : State) (ten : Nat) (hs : Memory.wf s.mem = true) : Memory.wf (State.doomTenancy s ten).mem = true := by
  simp only [State.doomTenancy]
  split <;> simp [hs]
@[simp] theorem State.noteBy_mem (s : State) (ten : Nat) (lid : Nat) (idx : Nat) (cmd : Nat) (m : Mode) (pa : Nat) (n : Nat) : (State.noteBy s ten lid idx cmd m pa n).mem = s.mem := by
  simp only [State.noteBy]
  split <;> simp
@[simp] theorem State.noteAt_mem (s : State) (ten : Nat) (lid : Nat) (idx : Nat) (m : Mode) (pa : Nat) (n : Nat) : (State.noteAt s ten lid idx m pa n).mem = s.mem := by simp [State.noteAt]
@[simp] theorem State.loseAccess_mem (s : State) (c : Nat) (i : Nat) (m : Nat) (kind : Nat) (a : Acc) : (State.loseAccess s c i m kind a).mem = s.mem := by
  simp only [State.loseAccess]
  (repeat' split) <;> simp [foldl_mem, *]
@[simp] theorem State.heardFrom_mem (s : State) (me pa : Nat) : (s.heardFrom me pa).mem = s.mem := by
  simp only [State.heardFrom]
  split <;> simp
@[simp] theorem State.answered_mem (s : State) (c : Nat) (a : Acc) : (State.answered s c a).mem = s.mem := by simp [State.answered]
@[simp] theorem State.endAcc_mem (s : State) (c : Nat) (i : Nat) (a : Acc) : (State.endAcc s c i a).mem = s.mem := by
  simp only [State.endAcc]
  split <;> simp
@[simp] theorem State.refuseAcc_mem (s : State) (c : Nat) (i : Nat) (a : Acc) (h : Home) : (State.refuseAcc s c i a h).mem = s.mem := by
  simp only [State.refuseAcc]
  (repeat' split) <;> simp [foldl_mem, *]
@[simp] theorem State.nextLanes_mem (s : State) (a : Acc) : (State.nextLanes s a).2.mem = s.mem := by
  simp only [State.nextLanes]
  split <;> simp
@[simp] theorem State.writeParts_wf (s : State) (n key lanes : Nat) (l : List Nat) (v : Nat) (hs : Memory.wf s.mem = true) : Memory.wf (s.writeParts n key lanes l v).mem = true := by
  induction l generalizing s lanes v with
  | nil => exact hs
  | cons p r ih =>
    simp only [State.writeParts]
    refine ih _ _ _ ?_
    split
    · exact State.store_wf _ _ _ _ _ hs
    · exact hs
@[simp] theorem State.fillParts_mem (s : State) (pas : List Nat) : (State.fillParts s pas).mem = s.mem := by
  simp only [State.fillParts]
  (repeat' split) <;> simp [foldl_mem, *]
@[simp] theorem State.returnData_mem (s : State) (c : Nat) (i : Nat) (a : Acc) (v : Nat) : (State.returnData s c i a v).mem = s.mem := by simp [State.returnData]
@[simp] theorem State.keepLanes_mem (s : State) (c : Nat) (i : Nat) (a : Acc) (data : Nat) (lanes : Nat) : (State.keepLanes s c i a data lanes).mem = s.mem := rfl
@[simp] theorem State.performLoad_mem (s : State) (c : Nat) (i : Nat) (a : Acc) (sx : Bool) (lanes : Nat) : (State.performLoad s c i a sx lanes).mem = s.mem := by
  simp only [State.performLoad]
  (repeat' split) <;> simp [foldl_mem, *]
@[simp] theorem State.acceptAcc_mem (s : State) (c : Nat) (i : Nat) (a : Acc) : (State.acceptAcc s c i a).mem = s.mem := by
  simp only [State.acceptAcc]
  split <;> simp
@[simp] theorem State.performStore_wf (s : State) (c i : Nat) (a : Acc) (lanes : Nat) (hs : Memory.wf s.mem = true) : Memory.wf (s.performStore c i a lanes).mem = true := by
  simp only [State.performStore]
  split
  · split <;> simp [hs]
  · simpa using hs
  · simpa using hs
  · simpa using hs
@[simp] theorem State.applyAtom_wf (s : State) (c : Nat) (i : Nat) (a : Acc) (op : AtOp) (hs : Memory.wf s.mem = true) : Memory.wf (State.applyAtom s c i a op).mem = true := by
  simp only [State.applyAtom]
  (repeat' split) <;> simp [foldl_wf, hs]
@[simp] theorem State.replyAtom_mem (s : State) (c : Nat) (i : Nat) (a : Acc) (r : Nat) : (State.replyAtom s c i a r).mem = s.mem := by simp [State.replyAtom]
@[simp] theorem State.pushScales_mem (s : State) (c i : Nat) (a : Acc) (v : Nat) : (s.pushScales c i a v).mem = s.mem := by simp [State.pushScales]
@[simp] theorem State.arriveScales_mem (s : State) (c : Nat) (i : Nat) (a : Acc) : (State.arriveScales s c i a).mem = s.mem := by
  simp only [State.arriveScales]
  split
  · exact State.pushScales_mem _ _ _ _ _
  · exact State.refuseAcc_mem _ _ _ _ _
@[simp] theorem State.fixScales_mem (s : State) (c i : Nat) (a : Acc) : (s.fixScales c i a).mem = s.mem := by
  simp only [State.fixScales]
  split
  · rfl
  · exact State.refuseAcc_mem _ _ _ _ _
@[simp] theorem State.translated_mem (s : State) (c : Nat) (i : Nat) (a : Acc) (pa : Nat) (key : Nat) (cons : Nat) : (State.translated s c i a pa key cons).mem = s.mem := by
  simp only [State.translated]
  (repeat' split) <;> simp [foldl_mem, *]
theorem State.probeStep_wf (s : State) (base h keys vals : Nat) (insert : Bool) (x : Probe) (hs : Memory.wf s.mem = true) :
    Memory.wf (s.probeStep base h keys vals insert x).1.mem = true := by
  simp only [State.probeStep]
  (repeat' split) <;> simp [hs]
theorem State.probeSteps_wf (ten base h keys vals : Nat) (insert : Bool) (n : Nat) (s : State) (x : Probe) (hs : Memory.wf s.mem = true) :
    Memory.wf (State.probeSteps ten base h keys vals insert n s x).1.mem = true := by
  induction n generalizing s x with
  | zero => exact hs
  | succ n ih =>
    simp only [State.probeSteps]
    split
    · exact hs
    · split
      · exact ih _ _ (State.probeStep_wf _ _ _ _ _ _ _ hs)
      · exact hs
@[simp] theorem State.performHash_wf (s : State) (c i : Nat) (a : Acc) (insert : Bool) (n : Nat) (hs : Memory.wf s.mem = true) :
    Memory.wf (s.performHash c i a insert n).mem = true := by
  simp only [State.performHash]
  have h := State.probeSteps_wf (s.ownerOf c i).1 (a.parts.headD 0) (Nat.log2 (a.n / 8)) a.data a.data2 insert n s a.probe hs
  split
  · rw [State.returnData_mem]
    exact h
  · rw [State.refuseAcc_mem]
    exact h
@[simp] theorem State.someSteps_mem (s : State) : s.someSteps.2.mem = s.mem := rfl
@[simp] theorem State.performWalk_mem (s : State) (c : Nat) (i : Nat) (a : Acc) (csr : Bool) : (State.performWalk s c i a csr).mem = s.mem := by
  simp only [State.performWalk]
  split <;> simp
@[simp] theorem State.performFirst_wf (s : State) (c : Nat) (i : Nat) (a : Acc) (hs : Memory.wf s.mem = true) : Memory.wf (State.performFirst s c i a).mem = true := by
  simp only [State.performFirst]
  split <;> first | exact State.performHash_wf _ _ _ _ _ _ hs | simp [hs]
@[simp] theorem State.knowOwn_wf (s : State) (u : Issue) (hs : Memory.wf s.mem = true) : Memory.wf (s.knowOwn u).mem = true := by
  simp only [State.knowOwn]
  refine foldl_wf _ (fun s x hs => ?_) _ _ hs
  split <;> simp [hs]
theorem earlyFold_wf (c i seq ten : Nat) (l : List Acc) (p : State × Bool) (hs : Memory.wf p.1.mem = true) :
    Memory.wf (l.foldl (fun (p : State × Bool) a =>
      if p.2 && (p.1.seat c i).mayActIn seq a && p.1.homeAcc none ten a a.parts != .silent then (p.1.performFirst c i a, true)
      else (p.1, false)) p).1.mem = true := by
  induction l generalizing p with
  | nil => exact hs
  | cons a r ih =>
    rw [List.foldl_cons]
    refine ih _ ?_
    split
    · exact State.performFirst_wf _ _ _ _ hs
    · exact hs
@[simp] theorem State.early_wf (s : State) (u : Issue) (parts : List (Nat × Nat)) (hs : Memory.wf s.mem = true) : Memory.wf (s.early u parts).1.mem = true :=
  earlyFold_wf _ _ _ _ _ _ (State.knowOwn_wf s u hs)
@[simp] theorem State.dropLocalTlb_mem (s : State) (c : Nat) (ten : Nat) (base : Nat) (n : Nat) : (State.dropLocalTlb s c ten base n).mem = s.mem := rfl
@[simp] theorem State.dropBuffers_mem (s : State) (c : Nat) (ten : Nat) (base : Nat) (n : Nat) : (State.dropBuffers s c ten base n).mem = s.mem := rfl
@[simp] theorem State.await_mem (s : State) (u : Issue) (w : PWait) : (State.await s u w).mem = s.mem := rfl
@[simp] theorem State.trySeat_mem (s : State) (c : Nat) (n : Nat) (i : Nat) : (State.trySeat s c n i).mem = s.mem := by
  simp only [State.trySeat]
  (repeat' split) <;> simp [foldl_mem, *]
@[simp] theorem State.semComplete_wf (s : State) (c n : Nat) (hs : Memory.wf s.mem = true) : Memory.wf (s.semComplete c n).mem = true := by
  unfold State.semComplete
  extract_lets start s1 s2 s3 s4
  have h : Memory.wf s4.mem = true := by simpa [s4, s3, s2, s1] using hs
  split
  · exact h
  · split
    split
    · exact h
    · simp [h]
@[simp] theorem State.settleSems_wf (s : State) (c : Nat) (hs : Memory.wf s.mem = true) : Memory.wf (s.settleSems c).mem = true :=
  foldl_wf _ (fun s n hs => State.semComplete_wf s c n hs) _ s hs
@[simp] theorem State.arrivePhase_mem (s : State) (c : Nat) (i : Nat) : (State.arrivePhase s c i).mem = s.mem := by
  simp only [State.arrivePhase]
  (repeat' split) <;> simp [foldl_mem, *]
@[simp] theorem State.takePhase_mem (s : State) (c : Nat) (i : Nat) : (State.takePhase s c i).mem = s.mem := by
  simp only [State.takePhase]
  (repeat' split) <;> simp [foldl_mem, *]
@[simp] theorem State.eachSeat_mem (s : State) (f : State → Nat → Nat → State) (h : ∀ s c i, (f s c i).mem = s.mem) : (s.eachSeat f).mem = s.mem :=
  foldl_mem _ (fun s c => foldl_mem _ (fun s i => h s c i) _ s) _ s
@[simp] theorem State.releaseGroup_mem (s : State) (ten lid g : Nat) (lost : Bool) : (s.releaseGroup ten lid g lost).mem = s.mem := by
  simp only [State.releaseGroup]
  rw [State.eachSeat_mem _ _ (fun s c i => by simp)]
  simp
@[simp] theorem State.appendPacket_wf (s : State) (c : Nat) (i : Nat) (a : Acc) (ten : Nat) (lid : Nat) (img : Nat) (k : Nat) (base : Nat) (log2 : Nat) (hs : Memory.wf s.mem = true) : Memory.wf (State.appendPacket s c i a ten lid img k base log2).mem = true := by
  simp only [State.appendPacket]
  rw [State.returnData_mem, State.noteQueues_mem]
  split <;> simp [hs]
theorem State.claimReply_mem (s : State) (c i q k : Nat) : (s.claimReply c i q k).mem = s.mem := by
  simp only [State.claimReply]
  split
  · rfl
  · split
    · exact (State.keepReply_mem _ _ _ _ _).trans (State.nextSeq_mem _ _ _)
    · exact State.nextSeq_mem _ _ _
theorem State.spoilLaunch_mem (s : State) (c i : Nat) (a : Acc) (e : Nat × Nat × Nat) : (s.spoilLaunch c i a e).mem = s.mem := by
  simp [State.spoilLaunch]
@[simp] theorem State.claimSlot_wf (s : State) (c i : Nat) (a : Acc) (claim : Option Nat) (img : Nat) (hs : Memory.wf s.mem = true) : Memory.wf (s.claimSlot c i a claim img).mem = true := by
  simp only [State.claimSlot]
  split
  · exact hs
  · split
    · rw [State.spoilLaunch_mem]
      exact hs
    · split
      · cases claim <;> dsimp only <;> split <;> (try split) <;>
          simp (maxDischargeDepth := 9) [State.claimReply_mem, State.spoilLaunch_mem, hs]
      · simp (maxDischargeDepth := 9) [hs]
@[simp] theorem State.performLaunch_wf (s : State) (c : Nat) (i : Nat) (a : Acc) (hs : Memory.wf s.mem = true) : Memory.wf (State.performLaunch s c i a).mem = true := by
  simp only [State.performLaunch]
  (repeat' split) <;> simp [foldl_wf, hs]
@[simp] theorem State.boardAt_mem (s : State) (d : Nat) (b : Nat) (ten : Nat) (explicit : Bool) (kind : Nat) (handle : Word) (part : Word) (value : Word) : (State.boardAt s d b ten explicit kind handle part value).1.mem = s.mem := rfl
@[simp] theorem State.strangers_mem (s : State) (b : Board) (n : Nat) : (s.strangers b n).2.mem = s.mem := by
  induction n generalizing s b with
  | zero => rfl
  | succ n ih =>
    simp only [State.strangers]
    rw [ih]
    rfl
@[simp] theorem State.drift_mem (s : State) (b : Board) : (State.drift s b).2.mem = s.mem := by simp [State.drift]
@[simp] theorem State.peerBoard_mem (s : State) (m : Nat) (d : Nat) (b : Nat) (ten : Nat) (explicit : Bool) (kind : Nat) (handle : Word) (part : Word) (value : Word) : (State.peerBoard s m d b ten explicit kind handle part value).1.mem = s.mem := by
  simp only [State.peerBoard]
  (repeat' split) <;> simp [foldl_mem, *]
@[simp] theorem State.answerBoard_mem (s : State) (c : Nat) (i : Nat) (reason : Nat) (vals : List Nat) : (State.answerBoard s c i reason vals).mem = s.mem := rfl
@[simp] theorem State.sendBoard_mem (s : State) (c : Nat) (i : Nat) (h : Held) (handle : Word) : (State.sendBoard s c i h handle).2.mem = s.mem := by
  simp only [State.sendBoard]
  (repeat' split) <;> simp [foldl_mem, *]
@[simp] theorem State.serialise_mem (s : State) (c : Nat) (i : Nat) (t : Seat) (h : Held) (kind : Nat) (handle : Word) (part : Word) (value : Word) : (State.serialise s c i t h kind handle part value).mem = s.mem := by
  simp only [State.serialise]
  (repeat' split) <;> simp [foldl_mem, *]
@[simp] theorem State.failHeld_mem (s : State) (c : Nat) (i : Nat) (r : TrapRec) : (State.failHeld s c i r).mem = s.mem := by simp [State.failHeld]
@[simp] theorem State.signalEarly_mem (s : State) (u : Issue) : (State.signalEarly s u).mem = s.mem := by
  simp only [State.signalEarly]
  split <;> simp
@[simp] theorem State.resumeHeld_mem (s : State) (c : Nat) (i : Nat) (u : Issue) : (State.resumeHeld s c i u).mem = s.mem := by simp [State.resumeHeld]
@[simp] theorem State.resendBoard_mem (s : State) (c : Nat) (i : Nat) : (State.resendBoard s c i).mem = s.mem := by
  simp only [State.resendBoard]
  (repeat' split) <;> simp [foldl_mem, *]
@[simp] theorem State.resendAtom_wf (s : State) (c : Nat) (i : Nat) (a : Acc) (hs : Memory.wf s.mem = true) : Memory.wf (State.resendAtom s c i a).mem = true := by
  simp only [State.resendAtom]
  (repeat' split) <;> simp [foldl_wf, hs]
@[simp] theorem State.boardCreate_mem (s : State) (d : Nat) (b : Nat) (v : Word) : (State.boardCreate s d b v).mem = s.mem := by
  simp only [State.boardCreate]
  split <;> simp
@[simp] theorem State.boardConfig_mem (s : State) (d : Nat) (b : Nat) (v : Word) : (State.boardConfig s d b v).mem = s.mem := by
  simp only [State.boardConfig]
  (repeat' split) <;> simp [foldl_mem, *]
@[simp] theorem State.setBar_mem (s : State) (id : Nat) (b : Bar) : (State.setBar s id b).mem = s.mem := rfl
@[simp] theorem State.endBarr_mem (s : State) (c : Nat) (i : Nat) (resumed : Bool) : (State.endBarr s c i resumed).mem = s.mem := by
  simp only [State.endBarr]
  (repeat' split) <;> simp [foldl_mem, *]
@[simp] theorem State.takeBarr_mem (s : State) (c : Nat) (i : Nat) : (State.takeBarr s c i).mem = s.mem := by
  simp only [State.takeBarr]
  split <;> simp
@[simp] theorem State.barWrite_mem (s : State) (id : Nat) (v : Word) : (s.barWrite id v).mem = s.mem := by
  simp only [State.barWrite]
  rw [State.eachSeat_mem _ _ (fun s c i => by simp)]
  simp
@[simp] theorem State.arriveBarr_mem (s : State) (c : Nat) (i : Nat) : (State.arriveBarr s c i).mem = s.mem := by
  simp only [State.arriveBarr]
  (repeat' split) <;> simp [foldl_mem, *]
@[simp] theorem State.actFirst_wf (s : State) (u : Issue) (parts : List (Int × Nat)) (hs : Memory.wf s.mem = true) : Memory.wf (State.actFirst s u parts).mem = true := by simp [State.actFirst, hs]
@[simp] theorem State.modMx_mem (s : State) (u : Issue) (f : Matrix → Matrix) : (State.modMx s u f).mem = s.mem := rfl
end Sys2Proof.Machine
end

