-- ==== Sys2Proof/Laws/FramesUnits.lean ====
section
/-! SUPPORT. Memory across tiles, the unit forms, copies and the index unit: each operation keeps the canonical form. -/

namespace Sys2Proof.Machine
set_option Elab.async false
set_option linter.all false
@[simp] theorem State.bankOp_mem (s : State) (u : Issue) (m : Matrix) (lat b : Nat) (rows : Tab Vec) (fl : Nat) (fpu : Bool) : (s.bankOp u m lat b rows fl fpu).mem = s.mem := rfl
@[simp] theorem State.beat_mem (s : State) (u : Issue) (m : Matrix) (lat : Nat) (acts : Bool) (ends : Bool) (terms : Nat → List (FVal × List FVal)) : (State.beat s u m lat acts ends terms).mem = s.mem := rfl
@[simp] theorem State.sparseBeat_mem (s : State) (u : Issue) (a : Nat) (b : Nat) (guard : Bool) : (State.sparseBeat s u a b guard).mem = s.mem := rfl
@[simp] theorem State.bankMod_mem (s : State) (u : Issue) (b : Nat) (f : Tab Vec → Tab Vec) : (State.bankMod s u b f).mem = s.mem := rfl
@[simp] theorem State.issueCmd_mem (s : State) (u : Issue) (t : Nat) : (State.issueCmd s u t).2.mem = s.mem := by simp [State.issueCmd]
@[simp] theorem State.writeTileRow_wf (pa : Nat) (h : Nat) (masks : List Nat) (vals : List (List Kept)) (s : State) (i : Nat) (hs : Memory.wf s.mem = true) : Memory.wf (State.writeTileRow pa h masks vals s i).mem = true := by simp [State.writeTileRow, hs]
theorem State.writeTileRows_wf (pa h : Nat) (masks : List Nat) (vals : List (List Kept)) (s : State) (l : List Nat) (hs : Memory.wf s.mem = true) :
    Memory.wf (l.foldl (State.writeTileRow pa h masks vals) s).mem = true :=
  foldl_wf _ (fun s i hs => State.writeTileRow_wf pa h masks vals s i hs) l s hs
@[simp] theorem State.writeTile_wf (s : State) (pa h : Nat) (masks : List Nat) (vals : List (List Kept)) (hs : Memory.wf s.mem = true) :
    Memory.wf (s.writeTile pa h masks vals).mem = true :=
  State.writeTileRows_wf _ _ _ _ _ _ (State.store_wf _ _ _ _ _ hs)
@[simp] theorem State.writeKept_wf (s : State) (pa : Nat) (h : Nat) (rows : List (List FVal)) (keep : List (List Nat)) (hs : Memory.wf s.mem = true) : Memory.wf (State.writeKept s pa h rows keep).mem = true := by simp [State.writeKept, hs]
@[simp] theorem State.issueUnit_mem (s : State) (u : Issue) (op : UnitOp) (a : Word) (b : Word) (c : Word) (dst : Option Reg) : (State.issueUnit s u op a b c dst).mem = s.mem := by simp [State.issueUnit]
@[simp] theorem State.doSprune_wf (s : State) (base : Nat) (x : UnitCmd) (hs : Memory.wf s.mem = true) : Memory.wf (State.doSprune s base x).mem = true := by simp [State.doSprune, hs]
@[simp] theorem State.doSprunet_wf (s : State) (base : Nat) (x : UnitCmd) (hs : Memory.wf s.mem = true) : Memory.wf (State.doSprunet s base x).mem = true := by simp [State.doSprunet, hs]
@[simp] theorem State.doSregrow_wf (s : State) (win : Nat) (base : Nat) (x : UnitCmd) (hs : Memory.wf s.mem = true) : Memory.wf (State.doSregrow s win base x).2.mem = true := by
  simp only [State.doSregrow]
  (repeat' split) <;> simp [foldl_wf, hs]
@[simp] theorem State.doSexpand_wf (s : State) (win base : Nat) (x : UnitCmd) (hs : Memory.wf s.mem = true) :
    Memory.wf (s.doSexpand win base x).2.mem = true := by
  simp only [State.doSexpand]
  generalize List.range 64 = l
  split
  · exact hs
  · split
    · exact hs
    · exact foldl_wf _ (fun t i ht => foldl_wf _ (fun t k ht => State.store_wf _ _ _ _ _ ht) _ _ ht) _ _ hs
@[simp] theorem State.doShdrCk_wf (s : State) (win : Nat) (base : Nat) (x : UnitCmd) (hs : Memory.wf s.mem = true) : Memory.wf (State.doShdrCk s win base x).2.mem = true := by
  simp only [State.doShdrCk]
  split <;> simp [hs]
@[simp] theorem State.returnPred_mem (s : State) (c : Nat) (x : UnitCmd) (v : Bool) : (State.returnPred s c x v).mem = s.mem := by
  simp only [State.returnPred]
  split <;> simp
@[simp] theorem State.doUnit_wf (s : State) (c : Nat) (win : Nat) (base : Nat) (x : UnitCmd) (hs : Memory.wf s.mem = true) : Memory.wf (State.doUnit s c win base x).2.mem = true := by
  simp only [State.doUnit]
  split <;> simp [hs]
@[simp] theorem State.engTouch_wf (s : State) (e : Eng) (need : Need) (m : Mode) (va : Nat) (n : Nat) (hs : Memory.wf s.mem = true) : Memory.wf (State.engTouch s e need m va n).mem = true := by
  simp only [State.engTouch]
  (repeat' split) <;> simp [foldl_wf, hs]
@[simp] theorem State.engTouches_wf (s : State) (e : Eng) (need : Need) (m : Mode) (k va n : Nat) (hs : Memory.wf s.mem = true) :
    Memory.wf (s.engTouches e need m k va n).mem = true := by
  induction k generalizing s va n with
  | zero => exact hs
  | succ k ih =>
    simp only [State.engTouches]
    split
    · exact hs
    · exact ih _ _ _ (State.engTouch_wf _ _ _ _ _ _ hs)
@[simp] theorem State.engAct_wf (s : State) (e : Eng) (pool : Bool) (need : Need) (m : Mode) (a : Int) (n : Nat) (hs : Memory.wf s.mem = true) : Memory.wf (State.engAct s e pool need m a n).mem = true := by
  simp only [State.engAct]
  split <;> simp [hs]
@[simp] theorem State.engReply_mem (s : State) (e : Eng) (pa : Nat) (m : Nat) : (State.engReply s e pa m).mem = s.mem := by
  simp only [State.engReply]
  (repeat' split) <;> simp [foldl_mem, *]
@[simp] theorem State.enginePage_mem (s : State) (e : Eng) (va : Nat) (kind : Nat) : (State.enginePage s e va kind).mem = s.mem := by simp [State.enginePage]
@[simp] theorem State.engineErr_mem (s : State) (e : Eng) (agent : Nat) (cls : Nat) (pa : Nat) (va : Nat) : (State.engineErr s e agent cls pa va).mem = s.mem := by simp [State.engineErr]
theorem State.copyRead_wf {s t : State} {e : Eng} {x : CopyCmd} {k v : Nat} (hs : Memory.wf s.mem = true) (h : s.copyRead e x k = .ok (v, t)) :
    Memory.wf t.mem = true := by
  simp only [State.copyRead] at h
  split at h
  · cases h
  · cases h
    simp [hs]
theorem State.copyWrite_wf {s t : State} {e : Eng} {x : CopyCmd} {k v : Nat} (hs : Memory.wf s.mem = true) (h : s.copyWrite e x k v = .ok t) :
    Memory.wf t.mem = true := by
  simp only [State.copyWrite] at h
  split at h
  · cases h
  · split at h
    · cases h
      simp [hs]
    · split at h
      · cases h
      · cases h
        simp [hs]
@[simp] theorem State.remoteSignal_mem (s : State) (x : CopyCmd) : (State.remoteSignal s x).2.mem = s.mem := by
  simp only [State.remoteSignal]
  split <;> simp
@[simp] theorem CopyRun.read_wf (e : Eng) (r : CopyRun) (k : Nat) (hr : Memory.wf r.s.mem = true) : Memory.wf (r.read e k).s.mem = true := by
  simp only [CopyRun.read]
  split
  · exact hr
  · split
    · exact hr
    · rename_i h
      exact State.copyRead_wf hr h
@[simp] theorem CopyRun.write_wf (e : Eng) (r : CopyRun) (k : Nat) (hr : Memory.wf r.s.mem = true) : Memory.wf (r.write e k).s.mem = true := by
  have h := CopyRun.read_wf e r k hr
  simp only [CopyRun.write]
  split
  · exact hr
  · split
    · split
      · exact h
      · rename_i hw
        exact State.copyWrite_wf h hw
    · exact h
@[simp] theorem CopyRun.move_wf (e : Eng) (r : CopyRun) (m : Nat) (hr : Memory.wf r.s.mem = true) : Memory.wf (r.move e m).s.mem = true := by
  simp only [CopyRun.move]
  split <;> simp [hr]
theorem copyFold_wf {α : Type} (f : CopyRun → α → CopyRun) (h : ∀ r x, Memory.wf r.s.mem = true → Memory.wf (f r x).s.mem = true) (l : List α)
    (r : CopyRun) (hr : Memory.wf r.s.mem = true) : Memory.wf (l.foldl f r).s.mem = true := by
  induction l generalizing r with
  | nil => exact hr
  | cons x l ih => exact ih _ (h r x hr)
@[simp] theorem State.copyMoves_wf (s : State) (e : Eng) (x : CopyCmd) (order : List Nat) (hs : Memory.wf s.mem = true) :
    Memory.wf (s.copyMoves e x order).s.mem = true := by
  simp only [State.copyMoves]
  split
  · exact copyFold_wf _ (CopyRun.write_wf e) _ _ hs
  · exact copyFold_wf _ (CopyRun.move_wf e) _ _ hs
@[simp] theorem State.runCopy_wf (s : State) (e : Eng) (x : CopyCmd) (order : List Nat) (hs : Memory.wf s.mem = true) :
    Memory.wf (s.runCopy e x order).1.mem = true := by
  have h := State.copyMoves_wf s e x order hs
  simp only [State.runCopy]
  split
  · exact hs
  · split <;> simp [h]
theorem State.runCopy_eq_wf {s t : State} {e : Eng} {x y : CopyCmd} {order : List Nat} {z : Option Nat} (hs : Memory.wf s.mem = true)
    (h : s.runCopy e x order = (t, y, z)) : Memory.wf t.mem = true := by
  have := State.runCopy_wf s e x order hs
  rwa [h] at this
@[simp] theorem State.signalCopy_mem (s : State) (x : CopyCmd) (st : Nat) : (State.signalCopy s x st).2.mem = s.mem := by
  simp only [State.signalCopy]
  split <;> simp
@[simp] theorem State.endChan_wf (s : State) (c ch : Nat) (e : Eng) (x : CopyCmd) (st : Nat) (hs : Memory.wf s.mem = true) :
    Memory.wf (s.endChan c ch e x st).mem = true := by
  simp only [State.endChan]
  split <;> simp [hs]
@[simp] theorem State.completeChan_wf (s : State) (c ch : Nat) (order : List Nat) (hs : Memory.wf s.mem = true) :
    Memory.wf (s.completeChan c ch order).mem = true := by
  simp only [State.completeChan]
  split
  · exact hs
  · split
    · exact hs
    · split
      · rename_i h
        simpa using State.runCopy_eq_wf hs h
      · rename_i h
        exact State.endChan_wf _ _ _ _ _ _ (State.runCopy_eq_wf hs h)
@[simp] theorem State.completeQueued_wf (s : State) (ten k : Nat) (order : List Nat) (hs : Memory.wf s.mem = true) :
    Memory.wf (s.completeQueued ten k order).mem = true := by
  simp only [State.completeQueued]
  split
  · exact hs
  · split
    · exact hs
    · split
      · rename_i h
        have := State.runCopy_eq_wf hs h
        exact this
      · rename_i h
        simp [State.runCopy_eq_wf hs h]
@[simp] theorem State.issueCopy_wf (s : State) (u : Issue) (ch : Nat) (d : R11) (x : CopyCmd) (hs : Memory.wf s.mem = true) : Memory.wf (s.issueCopy u ch d x).mem = true := by
  simp only [State.issueCopy]
  split <;> simp [*]
@[simp] theorem State.issueIdx_mem (s : State) (u : Issue) (op : Nat) (gr : Gran) (a : R11) (c : R11) (data : Nat) : (State.issueIdx s u op gr a c data).mem = s.mem := by
  simp only [State.issueIdx]
  split <;> simp
@[simp] theorem State.idxLosses_mem (s : State) (c : Nat) (x : IdxCmd) (lost : List (Nat × Nat)) : (s.idxLosses c x lost).mem = s.mem := by
  refine foldl_mem _ (fun s p => ?_) _ s
  simp only []
  (repeat' split) <;> simp
@[simp] theorem IdxRun.stopped_wf (r : IdxRun) (ks : List Nat) (adr : Nat) (z : Stop) (hr : Memory.wf r.s.mem = true) :
    Memory.wf (r.stopped ks adr z).s.mem = true := by
  cases z <;> exact hr
theorem idxFold_wf {α : Type} (f : IdxRun → α → IdxRun) (h : ∀ r x, Memory.wf r.s.mem = true → Memory.wf (f r x).s.mem = true) (l : List α)
    (r : IdxRun) (hr : Memory.wf r.s.mem = true) : Memory.wf (l.foldl f r).s.mem = true := by
  induction l generalizing r with
  | nil => exact hr
  | cons x l ih => exact ih _ (h r x hr)
@[simp] theorem IdxRun.gather_wf (c : Nat) (r : IdxRun) (l : Nat) (hr : Memory.wf r.s.mem = true) : Memory.wf (r.gather c l).s.mem = true := by
  simp only [IdxRun.gather]
  (repeat' split) <;> simp [hr]
@[simp] theorem IdxRun.scatter_wf (c : Nat) (r : IdxRun) (l : Nat) (hr : Memory.wf r.s.mem = true) : Memory.wf (r.scatter c l).s.mem = true := by
  simp only [IdxRun.scatter]
  (repeat' split) <;> simp [hr]
@[simp] theorem IdxRun.add_wf (c : Nat) (r : IdxRun) (k : Nat) (hr : Memory.wf r.s.mem = true) : Memory.wf (r.add c k).s.mem = true := by
  simp only [IdxRun.add]
  (repeat' split) <;> simp [hr]
@[simp] theorem IdxCmd.run_wf (x : IdxCmd) (s : State) (c : Nat) (order : List Nat) (hs : Memory.wf s.mem = true) :
    Memory.wf (x.run s c order).s.mem = true := by
  simp only [IdxCmd.run]
  refine idxFold_wf _ (fun r k hr => ?_) _ _ hs
  split
  · exact IdxRun.gather_wf c r k hr
  · split
    · exact IdxRun.scatter_wf c r k hr
    · exact IdxRun.add_wf c r k hr
@[simp] theorem State.completeIdx_wf (s : State) (c i : Nat) (gathers : Bool) (order : List Nat) (hs : Memory.wf s.mem = true) :
    Memory.wf (s.completeIdx c i gathers order).mem = true := by
  simp only [State.completeIdx]
  split
  · exact hs
  · rename_i x _
    have h := IdxCmd.run_wf x s c order hs
    split
    · exact hs
    · split
      · simp [h]
      · simpa using h
      · simp [h]
      · simpa using h
      · split
        · simpa using h
        · split <;> simp [h]
@[simp] theorem State.pushHash_mem (s : State) (u : Issue) (kind : AccKind) (d : R11) (c : R11) (keys : Nat) (vals : Nat) : (State.pushHash s u kind d c keys vals).mem = s.mem := rfl
end Sys2Proof.Machine
end

