-- ==== Sys2Proof/Laws/FramesControl.lean ====
section
/-! SUPPORT. Memory across issue, walks, spilling, strands, launches and the host: left alone, or kept in its canonical form. -/

namespace Sys2Proof.Machine
set_option Elab.async false
set_option linter.all false
@[simp] theorem State.buffer_mem (s : State) (c : Nat) (ten : Nat) (va : Nat) (ws : List Word) (own : Bool) : (s.buffer c ten va ws own).mem = s.mem := by
  simp only [State.buffer]
  split <;> rfl
@[simp] theorem State.fetched_mem (s : State) (c ten lid : Nat) (fresh : Bool) (va : Nat) : (s.fetched c ten lid fresh va).mem = s.mem := by
  simp only [State.fetched]
  (repeat' split) <;> simp
@[simp] theorem State.tryWait_wf (s : State) (c : Nat) (i : Nat) (hs : Memory.wf s.mem = true) : Memory.wf (State.tryWait s c i).1.mem = true := by
  simp only [State.tryWait]
  (repeat' split) <;> simp [foldl_wf, hs]
theorem State.tryWait_eq_wf {s t : State} {c i : Nat} {b : Bool} (hs : Memory.wf s.mem = true) (h : s.tryWait c i = (t, b)) : Memory.wf t.mem = true := by
  have := State.tryWait_wf s c i hs
  rwa [h] at this
@[simp] theorem State.tryBcw_wf (s : State) (c : Nat) (i : Nat) (b : Bcw) (hs : Memory.wf s.mem = true) : Memory.wf (State.tryBcw s c i b).1.mem = true := by
  simp only [State.tryBcw]
  (repeat' split) <;> simp [foldl_wf, hs]
theorem State.tryBcw_eq_wf {s t : State} {c i : Nat} {x : Bcw} {b : Bool} (hs : Memory.wf s.mem = true) (h : s.tryBcw c i x = (t, b)) :
    Memory.wf t.mem = true := by
  have := State.tryBcw_wf s c i x hs
  rwa [h] at this
@[simp] theorem State.attempt_wf (s : State) (c i : Nat) (fresh : Bool) (hs : Memory.wf s.mem = true) : Memory.wf (s.attempt c i fresh).1.mem = true := by
  simp only [State.attempt]
  split
  · exact hs
  · rename_i x _
    split
    · exact hs
    · split
      · rename_i h
        exact State.tryWait_eq_wf hs h
      · rename_i h
        have h := State.tryWait_eq_wf hs h
        split
        · exact h
        · have hf (t : State) (l : List Nat) (ht : Memory.wf t.mem = true) :
              Memory.wf (l.foldl (fun s va => s.fetched c x.ten x.lid fresh va) t).mem = true :=
            foldl_wf _ (fun s va hs => by simp [hs]) l t ht
          split
          · exact hf _ _ h
          · split
            · rename_i h'
              refine State.tryBcw_eq_wf ?_ h'
              rw [State.buffer_mem]
              exact hf _ _ h
            · rename_i h'
              refine State.tryBcw_eq_wf ?_ h'
              rw [State.buffer_mem]
              exact hf _ _ h
@[simp] theorem State.arriveGears_mem (s : State) (c : Nat) : (State.arriveGears s c).mem = s.mem := rfl
@[simp] theorem State.bumpSeq_mem (s : State) (c : Nat) : (State.bumpSeq s c).mem = s.mem := rfl
@[simp] theorem State.dropAsk_mem (s : State) (c i : Nat) : (s.dropAsk c i).mem = s.mem := rfl
@[simp] theorem State.unseat_mem (s : State) (c : Nat) (i : Nat) : (State.unseat s c i).mem = s.mem := rfl
@[simp] theorem State.blockSeat_mem (s : State) (c : Nat) (i : Nat) : (State.blockSeat s c i).mem = s.mem := by simp [State.blockSeat]
@[simp] theorem State.holdSeat_mem (s : State) (c : Nat) (i : Nat) : (State.holdSeat s c i).mem = s.mem := rfl
@[simp] theorem State.countDeficit_mem (s : State) (c : Nat) (i : Nat) (fixed : Bool) : (State.countDeficit s c i fixed).mem = s.mem := by
  simp only [State.countDeficit]
  split <;> simp
@[simp] theorem State.carry_mem (s : State) (c : Nat) (i : Nat) (x0 : Verdict) : (State.carry s c i x0).mem = s.mem := by
  simp only [State.carry]
  split <;> simp
@[simp] theorem State.preemptNow_mem (s : State) (c : Nat) (i : Nat) : (State.preemptNow s c i).mem = s.mem := by
  simp only [State.preemptNow]
  (repeat' split) <;> simp [foldl_mem, *]
@[simp] theorem State.takeDeferred_mem (s : State) (c : Nat) (i : Nat) : (State.takeDeferred s c i).mem = s.mem := by
  simp only [State.takeDeferred]
  split <;> simp
@[simp] theorem State.refresh_mem (s : State) (c : Nat) (i : Nat) : (State.refresh s c i).mem = s.mem := by simp [State.refresh]
@[simp] theorem State.issueStep_wf (s : State) (c i : Nat) (fresh : Bool) (hs : Memory.wf s.mem = true) : Memory.wf (s.issueStep c i fresh).mem = true := by
  have h : Memory.wf (s.refresh c i).mem = true := by simpa using hs
  simp only [State.issueStep]
  split
  · simpa using hs
  · split
    · simp [hs]
    · split
      · simp [hs]
      · split
        · simp [hs]
        · split
          · simp [hs]
          · split
            · simp [hs]
            · split
              · rename_i hw
                simpa using State.tryWait_eq_wf h hw
              · rename_i hw
                have hw := State.tryWait_eq_wf h hw
                split
                · simp [hw]
                · simp [hw]
@[simp] theorem State.giveUp_mem (s : State) (c : Nat) (i : Nat) : (State.giveUp s c i).mem = s.mem := by simp [State.giveUp]
@[simp] theorem State.failMiss_mem (s : State) (c : Nat) (i : Nat) (a : Acc) (r : Nat) : (State.failMiss s c i a r).mem = s.mem := by simp [State.failMiss]
@[simp] theorem State.endMiss_mem (s : State) (c : Nat) (i : Nat) (id : Nat) (found : Except Nat (Option Tlb)) : (State.endMiss s c i id found).mem = s.mem := by
  simp only [State.endMiss]
  (repeat' split) <;> simp [foldl_mem, *]
@[simp] theorem State.fillAskers_mem (s : State) (die ten page : Nat) (found : Except Nat (Option Tlb)) : (s.fillAskers die ten page found).mem = s.mem := by
  unfold State.fillAskers
  split
  · exact foldl_mem _ (fun s c => State.tlbFill_mem _ _ _) _ _
  · rfl
@[simp] theorem State.endPrefetch_mem (s : State) (c va : Nat) (found : Except Nat (Option Tlb)) : (s.endPrefetch c va found).mem = s.mem := by
  unfold State.endPrefetch
  (repeat' split) <;> simp
@[simp] theorem State.answerAsks_mem (s : State) (die ten page : Nat) (found : Except Nat (Option Tlb)) : (s.answerAsks die ten page found).mem = s.mem := by
  simp only [State.answerAsks]
  rw [foldl_mem _ (fun s p => State.endPrefetch_mem _ _ _ _), State.modDie_mem]
  exact State.fillAskers_mem _ _ _ _ _
@[simp] theorem State.walked_wf (s : State) (die : Nat) (w : Walk) (hs : Memory.wf s.mem = true) : Memory.wf (s.walked die w).mem = true := by
  simp only [State.walked]
  rw [State.modDie_mem, State.rooted_mem]
  exact State.fixTables_wf _ _ _ _ (by simpa using hs)
@[simp] theorem State.runSeat_mem (s : State) (c : Nat) (i : Nat) : (State.runSeat s c i).mem = s.mem := by
  simp only [State.runSeat]
  split <;> simp
@[simp] theorem State.resumeHalted_mem (s : State) (c : Nat) (i : Nat) (step : Bool) : (State.resumeHalted s c i step).mem = s.mem := rfl
@[simp] theorem State.writePlaces_wf {α : Type} (s : State) (ten lid base : Nat) (ps : List (Place1 α)) (x : α) (hs : Memory.wf s.mem = true) :
    Memory.wf (s.writePlaces ten lid base ps x).mem = true :=
  foldl_wf _ (fun s p hs => by simp [hs]) _ _ hs
@[simp] theorem State.fillPlaces_wf {α : Type} (s : State) (ten lid base : Nat) (ps : List (Place1 α)) (hs : Memory.wf s.mem = true) :
    Memory.wf (s.fillPlaces ten lid base ps).mem = true :=
  foldl_wf _ (fun s p hs => by simp [hs]) _ _ hs
@[simp] theorem State.spillOut_wf (s : State) (x : Strand) (t : Seat) (mx : Option Matrix) (live : Word) (hs : Memory.wf s.mem = true) :
    Memory.wf (s.spillOut x t mx live).mem = true := by
  simp only [State.spillOut]
  split
  · exact State.writePlaces_wf _ _ _ _ _ _ hs
  · exact State.writePlaces_wf _ _ _ _ _ _ (State.writePlaces_wf _ _ _ _ _ _ hs)
@[simp] theorem State.restoreFill_wf (s : State) (r : Rec) (hs : Memory.wf s.mem = true) : Memory.wf (State.restoreFill s r).mem = true := by
  simp only [State.restoreFill]
  split <;> simp [hs]
@[simp] theorem State.vacate_wf (s : State) (c i : Nat) (z : Exit) (r : Rec) (hs : Memory.wf s.mem = true) : Memory.wf (s.vacate c i z r).mem = true := by
  simp only [State.vacate]
  refine State.setRecs_wf _ _ _ ?_
  rw [State.modDie_mem]
  refine State.writeRec_wf _ _ _ ?_
  rw [State.freeSeat_mem]
  refine State.spillOut_wf _ _ _ _ _ ?_
  split
  · rw [State.releaseSeat_mem]
    exact hs
  · exact hs
@[simp] theorem State.leaveAs_wf (s : State) (c i : Nat) (z : Exit) (r : Rec) (hs : Memory.wf s.mem = true) : Memory.wf (s.leaveAs c i z r).mem = true := by
  simp only [State.leaveAs]
  split <;> simp [hs]
@[simp] theorem State.leaveSeat_wf (s : State) (c i : Nat) (z : Exit) (hs : Memory.wf s.mem = true) : Memory.wf (s.leaveSeat c i z).mem = true := by
  simp only [State.leaveSeat]
  split <;> simp [hs]
@[simp] theorem State.beforeSpill_wf (s : State) (c i : Nat) (hs : Memory.wf s.mem = true) : Memory.wf (s.beforeSpill c i).mem = true := by
  simp only [State.beforeSpill]
  exact State.tryWait_wf _ _ _ (by simp [hs])
@[simp] theorem State.wakeWhere_wf (s : State) (d : Nat) (p : Rec → Bool) (hs : Memory.wf s.mem = true) : Memory.wf (State.wakeWhere s d p).mem = true := by simp [State.wakeWhere, hs]
@[simp] theorem State.passTurn_mem (s : State) (c : Nat) : (State.passTurn s c).mem = s.mem := by
  simp only [State.passTurn]
  split <;> simp
@[simp] theorem State.takeRec_wf (s : State) (d : Nat) (e : Nat) (hs : Memory.wf s.mem = true) : Memory.wf (State.takeRec s d e).mem = true := by simp [State.takeRec, hs]
@[simp] theorem State.endRec_wf (s : State) (d : Nat) (r : Rec) (status : Nat) (hs : Memory.wf s.mem = true) : Memory.wf (State.endRec s d r status).mem = true := by simp [State.endRec, hs]
@[simp] theorem State.bindRecs_wf (s : State) (d k : Nat) (p : Rec → Bool) (hs : Memory.wf s.mem = true) : Memory.wf (s.bindRecs d k p).mem = true :=
  State.setRecs_wf _ _ _ (foldl_wf _ (fun s r hs => State.writeRec_wf _ _ _ hs) _ _ hs)
@[simp] theorem State.placeGroup_wf (s : State) (d c : Nat) (x : Strand) (hs : Memory.wf s.mem = true) : Memory.wf (s.placeGroup d c x).mem = true := by
  simp only [State.placeGroup]
  (repeat' split) <;> simp [hs]
@[simp] theorem State.relinkDie_wf (s : State) (d : Nat) (hs : Memory.wf s.mem = true) : Memory.wf (s.relinkDie d).mem = true := State.relink_wf _ _ _ hs
@[simp] theorem State.setDrain_wf (s : State) (d cl : Nat) (z : Drain) (hs : Memory.wf s.mem = true) : Memory.wf (s.setDrain d cl z).mem = true :=
  State.relinkDie_wf _ _ hs
@[simp] theorem State.seatRec_wf (s : State) (d : Nat) (r : Rec) (c : Nat) (i : Nat) (hs : Memory.wf s.mem = true) : Memory.wf (State.seatRec s d r c i).mem = true := by simp [State.seatRec, hs]
@[simp] theorem State.askYield_mem (s : State) (c : Nat) (i : Nat) : (State.askYield s c i).mem = s.mem := by
  simp only [State.askYield]
  split <;> simp
@[simp] theorem State.askFor_mem (s : State) (c : Nat) (i : Nat) (e : Nat) : (State.askFor s c i e).mem = s.mem := by simp [State.askFor]
@[simp] theorem State.takePacket_wf (s : State) (ten : Nat) (q : Nat) (p : Packet) (hs : Memory.wf s.mem = true) : Memory.wf (State.takePacket s ten q p).mem = true := by
  simp only [State.takePacket]
  split <;> simp [hs]
@[simp] theorem State.onPacket_wf (s : State) (ten q : Nat) (types : Nat → Bool) (k : Packet → State → State)
    (hk : ∀ p s, Memory.wf s.mem = true → Memory.wf (k p s).mem = true) (hs : Memory.wf s.mem = true) :
    Memory.wf (s.onPacket ten q types k).mem = true := by
  unfold State.onPacket
  extract_lets t
  have ht : Memory.wf t.mem = true := by
    simp only [t]
    split <;> simp [hs]
  split
  · exact ht
  · split
    · exact hk _ _ (State.takePacket_wf _ _ _ _ ht)
    · exact ht
@[simp] theorem State.failPacket_wf (s : State) (l : Launch) (status : Nat) (hs : Memory.wf s.mem = true) : Memory.wf (State.failPacket s l status).mem = true := by simp [State.failPacket, hs]
@[simp] theorem State.dropCode_mem (s : State) (ten : Nat) : (State.dropCode s ten).mem = s.mem := rfl
@[simp] theorem State.queueCopy_wf (s : State) (ten : Nat) (q : Nat) (p : Packet) (hs : Memory.wf s.mem = true) : Memory.wf (State.queueCopy s ten q p).mem = true := by simp [State.queueCopy, hs]
@[simp] theorem State.signalStore_wf (s : State) (ten : Nat) (va : Nat) (v : Nat) (compl : Nat) (n : Nat) (hs : Memory.wf s.mem = true) : Memory.wf (State.signalStore s ten va v compl n).mem = true := by
  simp only [State.signalStore]
  split <;> simp [hs]
@[simp] theorem State.modKey_mem (s : State) (ten : Nat) (key : Nat) (f : Launch → Launch) : (State.modKey s ten key f).mem = s.mem := rfl
@[simp] theorem State.reserveWindow_wf (s : State) (l : Launch) (d base : Nat) (hs : Memory.wf s.mem = true) :
    Memory.wf (s.reserveWindow l d base).mem = true := by
  simp only [State.reserveWindow, State.modKey_mem]
  exact wf_zeroFill _ _ _ hs
@[simp] theorem State.createRec_wf (s : State) (l : Launch) (d : Nat) (choice : Nat) (hs : Memory.wf s.mem = true) : Memory.wf (State.createRec s l d choice).mem = true := by
  simp only [State.createRec]
  (repeat' split) <;> simp [foldl_wf, hs]
@[simp] theorem State.dropRecsOf_wf (s : State) (ten lid : Nat) (hs : Memory.wf s.mem = true) : Memory.wf (s.dropRecsOf ten lid).mem = true :=
  foldl_wf _ (fun s x hs => State.setRecs_wf _ _ _ hs) _ _ hs
@[simp] theorem State.tueDone_mem (s : State) (bad : Bool) : (State.tueDone s bad).mem = s.mem := rfl
@[simp] theorem State.tueStep_wf (s : State) (mine : Nat → Bool) (k : TueCmd → State → State)
    (hk : ∀ p s, Memory.wf s.mem = true → Memory.wf (k p s).mem = true) (hs : Memory.wf s.mem = true) : Memory.wf (s.tueStep mine k).mem = true := by
  simp only [State.tueStep]
  (repeat' split) <;> simp [*]
@[simp] theorem State.tableStore_wf (s : State) (d : Nat) (off : Nat) (v : Nat) (hs : Memory.wf s.mem = true) : Memory.wf (State.tableStore s d off v).mem = true := by
  simp only [State.tableStore]
  split <;> simp [hs]
@[simp] theorem State.dropAllTlbs_mem (s : State) (ten : Nat) (base : Nat) (n : Nat) : (State.dropAllTlbs s ten base n).mem = s.mem := rfl
@[simp] theorem State.flush_mem (s : State) (ten : Nat) (base : Nat) (n : Nat) : (State.flush s ten base n).mem = s.mem := by
  simp only [State.flush]
  split <;> simp
@[simp] theorem State.postKill_mem (s : State) (ten : Nat) : (State.postKill s ten).mem = s.mem := rfl
@[simp] theorem State.replyHost_mem (s : State) (ur : Bool) (poisoned : Bool) (v : Nat) : (State.replyHost s ur poisoned v).mem = s.mem := rfl
@[simp] theorem State.hostRead_mem (s : State) (fn : Nat) (va : Nat) (n : Nat) : (State.hostRead s fn va n).mem = s.mem := by
  simp only [State.hostRead]
  split <;> (try split) <;> simp
@[simp] theorem State.hostWrite_wf (s : State) (fn : Nat) (va : Nat) (n : Nat) (v : Nat) (hs : Memory.wf s.mem = true) : Memory.wf (State.hostWrite s fn va n v).mem = true := by
  simp only [State.hostWrite]
  split <;> simp [hs]
@[simp] theorem State.replyPeer_mem (s : State) (reason : Nat) (vals : List Nat) : (State.replyPeer s reason vals).mem = s.mem := rfl
@[simp] theorem State.refusePeer_mem (s : State) (ten : Nat) (va : Nat) (e : AgentStop) : (State.refusePeer s ten va e).mem = s.mem := by
  simp only [State.refusePeer]
  split <;> simp
@[simp] theorem State.onceFor_wf (s : State) (d : Nat) (tag : FabTag) (k : State → State × Nat × List Nat)
    (hk : ∀ s, Memory.wf s.mem = true → Memory.wf (k s).1.mem = true) (hs : Memory.wf s.mem = true) :
    Memory.wf (s.onceFor d tag k).mem = true := by
  simp only [State.onceFor]
  split
  · simpa using hs
  · simpa using hk s hs
@[simp] theorem State.peerAtomic_wf (s : State) (op : AtOp) (n : Nat) (v : Nat) (u : Nat) (ps : List Part) (hs : Memory.wf s.mem = true) : Memory.wf (State.peerAtomic s op n v u ps).1.mem = true := by
  simp only [State.peerAtomic]
  split <;> simp [hs]
@[simp] theorem State.boardFor_mem (s : State) (ten : Nat) (kind : Nat) (handle : Word) (part : Word) (value : Word) (explicit : Bool) : (State.boardFor s ten kind handle part value explicit).1.mem = s.mem := by
  simp only [State.boardFor]
  (repeat' split) <;> simp [foldl_mem, *]
@[simp] theorem State.applyPeer_wf (s : State) (ten : Nat) (req : FabReq) (hs : Memory.wf s.mem = true) : Memory.wf (s.applyPeer ten req).mem = true := by
  simp only [State.applyPeer]
  split
  · split <;> simp [hs]
  · split <;> simp [hs]
  · split
    · split
      · exact State.onceFor_wf _ _ _ _ (fun s hs => State.peerAtomic_wf _ _ _ _ _ _ hs) hs
      · simpa using hs
    · simp [hs]
  · split
    · exact hs
    · exact State.onceFor_wf _ _ _ _ (fun s hs => by simpa using hs) hs
end Sys2Proof.Machine
end

