-- ==== Sys2Proof/Laws/FramesPackage.lean ====
section
/-! SUPPORT. Memory across the fabric, the reliability mechanisms and the placing of a program: kept in its canonical form. -/

namespace Sys2Proof.Machine
set_option Elab.async false
set_option linter.all false
@[simp] theorem State.freezeAll_mem (s : State) : s.freezeAll.mem = s.mem := foldl_mem _ (fun _ _ => State.modTenancy_mem _ _ _) _ s
@[simp] theorem State.loseRequests_mem (s : State) (m : Nat) : (State.loseRequests s m).mem = s.mem := rfl
@[simp] theorem State.loseModule_mem (s : State) (m : Nat) : (s.loseModule m).mem = s.mem := by
  simp only [State.loseModule]
  split
  · split
    · simp [State.loseRequests]
    · rfl
  · split
    · rfl
    · simp [State.loseRequests]
@[simp] theorem State.newHome_mem (s : State) (m : Nat) : (State.newHome s m).mem = s.mem := rfl
@[simp] theorem State.timeOut_mem (s : State) (c : Nat) (r : Responder) (sent : Nat) (restart : State) (hr : restart.mem = s.mem) :
    (s.timeOut c r sent restart).mem = s.mem := by
  simp only [State.timeOut]
  split
  · rfl
  · split
    · rfl
    · split
      · exact hr
      · rw [State.post_mem, State.modDie_mem]
        exact hr
    · split <;> simp
@[simp] theorem State.accTimeout_mem (s : State) (c i : Nat) (a : Acc) : (s.accTimeout c i a).mem = s.mem := by
  simp only [State.accTimeout]
  split
  · rfl
  · split <;> simp
  · exact State.timeOut_mem _ _ _ _ _ (State.modSeat_mem _ _ _ _)
@[simp] theorem State.heldTimeout_mem (s : State) (c i : Nat) (h : Held) : (s.heldTimeout c i h).mem = s.mem := by
  simp only [State.heldTimeout]
  split
  · rfl
  · exact State.timeOut_mem _ _ _ _ _ (State.modSeat_mem _ _ _ _)
@[simp] theorem State.waitTimeout_mem (s : State) (c : Nat) (w : Option (Nat × Nat)) (put : State → Option (Nat × Nat) → State)
    (hp : ∀ s w, (put s w).mem = s.mem) : (s.waitTimeout c w put).mem = s.mem := by
  simp only [State.waitTimeout]
  split
  · rfl
  · exact State.timeOut_mem _ _ _ _ _ (hp _ _)
@[simp] theorem State.engineTimeout_mem (s : State) (c : Nat) (w : Option (Nat × Nat)) (away : Option Nat)
    (put : State → Option (Nat × Nat) → State) (hp : ∀ s w, (put s w).mem = s.mem) : (s.engineTimeout c w away put).mem = s.mem := by
  simp only [State.engineTimeout]
  split
  · exact State.waitTimeout_mem _ _ _ _ hp
  · split
    · rfl
    · exact hp _ _
@[simp] theorem State.chanTimeout_mem (s : State) (c ch : Nat) : (s.chanTimeout c ch).mem = s.mem := by
  simp only [State.chanTimeout]
  split
  · rfl
  · split
    · rfl
    · exact State.engineTimeout_mem _ _ _ _ _ (fun _ _ => State.modCore_mem _ _ _)
@[simp] theorem State.idxTimeout_mem (s : State) (c i : Nat) : (s.idxTimeout c i).mem = s.mem := by
  simp only [State.idxTimeout]
  split
  · rfl
  · split
    · rfl
    · exact State.engineTimeout_mem _ _ _ _ _ (fun _ _ => State.modCore_mem _ _ _)
@[simp] theorem State.queueTimeout_mem (s : State) (ten : Nat) (k : Nat) : (State.queueTimeout s ten k).mem = s.mem := by
  simp only [State.queueTimeout]
  (repeat' split) <;> simp [foldl_mem, *]
@[simp] theorem State.walkTimeout_mem (s : State) (me d : Nat) : (s.walkTimeout me d).mem = s.mem := by
  simp only [State.walkTimeout]
  split
  · exact State.modDie_mem _ _ _
  · split
    · exact State.modDie_mem _ _ _
    · exact State.timeOut_mem _ _ _ _ _ (State.modDie_mem _ _ _)
@[simp] theorem State.shiftModules_mem (s : State) (p : Nat → Bool) (n : Nat) : (State.shiftModules s p n).mem = s.mem := rfl
@[simp] theorem State.endHold_mem (s : State) (port : Nat) : (State.endHold s port).mem = s.mem := by
  simp only [State.endHold]
  split <;> simp
@[simp] theorem State.beginHold_mem (s : State) (port : Nat) : (State.beginHold s port).mem = s.mem := by simp [State.beginHold]
@[simp] theorem State.retrain_mem (s : State) (port : Nat) : (State.retrain s port).mem = s.mem := by
  simp only [State.retrain]
  split <;> simp
@[simp] theorem State.podRelease_wf (s : State) (l : Launch) (c : Nat) (peers : List (Nat × Word)) (hs : Memory.wf s.mem = true) : Memory.wf (State.podRelease s l c peers).mem = true := by
  simp only [State.podRelease]
  (repeat' split) <;> simp [foldl_wf, hs]
@[simp] theorem State.poisonUnit_mem (s : State) (u : Nat) : (State.poisonUnit s u).mem = s.mem := by
  simp only [State.poisonUnit]
  (repeat' split) <;> simp [foldl_mem, *]
@[simp] theorem State.poisonLine_mem (s : State) (u : Nat) : (State.poisonLine s u).mem = s.mem := by
  simp only [State.poisonLine]
  split <;> simp
@[simp] theorem State.modCluster_mem (s : State) (d : Nat) (cl : Nat) (f : Cluster → Cluster) : (State.modCluster s d cl f).mem = s.mem := rfl
@[simp] theorem State.drainSeats_mem (s : State) (d cl : Nat) : (s.drainSeats d cl).mem = s.mem := by
  refine foldl_mem _ (fun s p => ?_) _ _
  dsimp only
  split
  · exact State.askYield_mem _ _ _
  · rfl
@[simp] theorem State.stopDrain_mem (s : State) (d cl : Nat) : (s.stopDrain d cl).mem = s.mem := foldl_mem _ (fun _ _ => by simp) _ s
@[simp] theorem State.beginPass_wf (s : State) (d : Nat) (hs : Memory.wf s.mem = true) : Memory.wf (s.beginPass d).mem = true := by
  simp only [State.beginPass]
  split
  · simpa using hs
  · rw [State.drainSeats_mem]
    exact State.setDrain_wf _ _ _ _ (by simpa using hs)
@[simp] theorem State.rebind_wf (s : State) (d : Nat) (c : Nat) (r : Rec) (hs : Memory.wf s.mem = true) : Memory.wf (State.rebind s d c r).mem = true := by
  simp only [State.rebind]
  (repeat' split) <;> simp [foldl_wf, hs]
@[simp] theorem State.loseCore_wf (s : State) (d c : Nat) (hs : Memory.wf s.mem = true) : Memory.wf (s.loseCore d c).mem = true :=
  State.relinkDie_wf _ _ (foldl_wf _ (fun s x hs => State.rebind_wf _ _ _ _ hs) _ _ (by simpa using hs))
@[simp] theorem State.judgeCore_wf (s : State) (d : Nat) (cl : Nat) (failed : List Nat) (j : Nat) (hs : Memory.wf s.mem = true) : Memory.wf (State.judgeCore s d cl failed j).mem = true := by
  simp only [State.judgeCore]
  (repeat' split) <;> simp [foldl_wf, hs]
@[simp] theorem State.judgeCluster_wf (s : State) (d cl : Nat) (found : List Nat) (hs : Memory.wf s.mem = true) :
    Memory.wf (s.judgeCluster d cl found).mem = true := by
  simp only [State.judgeCluster]
  rw [State.modCluster_mem]
  exact foldl_wf _ (fun s j hs => State.judgeCore_wf _ _ _ _ _ hs) _ _ hs
@[simp] theorem State.emit_wf (s : State) (d : Nat) (r : EvRec) (hs : Memory.wf s.mem = true) : Memory.wf (State.emit s d r).mem = true := by simp [State.emit, hs]
@[simp] theorem State.sendEvent_wf (s : State) (d : Nat) (hs : Memory.wf s.mem = true) : Memory.wf (State.sendEvent s d).mem = true := by
  simp only [State.sendEvent]
  (repeat' split) <;> simp [foldl_wf, hs]
@[simp] theorem State.shiftQueues_mem (s : State) (n : Nat) : (State.shiftQueues s n).mem = s.mem := rfl
@[simp] theorem State.closeIssue_mem (s : State) : (State.closeIssue s).mem = s.mem := by
  simp only [State.closeIssue]
  split <;> simp
@[simp] theorem State.nextEvent_mem (s : State) : (State.nextEvent s).2.mem = s.mem := by
  simp only [State.nextEvent]
  split <;> simp
theorem placeWords_wf (m : Tab Byte) (a : Nat) (ws : List Word) (hm : Memory.wf m = true) : Memory.wf (placeWords m a ws) = true := by
  induction ws generalizing m a with
  | nil => exact hm
  | cons w r ih => exact ih _ _ (wf_leWrite _ _ _ _ hm)
@[simp] theorem State.placeProgram_wf (s : State) (ws : List Word) (hs : Memory.wf s.mem = true) : Memory.wf (s.placeProgram ws).mem = true :=
  placeWords_wf _ _ _ hs
@[simp] theorem State.withFetchWord_wf (s : State) (nbits : Nat) (w : Nat) (hs : Memory.wf s.mem = true) : Memory.wf (State.withFetchWord s nbits w).mem = true := by simp [State.withFetchWord, hs]
end Sys2Proof.Machine
end

