-- ==== Sys2Proof/Laws/Keeps.lean ====
section
/-! SUPPORT. Every meaning answers a next state whose memory is in its canonical form when it began so. -/

namespace Sys2Proof.Machine
set_option Elab.async false
/-- An outcome that is a next state with memory in its canonical form. -/
def Keeps (o : Host.Outcome State Fault Refusal) : Prop := ∃ t, o = .next t ∧ Memory.wf t.mem = true
@[simp] theorem keeps_next (t : State) : Keeps (.next t) ↔ Memory.wf t.mem = true :=
  ⟨fun ⟨_, h, ht⟩ => by cases h; exact ht, fun h => ⟨t, rfl, h⟩⟩
@[simp] theorem onIssue_keeps (s : State) (k : Issue → State) (hs : Memory.wf s.mem = true) (hk : ∀ u, Memory.wf (k u).mem = true) :
    Keeps (onIssue s k) := by
  simp only [onIssue]
  split <;> simp [*]
@[simp] theorem simple_keeps (s : State) (g : Guard) (k : Issue → State) (hs : Memory.wf s.mem = true) (hk : ∀ u, Memory.wf (k u).mem = true) :
    Keeps (simple s g k) := by
  refine onIssue_keeps _ _ hs (fun u => ?_)
  split
  · exact hk u
  · exact hs
@[simp] theorem guarded_keeps (s : State) (g : Guard) (pre : Issue → Pre) (k : Issue → State → State) (hs : Memory.wf s.mem = true)
    (hk : ∀ u, Memory.wf (k u s).mem = true) : Keeps (guarded s g pre k) := by
  refine onIssue_keeps _ _ hs (fun u => ?_)
  split
  · exact gate_wf _ _ _ _ hs (hk u)
  · exact hs
@[simp] theorem vecForm_keeps (s : State) (g : Guard) (x : VW) (src : List VSrc) (k : Issue → List Vec → State → State) (hs : Memory.wf s.mem = true)
    (hk : ∀ u vs t, Memory.wf t.mem = true → Memory.wf (k u vs t).mem = true) : Keeps (vecForm s g x src k) := by
  refine onIssue_keeps _ _ hs (fun u => ?_)
  simp only []
  split
  · exact hk _ _ _ (by simpa using hs)
  · simpa using hs
@[simp] theorem branchForm_keeps (s : State) (k : Issue → Option Word) (hs : Memory.wf s.mem = true) : Keeps (branchForm s k) :=
  onIssue_keeps _ _ hs (fun u => by simpa using hs)
@[simp] theorem callForm_keeps (s : State) (g : Guard) (d : R11) (k : Issue → Word) (hs : Memory.wf s.mem = true) : Keeps (callForm s g d k) := by
  refine onIssue_keeps _ _ hs (fun u => ?_)
  split
  · exact gate_wf _ _ _ _ hs (by simpa using hs)
  · simpa using hs
@[simp] theorem intForm_keeps (s : State) (g : Guard) (x : IJ) (d : R11) (k : Issue → Nat) (hs : Memory.wf s.mem = true) : Keeps (intForm s g x d k) :=
  simple_keeps _ _ _ hs (fun u => by simpa using hs)
@[simp] theorem intForm2_keeps (s : State) (g : Guard) (x : IJ) (d a b : R11) (f : Nat → Nat → Nat) (hs : Memory.wf s.mem = true) :
    Keeps (intForm2 s g x d a b f) := intForm_keeps _ _ _ _ _ hs
@[simp] theorem kForm_keeps (s : State) (g : Guard) (lat : Nat) (f : KFile) (d : R11) (k : Issue → Nat) (hs : Memory.wf s.mem = true) :
    Keeps (kForm s g lat f d k) := simple_keeps _ _ _ hs (fun u => by simpa using hs)
@[simp] theorem fForm_keeps (s : State) (g : Guard) (lat : Nat) (d : R11) (k : Issue → FRes) (hs : Memory.wf s.mem = true) :
    Keeps (fForm s g lat d k) := simple_keeps _ _ _ hs (fun u => by simpa using hs)
@[simp] theorem fForm1_keeps (s : State) (g : Guard) (t : FT) (lat : Nat) (d a : R11) (k : FFmt → Bool → Nat → FRes) (hs : Memory.wf s.mem = true) :
    Keeps (fForm1 s g t lat d a k) := fForm_keeps _ _ _ _ _ hs
@[simp] theorem fForm2_keeps (s : State) (g : Guard) (t : FT) (lat : Nat) (d a b : R11) (k : FFmt → Bool → Nat → Nat → FRes)
    (hs : Memory.wf s.mem = true) : Keeps (fForm2 s g t lat d a b k) := fForm_keeps _ _ _ _ _ hs
@[simp] theorem fPlain_keeps (s : State) (g : Guard) (lat : Nat) (f : File) (n : Nat) (k : Issue → Nat) (hs : Memory.wf s.mem = true) :
    Keeps (fPlain s g lat f n k) := simple_keeps _ _ _ hs (fun u => by simpa using hs)
@[simp] theorem vElem_keeps (s : State) (g : Guard) (x : VW) (t : FT) (lat : Nat) (d : R11) (src : List VSrc) (k : FFmt → Bool → Nat → Nat → Nat → FRes)
    (hs : Memory.wf s.mem = true) : Keeps (vElem s g x t lat d src k) := vecForm_keeps _ _ _ _ _ hs (fun u vs t ht => by simpa using ht)
@[simp] theorem vPlain_keeps (s : State) (g : Guard) (x : VW) (lat : Nat) (d : R11) (src : List VSrc) (k : List Vec → Nat) (hs : Memory.wf s.mem = true) :
    Keeps (vPlain s g x lat d src k) := vecForm_keeps _ _ _ _ _ hs (fun u vs t ht => by simpa using ht)
@[simp] theorem vInt_keeps (s : State) (g : Guard) (x : VW) (w : IW) (d : R11) (a b : VSrc) (k : Nat → Nat → Nat → Nat) (hs : Memory.wf s.mem = true) :
    Keeps (vInt s g x w d a b k) := vPlain_keeps _ _ _ _ _ _ _ hs
@[simp] theorem vBits_keeps (s : State) (g : Guard) (x : VW) (d : R11) (a b : VSrc) (k : Vec → Vec → Vec) (hs : Memory.wf s.mem = true) :
    Keeps (vBits s g x d a b k) := vPlain_keeps _ _ _ _ _ _ _ hs
@[simp] theorem vApprox_keeps (s : State) (g : Guard) (x : VW) (t : FT) (form : Nat) (d : R11) (a : VSrc) (hs : Memory.wf s.mem = true) :
    Keeps (vApprox s g x t form d a) := vElem_keeps _ _ _ _ _ _ _ _ hs
@[simp] theorem vCmpPred_keeps (s : State) (g : Guard) (x : VW) (t : FT) (d : R11) (a b : VSrc) (cc : R11) (k : List Bool → Bool)
    (hs : Memory.wf s.mem = true) : Keeps (vCmpPred s g x t d a b cc k) := vecForm_keeps _ _ _ _ _ hs (fun u vs t ht => by simpa using ht)
@[simp] theorem vLoad_keeps (s : State) (g : Guard) (x : VW) (d : R11) (off stride : Issue → Int) (hs : Memory.wf s.mem = true) :
    Keeps (vLoad s g x d off stride) := guarded_keeps _ _ _ _ hs (fun u => by simpa using hs)
@[simp] theorem globalLoad_keeps (s : State) (g : Guard) (n : Nat) (sx acq : Bool) (d : R11) (va : Issue → Nat) (hs : Memory.wf s.mem = true) :
    Keeps (globalLoad s g n sx acq d va) := guarded_keeps _ _ _ _ hs (fun u => by simpa using hs)
@[simp] theorem globalStore_keeps (s : State) (g : Guard) (n : Nat) (rel sys : Bool) (d : R11) (va : Issue → Nat)
    (hs : Memory.wf s.mem = true) : Keeps (globalStore s g n rel sys d va) := guarded_keeps _ _ _ _ hs (fun u => by simpa using hs)
@[simp] theorem poolLoad_keeps (s : State) (g : Guard) (n : Nat) (sx acq : Bool) (d : R11) (off : Issue → Int) (hs : Memory.wf s.mem = true) :
    Keeps (poolLoad s g n sx acq d off) := guarded_keeps _ _ _ _ hs (fun u => by simpa using hs)
@[simp] theorem poolStore_keeps (s : State) (g : Guard) (n : Nat) (rel sys : Bool) (d : R11) (off : Issue → Int)
    (hs : Memory.wf s.mem = true) : Keeps (poolStore s g n rel sys d off) := guarded_keeps _ _ _ _ hs (fun u => by simpa using hs)
@[simp] theorem globalAtom_keeps (s : State) (g : Guard) (op : AtOp) (n : Nat) (o : Ord) (d : Nat) (q : Option Nat) (a : R11) (v x : Issue → Nat)
    (hs : Memory.wf s.mem = true) : Keeps (globalAtom s g op n o d q a v x) := guarded_keeps _ _ _ _ hs (fun u => by simpa using hs)
@[simp] theorem poolAtom_keeps (s : State) (g : Guard) (op : AtOp) (n : Nat) (o : Ord) (d : Nat) (q : Option Nat) (a : R11) (v x : Issue → Nat)
    (hs : Memory.wf s.mem = true) : Keeps (poolAtom s g op n o d q a v x) := guarded_keeps _ _ _ _ hs (fun u => by simpa using hs)
@[simp] theorem globalAtom1_keeps (s : State) (g : Guard) (op : AtOp) (n : Nat) (o : Ord) (d a b : R11) (hs : Memory.wf s.mem = true) :
    Keeps (globalAtom1 s g op n o d a b) := globalAtom_keeps _ _ _ _ _ _ _ _ _ _ hs
@[simp] theorem poolAtom1_keeps (s : State) (g : Guard) (op : AtOp) (n : Nat) (o : Ord) (d a b : R11) (hs : Memory.wf s.mem = true) :
    Keeps (poolAtom1 s g op n o d a b) := poolAtom_keeps _ _ _ _ _ _ _ _ _ _ hs
@[simp] theorem eForm_keeps (s : State) (g : Guard) (lat : Nat) (d : R11) (k : Issue → Nat) (hs : Memory.wf s.mem = true) :
    Keeps (eForm s g lat d k) := simple_keeps _ _ _ hs (fun u => by simpa using hs)
@[simp] theorem tlrdForm_keeps (s : State) (g : Guard) (d b c : R11) (k : TLine → Nat) (hs : Memory.wf s.mem = true) : Keeps (tlrdForm s g d b c k) :=
  simple_keeps _ _ _ hs (fun u => by simpa using hs)
@[simp] theorem boardForm_keeps (s : State) (g : Guard) (k : Issue → State) (hs : Memory.wf s.mem = true) (hk : ∀ u, Memory.wf (k u).mem = true) :
    Keeps (boardForm s g k) := by
  refine simple_keeps _ _ _ hs (fun u => ?_)
  split
  · exact hk u
  · exact hs
@[simp] theorem maccForm_keeps (s : State) (g : Guard) (a b : R11) (hs : Memory.wf s.mem = true) : Keeps (maccForm s g a b) :=
  onIssue_keeps _ _ hs (fun u => gate_wf _ _ _ _ hs (by simp [hs]))
@[simp] theorem xForm_keeps (s : State) (g : Guard) (d a : R11) (b : XB) (f : Nat → Nat → Nat) (hs : Memory.wf s.mem = true) :
    Keeps (xForm s g d a b f) := simple_keeps _ _ _ hs (fun u => by simpa using hs)
@[simp] theorem idxForm_keeps (s : State) (g : Guard) (op : Nat) (gr : Gran) (a c : R11) (data : Issue → Nat) (hs : Memory.wf s.mem = true) :
    Keeps (idxForm s g op gr a c data) := guarded_keeps _ _ _ _ hs (fun u => by simpa using hs)
@[simp] theorem idxNbForm_keeps (s : State) (g : Guard) (op : Nat) (gr : Gran) (d a c : R11) (data : Issue → Nat) (hs : Memory.wf s.mem = true) :
    Keeps (idxNbForm s g op gr d a c data) := by
  refine guarded_keeps _ _ _ _ hs (fun u => ?_)
  split <;> simpa using hs
theorem execBr_keeps (g : Guard) (imm : Imm) (s : State) (hs : Memory.wf s.mem = true) : Keeps (execBr g imm s) := by simp [execBr, hs]
theorem execBrq_keeps (g : Guard) (z : Bool) (a : R11) (imm : Imm) (s : State) (hs : Memory.wf s.mem = true) : Keeps (execBrq g z a imm s) := by simp [execBrq, hs]
theorem execJmp_keeps (g : Guard) (a : R11) (s : State) (hs : Memory.wf s.mem = true) : Keeps (execJmp g a s) := by simp [execJmp, hs]
theorem execCall_keeps (g : Guard) (d : R11) (imm : Imm) (s : State) (hs : Memory.wf s.mem = true) : Keeps (execCall g d imm s) := by simp [execCall, hs]
theorem execCalli_keeps (g : Guard) (d : R11) (a : R11) (s : State) (hs : Memory.wf s.mem = true) : Keeps (execCalli g d a s) := by simp [execCalli, hs]
theorem execRet_keeps (g : Guard) (a : R11) (s : State) (hs : Memory.wf s.mem = true) : Keeps (execRet g a s) := by simp [execRet, hs]
theorem execSuspend_keeps (g : Guard) (a : R11) (b : R11) (s : State) (hs : Memory.wf s.mem = true) : Keeps (execSuspend g a b s) := by simp [execSuspend, hs]
theorem execYield_keeps (g : Guard) (s : State) (hs : Memory.wf s.mem = true) : Keeps (execYield g s) := by simp [execYield, hs]
theorem execHalt_keeps (g : Guard) (s : State) (hs : Memory.wf s.mem = true) : Keeps (execHalt g s) := by simp [execHalt, hs]
theorem execTrap_keeps (g : Guard) (imm : Imm) (s : State) (hs : Memory.wf s.mem = true) : Keeps (execTrap g imm s) := by simp [execTrap, hs]
theorem execTret_keeps (g : Guard) (s : State) (hs : Memory.wf s.mem = true) : Keeps (execTret g s) := by simp [execTret, hs]
theorem execBrk_keeps (g : Guard) (s : State) (hs : Memory.wf s.mem = true) : Keeps (execBrk g s) := by simp [execBrk, hs]
theorem execAdd_keeps (g : Guard) (x : IJ) (d : R11) (a : R11) (b : R11) (s : State) (hs : Memory.wf s.mem = true) : Keeps (execAdd g x d a b s) := by simp [execAdd, hs]
theorem execSub_keeps (g : Guard) (x : IJ) (d : R11) (a : R11) (b : R11) (s : State) (hs : Memory.wf s.mem = true) : Keeps (execSub g x d a b s) := by simp [execSub, hs]
theorem execAddi_keeps (g : Guard) (x : IJ) (d : R11) (a : R11) (imm : Imm) (s : State) (hs : Memory.wf s.mem = true) : Keeps (execAddi g x d a imm s) := by simp [execAddi, hs]
theorem execMul_keeps (g : Guard) (x : IJ) (d : R11) (a : R11) (b : R11) (s : State) (hs : Memory.wf s.mem = true) : Keeps (execMul g x d a b s) := by simp [execMul, hs]
theorem execMulh_keeps (g : Guard) (x : IJ) (d : R11) (a : R11) (b : R11) (s : State) (hs : Memory.wf s.mem = true) : Keeps (execMulh g x d a b s) := by simp [execMulh, hs]
theorem execMulhu_keeps (g : Guard) (x : IJ) (d : R11) (a : R11) (b : R11) (s : State) (hs : Memory.wf s.mem = true) : Keeps (execMulhu g x d a b s) := by simp [execMulhu, hs]
theorem execAnd_keeps (g : Guard) (x : IJ) (d : R11) (a : R11) (b : R11) (s : State) (hs : Memory.wf s.mem = true) : Keeps (execAnd g x d a b s) := by simp [execAnd, hs]
theorem execOr_keeps (g : Guard) (x : IJ) (d : R11) (a : R11) (b : R11) (s : State) (hs : Memory.wf s.mem = true) : Keeps (execOr g x d a b s) := by simp [execOr, hs]
theorem execXor_keeps (g : Guard) (x : IJ) (d : R11) (a : R11) (b : R11) (s : State) (hs : Memory.wf s.mem = true) : Keeps (execXor g x d a b s) := by simp [execXor, hs]
theorem execAndn_keeps (g : Guard) (x : IJ) (d : R11) (a : R11) (b : R11) (s : State) (hs : Memory.wf s.mem = true) : Keeps (execAndn g x d a b s) := by simp [execAndn, hs]
theorem execShl_keeps (g : Guard) (x : IJ) (d : R11) (a : R11) (b : R11) (s : State) (hs : Memory.wf s.mem = true) : Keeps (execShl g x d a b s) := by simp [execShl, hs]
theorem execShr_keeps (g : Guard) (x : IJ) (d : R11) (a : R11) (b : R11) (s : State) (hs : Memory.wf s.mem = true) : Keeps (execShr g x d a b s) := by simp [execShr, hs]
theorem execSar_keeps (g : Guard) (x : IJ) (d : R11) (a : R11) (b : R11) (s : State) (hs : Memory.wf s.mem = true) : Keeps (execSar g x d a b s) := by simp [execSar, hs]
theorem execRot_keeps (g : Guard) (x : IJ) (d : R11) (a : R11) (b : R11) (s : State) (hs : Memory.wf s.mem = true) : Keeps (execRot g x d a b s) := by simp [execRot, hs]
theorem execMin_keeps (g : Guard) (x : IJ) (d : R11) (a : R11) (b : R11) (s : State) (hs : Memory.wf s.mem = true) : Keeps (execMin g x d a b s) := by simp [execMin, hs]
theorem execMax_keeps (g : Guard) (x : IJ) (d : R11) (a : R11) (b : R11) (s : State) (hs : Memory.wf s.mem = true) : Keeps (execMax g x d a b s) := by simp [execMax, hs]
theorem execMinu_keeps (g : Guard) (x : IJ) (d : R11) (a : R11) (b : R11) (s : State) (hs : Memory.wf s.mem = true) : Keeps (execMinu g x d a b s) := by simp [execMinu, hs]
theorem execMaxu_keeps (g : Guard) (x : IJ) (d : R11) (a : R11) (b : R11) (s : State) (hs : Memory.wf s.mem = true) : Keeps (execMaxu g x d a b s) := by simp [execMaxu, hs]
theorem execClz_keeps (g : Guard) (x : IJ) (d : R11) (a : R11) (s : State) (hs : Memory.wf s.mem = true) : Keeps (execClz g x d a s) := by simp [execClz, hs]
theorem execPopc_keeps (g : Guard) (x : IJ) (d : R11) (a : R11) (s : State) (hs : Memory.wf s.mem = true) : Keeps (execPopc g x d a s) := by simp [execPopc, hs]
theorem execBfx_keeps (g : Guard) (x : IJ) (d : R11) (a : R11) (pos : R11) (len : R11) (s : State) (hs : Memory.wf s.mem = true) : Keeps (execBfx g x d a pos len s) := by simp [execBfx, hs]
theorem execBfi_keeps (g : Guard) (x : IJ) (d : R11) (a : R11) (pos : R11) (len : R11) (s : State) (hs : Memory.wf s.mem = true) : Keeps (execBfi g x d a pos len s) := by simp [execBfi, hs]
theorem execLi_keeps (g : Guard) (x : IJ) (d : R11) (imm : Imm) (s : State) (hs : Memory.wf s.mem = true) : Keeps (execLi g x d imm s) := by simp [execLi, hs]
theorem execCmp_keeps (g : Guard) (x : IJ) (d : R11) (a : R11) (b : R11) (cc : R11) (s : State) (hs : Memory.wf s.mem = true) : Keeps (execCmp g x d a b cc s) := by simp [execCmp, hs]
theorem execSel_keeps (g : Guard) (x : IJ) (d : R11) (a : R11) (b : R11) (c : R11) (s : State) (hs : Memory.wf s.mem = true) : Keeps (execSel g x d a b c s) := by simp [execSel, hs]
theorem execKmov_keeps (g : Guard) (df : KFile) (sf : KFile) (d : R11) (a : R11) (s : State) (hs : Memory.wf s.mem = true) : Keeps (execKmov g df sf d a s) := by simp [execKmov, hs]
theorem execKvec_keeps (g : Guard) (df : KFile) (sf : KFile) (d : R11) (a : R11) (s : State) (hs : Memory.wf s.mem = true) : Keeps (execKvec g df sf d a s) := by simp [execKvec, hs]
theorem execKext_keeps (g : Guard) (df : KFile) (sf : KFile) (d : R11) (a : R11) (b : R11) (s : State) (hs : Memory.wf s.mem = true) : Keeps (execKext g df sf d a b s) := by simp [execKext, hs]
theorem execKins_keeps (g : Guard) (df : KFile) (sf : KFile) (d : R11) (a : R11) (b : R11) (s : State) (hs : Memory.wf s.mem = true) : Keeps (execKins g df sf d a b s) := by simp [execKins, hs]
theorem execKbc_keeps (g : Guard) (df : KFile) (sf : KFile) (d : R11) (a : R11) (s : State) (hs : Memory.wf s.mem = true) : Keeps (execKbc g df sf d a s) := by simp [execKbc, hs]
theorem execFadd_keeps (g : Guard) (t : FT) (rm : RM) (d : R11) (a : R11) (b : R11) (s : State) (hs : Memory.wf s.mem = true) : Keeps (execFadd g t rm d a b s) := by simp [execFadd, hs]
theorem execFsub_keeps (g : Guard) (t : FT) (rm : RM) (d : R11) (a : R11) (b : R11) (s : State) (hs : Memory.wf s.mem = true) : Keeps (execFsub g t rm d a b s) := by simp [execFsub, hs]
theorem execFmul_keeps (g : Guard) (t : FT) (rm : RM) (d : R11) (a : R11) (b : R11) (s : State) (hs : Memory.wf s.mem = true) : Keeps (execFmul g t rm d a b s) := by simp [execFmul, hs]
theorem execFfma_keeps (g : Guard) (t : FT) (rm : RM) (d : R11) (a : R11) (b : R11) (c : R11) (s : State) (hs : Memory.wf s.mem = true) : Keeps (execFfma g t rm d a b c s) := by simp [execFfma, hs]
theorem execFdiv_keeps (g : Guard) (t : FT) (rm : RM) (d : R11) (a : R11) (b : R11) (s : State) (hs : Memory.wf s.mem = true) : Keeps (execFdiv g t rm d a b s) := by simp [execFdiv, hs]
theorem execFsqrt_keeps (g : Guard) (t : FT) (rm : RM) (d : R11) (a : R11) (s : State) (hs : Memory.wf s.mem = true) : Keeps (execFsqrt g t rm d a s) := by simp [execFsqrt, hs]
theorem execFrsq_keeps (g : Guard) (t : FT) (rm : RM) (d : R11) (a : R11) (s : State) (hs : Memory.wf s.mem = true) : Keeps (execFrsq g t rm d a s) := by simp [execFrsq, hs]
theorem execFmin_keeps (g : Guard) (t : FT) (d : R11) (a : R11) (b : R11) (s : State) (hs : Memory.wf s.mem = true) : Keeps (execFmin g t d a b s) := by simp [execFmin, hs]
theorem execFmax_keeps (g : Guard) (t : FT) (d : R11) (a : R11) (b : R11) (s : State) (hs : Memory.wf s.mem = true) : Keeps (execFmax g t d a b s) := by simp [execFmax, hs]
theorem execFabs_keeps (g : Guard) (t : FT) (d : R11) (a : R11) (s : State) (hs : Memory.wf s.mem = true) : Keeps (execFabs g t d a s) := by simp [execFabs, hs]
theorem execFneg_keeps (g : Guard) (t : FT) (d : R11) (a : R11) (s : State) (hs : Memory.wf s.mem = true) : Keeps (execFneg g t d a s) := by simp [execFneg, hs]
theorem execFcmp_keeps (g : Guard) (t : FT) (d : R11) (a : R11) (b : R11) (cc : R11) (s : State) (hs : Memory.wf s.mem = true) : Keeps (execFcmp g t d a b cc s) := by simp [execFcmp, hs]
theorem execFclass_keeps (g : Guard) (t : FT) (d : R11) (a : R11) (mask : R11) (s : State) (hs : Memory.wf s.mem = true) : Keeps (execFclass g t d a mask s) := by simp [execFclass, hs]
theorem execFcvt_keeps (g : Guard) (rm : RM) (d : R11) (a : R11) (b : R11) (c : R11) (s : State) (hs : Memory.wf s.mem = true) : Keeps (execFcvt g rm d a b c s) := by simp [execFcvt, hs]
theorem execFsel_keeps (g : Guard) (d : R11) (a : R11) (b : R11) (c : R11) (s : State) (hs : Memory.wf s.mem = true) : Keeps (execFsel g d a b c s) := by simp [execFsel, hs]
theorem execFli_keeps (g : Guard) (d : R11) (imm : Imm) (s : State) (hs : Memory.wf s.mem = true) : Keeps (execFli g d imm s) := by simp [execFli, hs]
theorem execFliHi_keeps (g : Guard) (d : R11) (imm : Imm) (s : State) (hs : Memory.wf s.mem = true) : Keeps (execFliHi g d imm s) := by simp [execFliHi, hs]
theorem execVadd_keeps (g : Guard) (x : VW) (t : FT) (rm : RM) (d : R11) (a : VSrc) (b : VSrc) (s : State) (hs : Memory.wf s.mem = true) : Keeps (execVadd g x t rm d a b s) := by simp [execVadd, hs]
theorem execVsub_keeps (g : Guard) (x : VW) (t : FT) (rm : RM) (d : R11) (a : VSrc) (b : VSrc) (s : State) (hs : Memory.wf s.mem = true) : Keeps (execVsub g x t rm d a b s) := by simp [execVsub, hs]
theorem execVmul_keeps (g : Guard) (x : VW) (t : FT) (rm : RM) (d : R11) (a : VSrc) (b : VSrc) (s : State) (hs : Memory.wf s.mem = true) : Keeps (execVmul g x t rm d a b s) := by simp [execVmul, hs]
theorem execVfma_keeps (g : Guard) (x : VW) (t : FT) (rm : RM) (d : R11) (a : VSrc) (b : VSrc) (c : VSrc) (s : State) (hs : Memory.wf s.mem = true) : Keeps (execVfma g x t rm d a b c s) := by simp [execVfma, hs]
theorem execVfms_keeps (g : Guard) (x : VW) (t : FT) (rm : RM) (d : R11) (a : VSrc) (b : VSrc) (c : VSrc) (s : State) (hs : Memory.wf s.mem = true) : Keeps (execVfms g x t rm d a b c s) := by simp [execVfms, hs]
theorem execVmulZg_keeps (g : Guard) (x : VW) (t : FT) (rm : RM) (d : R11) (a : VSrc) (b : VSrc) (s : State) (hs : Memory.wf s.mem = true) : Keeps (execVmulZg g x t rm d a b s) := by simp [execVmulZg, hs]
theorem execVfmaZg_keeps (g : Guard) (x : VW) (t : FT) (rm : RM) (d : R11) (a : VSrc) (b : VSrc) (c : VSrc) (s : State) (hs : Memory.wf s.mem = true) : Keeps (execVfmaZg g x t rm d a b c s) := by simp [execVfmaZg, hs]
theorem execVfmsZg_keeps (g : Guard) (x : VW) (t : FT) (rm : RM) (d : R11) (a : VSrc) (b : VSrc) (c : VSrc) (s : State) (hs : Memory.wf s.mem = true) : Keeps (execVfmsZg g x t rm d a b c s) := by simp [execVfmsZg, hs]
theorem execVmin_keeps (g : Guard) (x : VW) (t : FT) (d : R11) (a : VSrc) (b : VSrc) (s : State) (hs : Memory.wf s.mem = true) : Keeps (execVmin g x t d a b s) := by simp [execVmin, hs]
theorem execVmax_keeps (g : Guard) (x : VW) (t : FT) (d : R11) (a : VSrc) (b : VSrc) (s : State) (hs : Memory.wf s.mem = true) : Keeps (execVmax g x t d a b s) := by simp [execVmax, hs]
theorem execVabs_keeps (g : Guard) (x : VW) (t : FT) (d : R11) (a : VSrc) (s : State) (hs : Memory.wf s.mem = true) : Keeps (execVabs g x t d a s) := by simp [execVabs, hs]
theorem execVneg_keeps (g : Guard) (x : VW) (t : FT) (d : R11) (a : VSrc) (s : State) (hs : Memory.wf s.mem = true) : Keeps (execVneg g x t d a s) := by simp [execVneg, hs]
theorem execVcmp_keeps (g : Guard) (x : VW) (t : FT) (d : R11) (a b : VSrc) (cc : R11) (s : State) (hs : Memory.wf s.mem = true) :
    Keeps (execVcmp g x t d a b cc s) := vecForm_keeps _ _ _ _ _ hs (fun u vs t ht => by simpa using ht)
theorem execVcmpAny_keeps (g : Guard) (x : VW) (t : FT) (d : R11) (a : VSrc) (b : VSrc) (cc : R11) (s : State) (hs : Memory.wf s.mem = true) : Keeps (execVcmpAny g x t d a b cc s) := by simp [execVcmpAny, hs]
theorem execVcmpAll_keeps (g : Guard) (x : VW) (t : FT) (d : R11) (a : VSrc) (b : VSrc) (cc : R11) (s : State) (hs : Memory.wf s.mem = true) : Keeps (execVcmpAll g x t d a b cc s) := by simp [execVcmpAll, hs]
theorem execVsel_keeps (g : Guard) (x : VW) (w : IW) (d : R11) (a : VSrc) (b : VSrc) (c : VSrc) (s : State) (hs : Memory.wf s.mem = true) : Keeps (execVsel g x w d a b c s) := by simp [execVsel, hs]
theorem execVdot_keeps (g : Guard) (x : VW) (t : FT) (rm : RM) (d : R11) (a : VSrc) (b : VSrc) (c : VSrc) (s : State) (hs : Memory.wf s.mem = true) : Keeps (execVdot g x t rm d a b c s) := by simp [execVdot, hs]
theorem execVred_keeps (g : Guard) (x : VW) (t : FT) (rm : RM) (d : R11) (a : VSrc) (s : State) (hs : Memory.wf s.mem = true) : Keeps (execVred g x t rm d a s) := by simp [execVred, hs]
theorem execVscan_keeps (g : Guard) (x : VW) (t : FT) (rm : RM) (d : R11) (a : VSrc) (s : State) (hs : Memory.wf s.mem = true) : Keeps (execVscan g x t rm d a s) := by simp [execVscan, hs]
theorem execVexp2_keeps (g : Guard) (x : VW) (t : FT) (d : R11) (a : VSrc) (s : State) (hs : Memory.wf s.mem = true) : Keeps (execVexp2 g x t d a s) := by simp [execVexp2, hs]
theorem execVlog2_keeps (g : Guard) (x : VW) (t : FT) (d : R11) (a : VSrc) (s : State) (hs : Memory.wf s.mem = true) : Keeps (execVlog2 g x t d a s) := by simp [execVlog2, hs]
theorem execVrcp_keeps (g : Guard) (x : VW) (t : FT) (d : R11) (a : VSrc) (s : State) (hs : Memory.wf s.mem = true) : Keeps (execVrcp g x t d a s) := by simp [execVrcp, hs]
theorem execVrsq_keeps (g : Guard) (x : VW) (t : FT) (d : R11) (a : VSrc) (s : State) (hs : Memory.wf s.mem = true) : Keeps (execVrsq g x t d a s) := by simp [execVrsq, hs]
theorem execVcvt_keeps (g : Guard) (x : VW) (rm : RM) (d : R11) (a : VSrc) (b : R11) (c : R11) (s : State) (hs : Memory.wf s.mem = true) : Keeps (execVcvt g x rm d a b c s) := by simp [execVcvt, hs]
theorem execVperm_keeps (g : Guard) (x : VW) (d : R11) (a : VSrc) (b : VSrc) (c : VSrc) (s : State) (hs : Memory.wf s.mem = true) : Keeps (execVperm g x d a b c s) := by simp [execVperm, hs]
theorem execVbcast_keeps (g : Guard) (x : VW) (w : IW) (d : R11) (a : VSrc) (b : R11) (s : State) (hs : Memory.wf s.mem = true) : Keeps (execVbcast g x w d a b s) := by simp [execVbcast, hs]
theorem execVrotl_keeps (g : Guard) (x : VW) (d : R11) (a : VSrc) (b : R11) (s : State) (hs : Memory.wf s.mem = true) : Keeps (execVrotl g x d a b s) := by simp [execVrotl, hs]
theorem execViadd_keeps (g : Guard) (x : VW) (w : IW) (d : R11) (a : VSrc) (b : VSrc) (s : State) (hs : Memory.wf s.mem = true) : Keeps (execViadd g x w d a b s) := by simp [execViadd, hs]
theorem execVimul_keeps (g : Guard) (x : VW) (w : IW) (d : R11) (a : VSrc) (b : VSrc) (s : State) (hs : Memory.wf s.mem = true) : Keeps (execVimul g x w d a b s) := by simp [execVimul, hs]
theorem execVand_keeps (g : Guard) (x : VW) (d : R11) (a : VSrc) (b : VSrc) (s : State) (hs : Memory.wf s.mem = true) : Keeps (execVand g x d a b s) := by simp [execVand, hs]
theorem execVor_keeps (g : Guard) (x : VW) (d : R11) (a : VSrc) (b : VSrc) (s : State) (hs : Memory.wf s.mem = true) : Keeps (execVor g x d a b s) := by simp [execVor, hs]
theorem execVxor_keeps (g : Guard) (x : VW) (d : R11) (a : VSrc) (b : VSrc) (s : State) (hs : Memory.wf s.mem = true) : Keeps (execVxor g x d a b s) := by simp [execVxor, hs]
theorem execVshl_keeps (g : Guard) (x : VW) (w : IW) (d : R11) (a : VSrc) (b : VSrc) (s : State) (hs : Memory.wf s.mem = true) : Keeps (execVshl g x w d a b s) := by simp [execVshl, hs]
theorem execVshr_keeps (g : Guard) (x : VW) (w : IW) (d : R11) (a : VSrc) (b : VSrc) (s : State) (hs : Memory.wf s.mem = true) : Keeps (execVshr g x w d a b s) := by simp [execVshr, hs]
theorem execVidx_keeps (g : Guard) (x : VW) (d : R11) (b : R11) (c : R11) (s : State) (hs : Memory.wf s.mem = true) : Keeps (execVidx g x d b c s) := by simp [execVidx, hs]
theorem execVsetx_keeps (g : Guard) (x : VW) (d : R11) (a : VSrc) (b : R11) (s : State) (hs : Memory.wf s.mem = true) :
    Keeps (execVsetx g x d a b s) := vecForm_keeps _ _ _ _ _ hs (fun u vs t ht => by simpa using ht)
theorem execVsetxAdd_keeps (g : Guard) (x : VW) (d : R11) (a : R11) (b : R11) (s : State) (hs : Memory.wf s.mem = true) : Keeps (execVsetxAdd g x d a b s) := by simp [execVsetxAdd, hs]
theorem execVsetxLi_keeps (g : Guard) (x : VW) (d : R11) (b : R11) (s : State) (hs : Memory.wf s.mem = true) : Keeps (execVsetxLi g x d b s) := by simp [execVsetxLi, hs]
theorem execVpopq_keeps (g : Guard) (x : VW) (d : R11) (s : State) (hs : Memory.wf s.mem = true) : Keeps (execVpopq g x d s) := by simp [execVpopq, hs]
theorem execVldp_keeps (g : Guard) (x : VW) (s4 : Bool) (d : R11) (a : R11) (imm : Imm) (s : State) (hs : Memory.wf s.mem = true) : Keeps (execVldp g x s4 d a imm s) := by simp [execVldp, hs]
theorem execVstp_keeps (g : Guard) (x : VW) (s4 : Bool) (d : R11) (a : R11) (imm : Imm) (s : State) (hs : Memory.wf s.mem = true) : Keeps (execVstp g x s4 d a imm s) := by simp [execVstp, hs]
theorem execVldps_keeps (g : Guard) (x : VW) (s4 : Bool) (d : R11) (a : R11) (imm : Imm) (s : State) (hs : Memory.wf s.mem = true) : Keeps (execVldps g x s4 d a imm s) := by simp [execVldps, hs]
theorem execLdg_keeps (g : Guard) (z : Sz) (sx : Bool) (d : R11) (a : R11) (imm : Imm) (s : State) (hs : Memory.wf s.mem = true) : Keeps (execLdg g z sx d a imm s) := by simp [execLdg, hs]
theorem execStg_keeps (g : Guard) (z : Sz) (d : R11) (a : R11) (imm : Imm) (s : State) (hs : Memory.wf s.mem = true) : Keeps (execStg g z d a imm s) := by simp [execStg, hs]
theorem execLdga_keeps (g : Guard) (z : Sz) (y2 : Scope) (d : R11) (a : R11) (b : R11) (s : State) (hs : Memory.wf s.mem = true) : Keeps (execLdga g z y2 d a b s) := by simp [execLdga, hs]
theorem execStgl_keeps (g : Guard) (z : Sz) (sc : Scope) (d : R11) (a : R11) (b : R11) (s : State) (hs : Memory.wf s.mem = true) : Keeps (execStgl g z sc d a b s) := by simp [execStgl, hs]
theorem execPref_keeps (g : Guard) (y1 : Bool) (a : R11) (imm : Imm) (s : State) (hs : Memory.wf s.mem = true) : Keeps (execPref g y1 a imm s) := by simp [execPref, hs]
theorem execLdp_keeps (g : Guard) (z : Sz) (sx : Bool) (d : R11) (a : R11) (imm : Imm) (s : State) (hs : Memory.wf s.mem = true) : Keeps (execLdp g z sx d a imm s) := by simp [execLdp, hs]
theorem execStp_keeps (g : Guard) (z : Sz) (d : R11) (a : R11) (imm : Imm) (s : State) (hs : Memory.wf s.mem = true) : Keeps (execStp g z d a imm s) := by simp [execStp, hs]
theorem execLdpa_keeps (g : Guard) (z : Sz) (y2 : Scope) (d : R11) (a : R11) (b : R11) (s : State) (hs : Memory.wf s.mem = true) : Keeps (execLdpa g z y2 d a b s) := by simp [execLdpa, hs]
theorem execStpl_keeps (g : Guard) (z : Sz) (sc : Scope) (d : R11) (a : R11) (b : R11) (s : State) (hs : Memory.wf s.mem = true) : Keeps (execStpl g z sc d a b s) := by simp [execStpl, hs]
theorem execSqld_keeps (g : Guard) (d : R11) (a : R11) (imm : Imm) (s : State) (hs : Memory.wf s.mem = true) : Keeps (execSqld g d a imm s) := by simp [execSqld, hs]
theorem execAgadd_keeps (g : Guard) (w : AW) (o : Ord) (d : R11) (a : R11) (b : R11) (s : State) (hs : Memory.wf s.mem = true) : Keeps (execAgadd g w o d a b s) := by simp [execAgadd, hs]
theorem execAgincw_keeps (g : Guard) (w : AW) (o : Ord) (d : R11) (a : R11) (b : R11) (s : State) (hs : Memory.wf s.mem = true) : Keeps (execAgincw g w o d a b s) := by simp [execAgincw, hs]
theorem execAgaddb_keeps (g : Guard) (w : AW) (o : Ord) (d : R11) (a : R11) (b : R11) (c : R11) (s : State) (hs : Memory.wf s.mem = true) : Keeps (execAgaddb g w o d a b c s) := by simp [execAgaddb, hs]
theorem execAgcas_keeps (g : Guard) (w : AW) (o : Ord) (d : R11) (a : R11) (b : R11) (c : R11) (s : State) (hs : Memory.wf s.mem = true) : Keeps (execAgcas g w o d a b c s) := by simp [execAgcas, hs]
theorem execAgxch_keeps (g : Guard) (w : AW) (o : Ord) (d : R11) (a : R11) (b : R11) (s : State) (hs : Memory.wf s.mem = true) : Keeps (execAgxch g w o d a b s) := by simp [execAgxch, hs]
theorem execAgmin_keeps (g : Guard) (w : AW) (o : Ord) (d : R11) (a : R11) (b : R11) (s : State) (hs : Memory.wf s.mem = true) : Keeps (execAgmin g w o d a b s) := by simp [execAgmin, hs]
theorem execAgmax_keeps (g : Guard) (w : AW) (o : Ord) (d : R11) (a : R11) (b : R11) (s : State) (hs : Memory.wf s.mem = true) : Keeps (execAgmax g w o d a b s) := by simp [execAgmax, hs]
theorem execAgand_keeps (g : Guard) (w : AW) (o : Ord) (d : R11) (a : R11) (b : R11) (s : State) (hs : Memory.wf s.mem = true) : Keeps (execAgand g w o d a b s) := by simp [execAgand, hs]
theorem execAgor_keeps (g : Guard) (w : AW) (o : Ord) (d : R11) (a : R11) (b : R11) (s : State) (hs : Memory.wf s.mem = true) : Keeps (execAgor g w o d a b s) := by simp [execAgor, hs]
theorem execAgxor_keeps (g : Guard) (w : AW) (o : Ord) (d : R11) (a : R11) (b : R11) (s : State) (hs : Memory.wf s.mem = true) : Keeps (execAgxor g w o d a b s) := by simp [execAgxor, hs]
theorem execAgfadd_keeps (g : Guard) (w : FW) (o : Ord) (d : R11) (a : R11) (b : R11) (s : State) (hs : Memory.wf s.mem = true) : Keeps (execAgfadd g w o d a b s) := by simp [execAgfadd, hs]
theorem execApadd_keeps (g : Guard) (w : AW) (o : Ord) (d : R11) (a : R11) (b : R11) (s : State) (hs : Memory.wf s.mem = true) : Keeps (execApadd g w o d a b s) := by simp [execApadd, hs]
theorem execApincw_keeps (g : Guard) (w : AW) (o : Ord) (d : R11) (a : R11) (b : R11) (s : State) (hs : Memory.wf s.mem = true) : Keeps (execApincw g w o d a b s) := by simp [execApincw, hs]
theorem execApaddb_keeps (g : Guard) (w : AW) (o : Ord) (d : R11) (a : R11) (b : R11) (c : R11) (s : State) (hs : Memory.wf s.mem = true) : Keeps (execApaddb g w o d a b c s) := by simp [execApaddb, hs]
theorem execApcas_keeps (g : Guard) (w : AW) (o : Ord) (d : R11) (a : R11) (b : R11) (c : R11) (s : State) (hs : Memory.wf s.mem = true) : Keeps (execApcas g w o d a b c s) := by simp [execApcas, hs]
theorem execApxch_keeps (g : Guard) (w : AW) (o : Ord) (d : R11) (a : R11) (b : R11) (s : State) (hs : Memory.wf s.mem = true) : Keeps (execApxch g w o d a b s) := by simp [execApxch, hs]
theorem execApmin_keeps (g : Guard) (w : AW) (o : Ord) (d : R11) (a : R11) (b : R11) (s : State) (hs : Memory.wf s.mem = true) : Keeps (execApmin g w o d a b s) := by simp [execApmin, hs]
theorem execApmax_keeps (g : Guard) (w : AW) (o : Ord) (d : R11) (a : R11) (b : R11) (s : State) (hs : Memory.wf s.mem = true) : Keeps (execApmax g w o d a b s) := by simp [execApmax, hs]
theorem execApfadd_keeps (g : Guard) (w : FW) (o : Ord) (d : R11) (a : R11) (b : R11) (s : State) (hs : Memory.wf s.mem = true) : Keeps (execApfadd g w o d a b s) := by simp [execApfadd, hs]
theorem execStoreApply_keeps (c : Nat) (i : Nat) (id : Nat) (s : State) (hs : Memory.wf s.mem = true) : Keeps (execStoreApply c i id s) := by
  simp only [execStoreApply]
  (repeat' split) <;> simp [hs]
theorem execAtomicApply_keeps (c : Nat) (i : Nat) (id : Nat) (s : State) (hs : Memory.wf s.mem = true) : Keeps (execAtomicApply c i id s) := by
  simp only [execAtomicApply]
  (repeat' split) <;> simp [hs]
theorem execAtomicReply_keeps (c : Nat) (i : Nat) (id : Nat) (s : State) (hs : Memory.wf s.mem = true) : Keeps (execAtomicReply c i id s) := by
  simp only [execAtomicReply]
  (repeat' split) <;> simp [hs]
theorem execScaleArrive_keeps (c : Nat) (i : Nat) (id : Nat) (s : State) (hs : Memory.wf s.mem = true) : Keeps (execScaleArrive c i id s) := by
  simp only [execScaleArrive]
  (repeat' split) <;> simp [hs]
theorem execEli_keeps (g : Guard) (d : R11) (imm : Imm) (s : State) (hs : Memory.wf s.mem = true) : Keeps (execEli g d imm s) := by simp [execEli, hs]
theorem execEadd_keeps (g : Guard) (d : R11) (a : R11) (b : R11) (s : State) (hs : Memory.wf s.mem = true) : Keeps (execEadd g d a b s) := by simp [execEadd, hs]
theorem execEmov_keeps (g : Guard) (d : R11) (a : R11) (s : State) (hs : Memory.wf s.mem = true) : Keeps (execEmov g d a s) := by simp [execEmov, hs]
theorem execCsrrd_keeps (g : Guard) (d : R11) (imm : Imm) (s : State) (hs : Memory.wf s.mem = true) : Keeps (execCsrrd g d imm s) := by simp [execCsrrd, hs]
theorem execCsrwr_keeps (g : Guard) (a : R11) (imm : Imm) (s : State) (hs : Memory.wf s.mem = true) : Keeps (execCsrwr g a imm s) := by simp [execCsrwr, hs]
theorem execTlbinv_keeps (g : Guard) (a : R11) (b : R11) (s : State) (hs : Memory.wf s.mem = true) : Keeps (execTlbinv g a b s) := by simp [execTlbinv, hs]
theorem execIcflush_keeps (g : Guard) (a : R11) (b : R11) (s : State) (hs : Memory.wf s.mem = true) : Keeps (execIcflush g a b s) := by simp [execIcflush, hs]
theorem execSemsig_keeps (g : Guard) (ret : Bool) (d : R11) (a : R11) (imm : Imm) (s : State) (hs : Memory.wf s.mem = true) : Keeps (execSemsig g ret d a imm s) := by simp [execSemsig, hs]
theorem execSemwait_keeps (g : Guard) (a : R11) (imm : Imm) (s : State) (hs : Memory.wf s.mem = true) : Keeps (execSemwait g a imm s) := by simp [execSemwait, hs]
theorem execFence_keeps (g : Guard) (sc : Scope) (k : FenceKind) (s : State) (hs : Memory.wf s.mem = true) : Keeps (execFence g sc k s) := by
  simp only [execFence]
  split <;> simp [hs]
theorem execPhase_keeps (g : Guard) (d : R11) (s : State) (hs : Memory.wf s.mem = true) : Keeps (execPhase g d s) := by simp [execPhase, hs]
theorem execLaunch_keeps (g : Guard) (d : R11) (a : R11) (b : R11) (s : State) (hs : Memory.wf s.mem = true) : Keeps (execLaunch g d a b s) := by simp [execLaunch, hs]
theorem execCwait_keeps (g : Guard) (a : R11) (b : R11) (c : R11) (s : State) (hs : Memory.wf s.mem = true) : Keeps (execCwait g a b c s) := by simp [execCwait, hs]
theorem execTlrd_keeps (g : Guard) (d : R11) (b : R11) (c : R11) (s : State) (hs : Memory.wf s.mem = true) : Keeps (execTlrd g d b c s) := by simp [execTlrd, hs]
theorem execTlrdErr_keeps (g : Guard) (d : R11) (b : R11) (c : R11) (s : State) (hs : Memory.wf s.mem = true) : Keeps (execTlrdErr g d b c s) := by simp [execTlrdErr, hs]
theorem execTlrdErrc_keeps (g : Guard) (d : R11) (b : R11) (y3 : R11) (s : State) (hs : Memory.wf s.mem = true) : Keeps (execTlrdErrc g d b y3 s) := by simp [execTlrdErrc, hs]
theorem execSemWaitComplete_keeps (c : Nat) (n : Nat) (s : State) (hs : Memory.wf s.mem = true) : Keeps (execSemWaitComplete c n s) := by simp [execSemWaitComplete, hs]
theorem execPhaseRelease_keeps (ten : Nat) (lid : Nat) (g : Nat) (s : State) (hs : Memory.wf s.mem = true) : Keeps (execPhaseRelease ten lid g s) := by
  simp only [execPhaseRelease]
  (repeat' split) <;> simp [hs]
theorem execBpost_keeps (g : Guard) (d : R11) (y2 : R11) (y3 : R11) (y4 : R11) (s : State) (hs : Memory.wf s.mem = true) : Keeps (execBpost g d y2 y3 y4 s) := by simp [execBpost, hs]
theorem execBview_keeps (g : Guard) (d : R11) (y2 : R11) (s : State) (hs : Memory.wf s.mem = true) : Keeps (execBview g d y2 s) := by simp [execBview, hs]
theorem execBviewWord_keeps (g : Guard) (d : R11) (a : R11) (b : R11) (s : State) (hs : Memory.wf s.mem = true) : Keeps (execBviewWord g d a b s) := by simp [execBviewWord, hs]
theorem execBread_keeps (g : Guard) (d : R11) (y2 : R11) (y3 : R11) (c : R11) (s : State) (hs : Memory.wf s.mem = true) : Keeps (execBread g d y2 y3 c s) := by simp [execBread, hs]
theorem execBadv_keeps (g : Guard) (d : R11) (y2 : R11) (y3 : R11) (s : State) (hs : Memory.wf s.mem = true) : Keeps (execBadv g d y2 y3 s) := by simp [execBadv, hs]
theorem execBoardSerialise_keeps (c : Nat) (i : Nat) (s : State) (hs : Memory.wf s.mem = true) : Keeps (execBoardSerialise c i s) := by
  simp only [execBoardSerialise]
  (repeat' split) <;> simp [hs]
theorem execRequestResend_keeps (c : Nat) (i : Nat) (id : Nat) (s : State) (hs : Memory.wf s.mem = true) : Keeps (execRequestResend c i id s) := by
  simp only [execRequestResend]
  (repeat' split) <;> simp [hs]
theorem execBoardReply_keeps (c : Nat) (i : Nat) (s : State) (hs : Memory.wf s.mem = true) : Keeps (execBoardReply c i s) := by
  simp only [execBoardReply]
  (repeat' split) <;> simp [hs]
theorem execBrdcfgCreate_keeps (d : Nat) (b : Nat) (v : Word) (s : State) (hs : Memory.wf s.mem = true) : Keeps (execBrdcfgCreate d b v s) := by
  simp only [execBrdcfgCreate]
  split <;> simp [hs]
theorem execBrdcfgFree_keeps (d : Nat) (b : Nat) (s : State) (hs : Memory.wf s.mem = true) : Keeps (execBrdcfgFree d b s) := by simp [execBrdcfgFree, hs]
theorem execBrdcfgGrant_keeps (d : Nat) (b : Nat) (v : Word) (s : State) (hs : Memory.wf s.mem = true) : Keeps (execBrdcfgGrant d b v s) := by
  simp only [execBrdcfgGrant]
  split <;> simp [hs]
theorem execBarr_keeps (g : Guard) (d : R11) (a : R11) (s : State) (hs : Memory.wf s.mem = true) : Keeps (execBarr g d a s) := by simp [execBarr, hs]
theorem execBarrierArrival_keeps (c : Nat) (i : Nat) (s : State) (hs : Memory.wf s.mem = true) : Keeps (execBarrierArrival c i s) := by simp [execBarrierArrival, hs]
theorem execBarrierRelease_keeps (id : Nat) (s : State) (hs : Memory.wf s.mem = true) : Keeps (execBarrierRelease id s) := by
  simp only [execBarrierRelease]
  split <;> simp [hs]
theorem execBarcfgWrite_keeps (id : Nat) (v : Word) (s : State) (hs : Memory.wf s.mem = true) : Keeps (execBarcfgWrite id v s) := by simp [execBarcfgWrite, hs]
theorem execCheckedCheck_keeps (c : Nat) (i : Nat) (s : State) (hs : Memory.wf s.mem = true) : Keeps (execCheckedCheck c i s) := by
  simp only [execCheckedCheck]
  (repeat' split) <;> simp [hs]
theorem execStrset_keeps (g : Guard) (a : R11) (b : R11) (c : R11) (s : State) (hs : Memory.wf s.mem = true) : Keeps (execStrset g a b c s) := by simp [execStrset, hs]
theorem execStrtap_keeps (g : Guard) (a : R11) (b : R11) (c : R11) (s : State) (hs : Memory.wf s.mem = true) : Keeps (execStrtap g a b c s) := by simp [execStrtap, hs]
theorem execRingsetGeom_keeps (g : Guard) (a : R11) (b : R11) (s : State) (hs : Memory.wf s.mem = true) : Keeps (execRingsetGeom g a b s) := by simp [execRingsetGeom, hs]
theorem execRingsetAdvance_keeps (g : Guard) (a : R11) (b : R11) (s : State) (hs : Memory.wf s.mem = true) : Keeps (execRingsetAdvance g a b s) := by simp [execRingsetAdvance, hs]
theorem execRingsetRd_keeps (g : Guard) (d : R11) (b : R11) (s : State) (hs : Memory.wf s.mem = true) : Keeps (execRingsetRd g d b s) := by simp [execRingsetRd, hs]
theorem execRingTileFill_keeps (c : Nat) (n : Nat) (s : State) (hs : Memory.wf s.mem = true) : Keeps (execRingTileFill c n s) := by simp [execRingTileFill, hs]
theorem execMcfg_keeps (g : Guard) (b : R11) (c : R11) (s : State) (hs : Memory.wf s.mem = true) : Keeps (execMcfg g b c s) := by simp [execMcfg, hs]
theorem execMzero_keeps (g : Guard) (d : R11) (s : State) (hs : Memory.wf s.mem = true) : Keeps (execMzero g d s) := by simp [execMzero, hs]
theorem execMacc_keeps (g : Guard) (a : R11) (b : R11) (s : State) (hs : Memory.wf s.mem = true) : Keeps (execMacc g a b s) := by simp [execMacc, hs]
theorem execMaccZg_keeps (g : Guard) (a : R11) (b : R11) (s : State) (hs : Memory.wf s.mem = true) : Keeps (execMaccZg g a b s) := by simp [execMaccZg, hs]
theorem execMaccs_keeps (g : Guard) (a : R11) (b : R11) (s : State) (hs : Memory.wf s.mem = true) : Keeps (execMaccs g a b s) := by simp (maxDischargeDepth := 9) [execMaccs, hs]
theorem execMpush_keeps (g : Guard) (d : R11) (a : R11) (b : R11) (c : R11) (s : State) (hs : Memory.wf s.mem = true) : Keeps (execMpush g d a b c s) := by
  simp only [execMpush]
  split <;> simp [hs]
theorem execMshift_keeps (g : Guard) (d : R11) (s : State) (hs : Memory.wf s.mem = true) : Keeps (execMshift g d s) := by simp [execMshift, hs]
theorem execMdrain_keeps (g : Guard) (d a : R11) (s : State) (hs : Memory.wf s.mem = true) : Keeps (execMdrain g d a s) := by
  refine onIssue_keeps _ _ hs (fun u => gate_wf _ _ _ _ hs ?_)
  simp only []
  split <;> simp [hs]
theorem execBankOpComplete_keeps (c : Nat) (s : State) (hs : Memory.wf s.mem = true) : Keeps (execBankOpComplete c s) := by simp [execBankOpComplete, hs]
theorem execSprune_keeps (g : Guard) (a : R11) (b : R11) (c : R11) (s : State) (hs : Memory.wf s.mem = true) : Keeps (execSprune g a b c s) := by simp [execSprune, hs]
theorem execSprunet_keeps (g : Guard) (a : R11) (b : R11) (c : R11) (s : State) (hs : Memory.wf s.mem = true) : Keeps (execSprunet g a b c s) := by simp [execSprunet, hs]
theorem execSregrow_keeps (g : Guard) (a : R11) (b : R11) (c : R11) (s : State) (hs : Memory.wf s.mem = true) : Keeps (execSregrow g a b c s) := by simp [execSregrow, hs]
theorem execSexpand_keeps (g : Guard) (a : R11) (b : R11) (s : State) (hs : Memory.wf s.mem = true) : Keeps (execSexpand g a b s) := by simp [execSexpand, hs]
theorem execScheck_keeps (g : Guard) (d : R11) (a : R11) (s : State) (hs : Memory.wf s.mem = true) : Keeps (execScheck g d a s) := by simp [execScheck, hs]
theorem execShdr_keeps (g : Guard) (d : R11) (a : R11) (s : State) (hs : Memory.wf s.mem = true) : Keeps (execShdr g d a s) := by simp [execShdr, hs]
theorem execShdrW_keeps (g : Guard) (a : R11) (c : R11) (s : State) (hs : Memory.wf s.mem = true) : Keeps (execShdrW g a c s) := by simp [execShdrW, hs]
theorem execShdrCk_keeps (g : Guard) (a : R11) (s : State) (hs : Memory.wf s.mem = true) : Keeps (execShdrCk g a s) := by simp [execShdrCk, hs]
theorem execSparsityCmdComplete_keeps (c : Nat) (s : State) (hs : Memory.wf s.mem = true) : Keeps (execSparsityCmdComplete c s) := by
  simp only [execSparsityCmdComplete]
  (repeat' split) <;> simp [hs]
theorem execCopy_keeps (g : Guard) (d : R11) (a : R11) (b : R11) (s : State) (hs : Memory.wf s.mem = true) : Keeps (execCopy g d a b s) := by simp [execCopy, hs]
theorem execCopyp_keeps (g : Guard) (d : R11) (a : R11) (b : R11) (s : State) (hs : Memory.wf s.mem = true) : Keeps (execCopyp g d a b s) := by simp (maxDischargeDepth := 9) [execCopyp, hs]
theorem execCopyComplete_keeps (r : CopyRef) (order : List Nat) (s : State) (hs : Memory.wf s.mem = true) : Keeps (execCopyComplete r order s) := by
  simp only [execCopyComplete]
  split <;> simp [hs]
theorem execXadd_keeps (g : Guard) (d : R11) (a : R11) (b : XB) (s : State) (hs : Memory.wf s.mem = true) : Keeps (execXadd g d a b s) := by simp [execXadd, hs]
theorem execXmul_keeps (g : Guard) (d : R11) (a : R11) (b : XB) (s : State) (hs : Memory.wf s.mem = true) : Keeps (execXmul g d a b s) := by simp [execXmul, hs]
theorem execXand_keeps (g : Guard) (d : R11) (a : R11) (b : XB) (s : State) (hs : Memory.wf s.mem = true) : Keeps (execXand g d a b s) := by simp [execXand, hs]
theorem execXshl_keeps (g : Guard) (d : R11) (a : R11) (b : XB) (s : State) (hs : Memory.wf s.mem = true) : Keeps (execXshl g d a b s) := by simp [execXshl, hs]
theorem execXshr_keeps (g : Guard) (d : R11) (a : R11) (b : XB) (s : State) (hs : Memory.wf s.mem = true) : Keeps (execXshr g d a b s) := by simp [execXshr, hs]
theorem execXldp_keeps (g : Guard) (d : R11) (a : R11) (imm : Imm) (s : State) (hs : Memory.wf s.mem = true) : Keeps (execXldp g d a imm s) := by simp [execXldp, hs]
theorem execXpush_keeps (g : Guard) (gr : Gran) (a : R11) (c : R11) (s : State) (hs : Memory.wf s.mem = true) : Keeps (execXpush g gr a c s) := by simp [execXpush, hs]
theorem execXpushNb_keeps (g : Guard) (gr : Gran) (d : R11) (a : R11) (c : R11) (s : State) (hs : Memory.wf s.mem = true) : Keeps (execXpushNb g gr d a c s) := by simp [execXpushNb, hs]
theorem execXscat_keeps (g : Guard) (gr : Gran) (a : R11) (b : R11) (c : R11) (s : State) (hs : Memory.wf s.mem = true) : Keeps (execXscat g gr a b c s) := by simp [execXscat, hs]
theorem execXscatNb_keeps (g : Guard) (gr : Gran) (d : R11) (a : R11) (b : R11) (c : R11) (s : State) (hs : Memory.wf s.mem = true) : Keeps (execXscatNb g gr d a b c s) := by simp [execXscatNb, hs]
theorem execXscata_keeps (g : Guard) (gr : Gran) (a : R11) (b : R11) (c : R11) (s : State) (hs : Memory.wf s.mem = true) : Keeps (execXscata g gr a b c s) := by simp [execXscata, hs]
theorem execXscataNb_keeps (g : Guard) (gr : Gran) (d : R11) (a : R11) (b : R11) (c : R11) (s : State) (hs : Memory.wf s.mem = true) : Keeps (execXscataNb g gr d a b c s) := by simp [execXscataNb, hs]
theorem execXhash_keeps (g : Guard) (d : R11) (a : R11) (c : R11) (s : State) (hs : Memory.wf s.mem = true) : Keeps (execXhash g d a c s) := by simp [execXhash, hs]
theorem execXins_keeps (g : Guard) (d : R11) (a : R11) (b : R11) (c : R11) (s : State) (hs : Memory.wf s.mem = true) : Keeps (execXins g d a b c s) := by simp [execXins, hs]
theorem execXwalk_keeps (g : Guard) (csr : Bool) (d : R11) (a : R11) (c : R11) (s : State) (hs : Memory.wf s.mem = true) : Keeps (execXwalk g csr d a c s) := by simp [execXwalk, hs]
theorem execGatherArrive_keeps (c : Nat) (p : GatherPart) (s : State) (hs : Memory.wf s.mem = true) : Keeps (execGatherArrive c p s) := by simp [execGatherArrive, hs]
theorem execScatterComplete_keeps (c : Nat) (i : Nat) (order : List Nat) (s : State) (hs : Memory.wf s.mem = true) : Keeps (execScatterComplete c i order s) := by simp [execScatterComplete, hs]
theorem execBundleIssue_keeps (c : Nat) (fresh : Bool) (s : State) (hs : Memory.wf s.mem = true) : Keeps (execBundleIssue c fresh s) := by
  simp only [execBundleIssue]
  (repeat' split) <;> simp [hs]
theorem execWalk_keeps (die : Nat) (ten : Nat) (page : Nat) (s : State) (hs : Memory.wf s.mem = true) : Keeps (execWalk die ten page s) := by
  simp only [execWalk]
  split <;> simp [hs]
theorem execWalkComplete_keeps (die ten page : Nat) (s : State) (hs : Memory.wf s.mem = true) : Keeps (execWalkComplete die ten page s) := by
  simp only [execWalkComplete]
  split
  · simpa using hs
  · split
    · simpa using hs
    · rw [keeps_next, State.answerAsks_mem, foldl_mem _ (fun s x => State.endMiss_mem _ _ _ _ _)]
      exact State.walked_wf _ _ _ hs
theorem execLoadDataReturn_keeps (c : Nat) (i : Nat) (id : Nat) (s : State) (hs : Memory.wf s.mem = true) : Keeps (execLoadDataReturn c i id s) := by
  simp only [execLoadDataReturn]
  (repeat' split) <;> simp [hs]
theorem execBundleComplete_keeps (c : Nat) (i : Nat) (s : State) (hs : Memory.wf s.mem = true) : Keeps (execBundleComplete c i s) := by
  simp only [execBundleComplete]
  (repeat' split) <;> simp [hs]
theorem execResultWriteback_keeps (c : Nat) (s : State) (hs : Memory.wf s.mem = true) : Keeps (execResultWriteback c s) := by
  simp only [execResultWriteback]
  rw [keeps_next, foldl_mem _ (fun s x => by split <;> simp)]
  exact hs
theorem execSeatSwitch_keeps (c : Nat) (s : State) (hs : Memory.wf s.mem = true) : Keeps (execSeatSwitch c s) := by
  simp only [execSeatSwitch]
  (repeat' split) <;> simp [hs]
theorem execQuantumExpiry_keeps (c : Nat) (s : State) (hs : Memory.wf s.mem = true) : Keeps (execQuantumExpiry c s) := by
  simp only [execQuantumExpiry]
  (repeat' split) <;> simp [hs]
theorem execGearWrite_keeps (d : Nat) (v : BitVec 4) (s : State) (hs : Memory.wf s.mem = true) : Keeps (execGearWrite d v s) := by simp [execGearWrite, hs]
theorem execGearPoint_keeps (c : Nat) (s : State) (hs : Memory.wf s.mem = true) : Keeps (execGearPoint c s) := by
  simp only [execGearPoint]
  (repeat' split) <;> simp [hs]
theorem execTrapEntry_keeps (c : Nat) (i : Nat) (s : State) (hs : Memory.wf s.mem = true) : Keeps (execTrapEntry c i s) := by
  simp only [execTrapEntry]
  (repeat' split) <;> simp [hs]
theorem execDeferredTrap_keeps (c : Nat) (i : Nat) (s : State) (hs : Memory.wf s.mem = true) : Keeps (execDeferredTrap c i s) := by
  simp only [execDeferredTrap]
  (repeat' split) <;> simp [hs]
theorem execDebugHalt_keeps (c : Nat) (i : Nat) (s : State) (hs : Memory.wf s.mem = true) : Keeps (execDebugHalt c i s) := by
  simp only [execDebugHalt]
  split <;> simp [hs]
theorem execDebugResume_keeps (c : Nat) (i : Nat) (s : State) (hs : Memory.wf s.mem = true) : Keeps (execDebugResume c i s) := by
  simp only [execDebugResume]
  split <;> simp [hs]
theorem execDebugStep_keeps (c : Nat) (i : Nat) (s : State) (hs : Memory.wf s.mem = true) : Keeps (execDebugStep c i s) := by
  simp only [execDebugStep]
  split <;> simp [hs]
theorem execDebugAccess_keeps (c : Nat) (i : Nat) (wr : Bool) (what : DbgReg) (n : Nat) (v : Nat) (s : State) (hs : Memory.wf s.mem = true) : Keeps (execDebugAccess c i wr what n v s) := by
  simp only [execDebugAccess]
  split <;> simp [hs]
theorem execSuspendSpill_keeps (c : Nat) (i : Nat) (s : State) (hs : Memory.wf s.mem = true) : Keeps (execSuspendSpill c i s) := by
  simp only [execSuspendSpill]
  (repeat' split) <;> simp [hs]
theorem execPreemptSpill_keeps (c : Nat) (i : Nat) (s : State) (hs : Memory.wf s.mem = true) : Keeps (execPreemptSpill c i s) := by
  simp only [execPreemptSpill]
  (repeat' split) <;> simp [hs]
theorem execWakeReady_keeps (d : Nat) (e : Nat) (s : State) (hs : Memory.wf s.mem = true) : Keeps (execWakeReady d e s) := by
  simp only [execWakeReady]
  (repeat' split) <;> simp [hs]
theorem execSeatRecord_keeps (d : Nat) (e : Nat) (s : State) (hs : Memory.wf s.mem = true) : Keeps (execSeatRecord d e s) := by
  simp only [execSeatRecord]
  (repeat' split) <;> simp [hs]
theorem execResume_keeps (c : Nat) (i : Nat) (s : State) (hs : Memory.wf s.mem = true) : Keeps (execResume c i s) := by
  simp only [execResume]
  split <;> simp [hs]
theorem execPreemptRequest_keeps (c : Nat) (i : Nat) (s : State) (hs : Memory.wf s.mem = true) : Keeps (execPreemptRequest c i s) := by
  simp only [execPreemptRequest]
  (repeat' split) <;> simp [hs]
theorem execPreemptTimeout_keeps (c : Nat) (i : Nat) (s : State) (hs : Memory.wf s.mem = true) : Keeps (execPreemptTimeout c i s) := by
  simp only [execPreemptTimeout]
  (repeat' split) <;> simp [hs]
theorem execStrandKill_keeps (c : Nat) (i : Nat) (s : State) (hs : Memory.wf s.mem = true) : Keeps (execStrandKill c i s) := by
  simp only [execStrandKill]
  (repeat' split) <;> simp [hs]
theorem execLaunchPacket_keeps (ten q : Nat) (s : State) (hs : Memory.wf s.mem = true) : Keeps (execLaunchPacket ten q s) := by
  simp only [execLaunchPacket, keeps_next]
  refine State.onPacket_wf _ _ _ _ _ (fun p s hs => ?_) hs
  split
  · simp [hs]
  · split <;> simp [hs]
theorem execCopyPacket_keeps (ten q : Nat) (s : State) (hs : Memory.wf s.mem = true) : Keeps (execCopyPacket ten q s) := by
  simp only [execCopyPacket, keeps_next]
  exact State.onPacket_wf _ _ _ _ _ (fun p s hs => by simp [hs]) hs
theorem execCopyxPacket_keeps (ten q : Nat) (s : State) (hs : Memory.wf s.mem = true) : Keeps (execCopyxPacket ten q s) := by
  simp only [execCopyxPacket, keeps_next]
  exact State.onPacket_wf _ _ _ _ _ (fun p s hs => by simp [hs]) hs
theorem execSignalPacket_keeps (ten q : Nat) (s : State) (hs : Memory.wf s.mem = true) : Keeps (execSignalPacket ten q s) := by
  simp only [execSignalPacket, keeps_next]
  refine State.onPacket_wf _ _ _ _ _ (fun p s hs => ?_) hs
  have hi := State.issueCompl_wf s ten p.compl hs
  split
  · exact State.finishCompl_wf _ _ _ _ _ hi
  · exact State.signalStore_wf _ _ _ _ _ _ hi
theorem execWaitallPacket_keeps (ten : Nat) (q : Nat) (s : State) (hs : Memory.wf s.mem = true) : Keeps (execWaitallPacket ten q s) := by simp [execWaitallPacket, hs]
theorem execLaunchStart_keeps (ten : Nat) (key : Nat) (s : State) (hs : Memory.wf s.mem = true) : Keeps (execLaunchStart ten key s) := by
  simp only [execLaunchStart]
  (repeat' split) <;> simp [hs]
theorem execRecordCreate_keeps (ten : Nat) (lid : Nat) (d : Nat) (base : Nat) (choice : Nat) (s : State) (hs : Memory.wf s.mem = true) : Keeps (execRecordCreate ten lid d base choice s) := by
  simp only [execRecordCreate]
  (repeat' split) <;> simp [hs]
theorem execPriorityAgeing_keeps (ten : Nat) (q : Nat) (s : State) (hs : Memory.wf s.mem = true) : Keeps (execPriorityAgeing ten q s) := by
  simp only [execPriorityAgeing]
  split <;> simp [hs]
theorem execBudgetExpiry_keeps (ten : Nat) (key : Nat) (s : State) (hs : Memory.wf s.mem = true) : Keeps (execBudgetExpiry ten key s) := by simp [execBudgetExpiry, hs]
theorem execLaunchComplete_keeps (ten : Nat) (key : Nat) (s : State) (hs : Memory.wf s.mem = true) : Keeps (execLaunchComplete ten key s) := by
  simp only [execLaunchComplete]
  (repeat' split) <;> simp [hs]
theorem execCancel_keeps (ten : Nat) (lid : Nat) (s : State) (hs : Memory.wf s.mem = true) : Keeps (execCancel ten lid s) := by
  simp only [execCancel]
  (repeat' split) <;> simp [hs]
theorem execRegWrite_keeps (fn : Nat) (off : Nat) (v : Word) (s : State) (hs : Memory.wf s.mem = true) : Keeps (execRegWrite fn off v s) := by
  simp only [execRegWrite]
  (repeat' split) <;> simp [hs]
theorem execRecareaWrite_keeps (d : Nat) (v : Word) (s : State) (hs : Memory.wf s.mem = true) : Keeps (execRecareaWrite d v s) := by
  simp only [execRecareaWrite]
  split <;> simp [hs]
theorem execTablebaseWrite_keeps (d : Nat) (v : Word) (s : State) (hs : Memory.wf s.mem = true) : Keeps (execTablebaseWrite d v s) := by simp [execTablebaseWrite, hs]
theorem execXdtoWrite_keeps (v : Word) (s : State) (hs : Memory.wf s.mem = true) : Keeps (execXdtoWrite v s) := by simp [execXdtoWrite, hs]
theorem execKeydatWrite_keeps (v : Word) (s : State) (hs : Memory.wf s.mem = true) : Keeps (execKeydatWrite v s) := by simp [execKeydatWrite, hs]
theorem execTueWrite_keeps (s : State) (hs : Memory.wf s.mem = true) : Keeps (execTueWrite s) := by
  simp only [execTueWrite, keeps_next]
  refine State.tueStep_wf _ _ _ (fun p s hs => ?_) hs
  rw [State.tueDone_mem]
  exact State.tableStore_wf _ _ _ _ (State.tableStore_wf _ _ _ _ (State.tableStore_wf _ _ _ _ (State.tableStore_wf _ _ _ _ hs)))
theorem execFlushva_keeps (s : State) (hs : Memory.wf s.mem = true) : Keeps (execFlushva s) := by
  simp only [execFlushva, keeps_next]
  refine State.tueStep_wf _ _ _ (fun p s hs => ?_) hs
  split <;> simp [hs]
theorem execFlushten_keeps (s : State) (hs : Memory.wf s.mem = true) : Keeps (execFlushten s) := by
  simp only [execFlushten, keeps_next]
  exact State.tueStep_wf _ _ _ (fun p s hs => by simp [hs]) hs
theorem execTueRbaseWrite_keeps (v : Word) (s : State) (hs : Memory.wf s.mem = true) : Keeps (execTueRbaseWrite v s) := by simp [execTueRbaseWrite, hs]
theorem execPageRelease_keeps (ten : Nat) (v : Word) (s : State) (hs : Memory.wf s.mem = true) : Keeps (execPageRelease ten v s) := by
  simp only [execPageRelease, keeps_next]
  exact foldl_wf _ (fun s x hs => by simp [hs]) _ _ hs
theorem execQueueEnable_keeps (ten : Nat) (q : Nat) (v : Word) (s : State) (hs : Memory.wf s.mem = true) : Keeps (execQueueEnable ten q v s) := by
  simp only [execQueueEnable]
  split <;> simp [hs]
theorem execNotifyWrite_keeps (ten : Nat) (q : Nat) (slot : Nat) (hdr : Word) (s : State) (hs : Memory.wf s.mem = true) : Keeps (execNotifyWrite ten q slot hdr s) := by
  simp only [execNotifyWrite]
  (repeat' split) <;> simp [hs]
theorem execTcbResetKill_keeps (ten : Nat) (s : State) (hs : Memory.wf s.mem = true) : Keeps (execTcbResetKill ten s) := by
  simp only [execTcbResetKill]
  (repeat' split) <;> simp [hs]
theorem execTcbResetUnfreeze_keeps (ten : Nat) (s : State) (hs : Memory.wf s.mem = true) : Keeps (execTcbResetUnfreeze ten s) := by
  simp only [execTcbResetUnfreeze]
  split <;> simp [hs]
theorem execHostAccess_keeps (fn : Nat) (va : Nat) (n : Nat) (op : HostOp) (v : Nat) (s : State) (hs : Memory.wf s.mem = true) : Keeps (execHostAccess fn va n op v s) := by
  simp only [execHostAccess]
  (repeat' split) <;> simp [hs]
theorem execAtsInvalidate_keeps (fn : Nat) (page : Nat) (s : State) (hs : Memory.wf s.mem = true) : Keeps (execAtsInvalidate fn page s) := by
  simp only [execAtsInvalidate]
  split <;> simp [hs]
theorem execFabricRequestIn_keeps (key : Nat) (req : FabReq) (s : State) (hs : Memory.wf s.mem = true) : Keeps (execFabricRequestIn key req s) := by
  simp only [execFabricRequestIn]
  split <;> simp [hs]
theorem execPeerLoss_keeps (m : Nat) (s : State) (hs : Memory.wf s.mem = true) : Keeps (execPeerLoss m s) := by simp [execPeerLoss, hs]
theorem execPeerRemoveDeclare_keeps (m : Nat) (s : State) (hs : Memory.wf s.mem = true) : Keeps (execPeerRemoveDeclare m s) := by
  simp only [execPeerRemoveDeclare]
  split <;> simp [hs]
theorem execHostLinkReturn_keeps (s : State) (hs : Memory.wf s.mem = true) : Keeps (execHostLinkReturn s) := by
  simp only [execHostLinkReturn]
  split <;> simp [hs]
theorem execRouteTableWrite_keeps (m : Nat) (v : Word) (s : State) (hs : Memory.wf s.mem = true) : Keeps (execRouteTableWrite m v s) := by
  simp only [execRouteTableWrite]
  (repeat' split) <;> simp [hs]
theorem execCrossDieTimeout_keeps (c : Nat) (i : Nat) (id : Nat) (s : State) (hs : Memory.wf s.mem = true) : Keeps (execCrossDieTimeout c i id s) := by
  simp only [execCrossDieTimeout]
  (repeat' split) <;> simp [hs]
theorem execLinkUp_keeps (port : Nat) (s : State) (hs : Memory.wf s.mem = true) : Keeps (execLinkUp port s) := by
  simp only [execLinkUp]
  split <;> simp [hs]
theorem execLaneFault_keeps (port : Nat) (l : Nat) (s : State) (hs : Memory.wf s.mem = true) : Keeps (execLaneFault port l s) := by
  simp only [execLaneFault]
  (repeat' split) <;> simp [hs]
theorem execLinkRetrain_keeps (port : Nat) (s : State) (hs : Memory.wf s.mem = true) : Keeps (execLinkRetrain port s) := by simp [execLinkRetrain, hs]
theorem execLinkRetrainComplete_keeps (port : Nat) (s : State) (hs : Memory.wf s.mem = true) : Keeps (execLinkRetrainComplete port s) := by
  simp only [execLinkRetrainComplete]
  (repeat' split) <;> simp [hs]
theorem execRetrainTimeout_keeps (port : Nat) (s : State) (hs : Memory.wf s.mem = true) : Keeps (execRetrainTimeout port s) := by
  simp only [execRetrainTimeout]
  split
  · simpa using hs
  · rw [keeps_next]
    refine State.writeQlines_wf _ ?_
    rw [foldl_mem _ (fun s x => State.loseModule_mem s x)]
    exact hs
theorem execFlitReplay_keeps (port : Nat) (s : State) (hs : Memory.wf s.mem = true) : Keeps (execFlitReplay port s) := by
  simp only [execFlitReplay]
  split <;> simp [hs]
theorem execPcieLinkDegrade_keeps (s : State) (hs : Memory.wf s.mem = true) : Keeps (execPcieLinkDegrade s) := by
  simp only [execPcieLinkDegrade]
  split <;> simp [hs]
theorem execPcieRetrainComplete_keeps (s : State) (hs : Memory.wf s.mem = true) : Keeps (execPcieRetrainComplete s) := by
  simp only [execPcieRetrainComplete]
  (repeat' split) <;> simp [hs]
theorem execPodPhaseRelease_keeps (ten : Nat) (lid : Nat) (peers : List (Nat × Word)) (s : State) (hs : Memory.wf s.mem = true) : Keeps (execPodPhaseRelease ten lid peers s) := by
  simp only [execPodPhaseRelease]
  (repeat' split) <;> simp [hs]
theorem execUeConsume_keeps (ten : Nat) (lid : Nat) (cls : Nat) (agent : Nat) (pa : Nat) (va : Nat) (s : State) (hs : Memory.wf s.mem = true) : Keeps (execUeConsume ten lid cls agent pa va s) := by
  simp only [execUeConsume]
  (repeat' split) <;> simp [hs]
theorem execTenancyKill_keeps (ten : Nat) (s : State) (hs : Memory.wf s.mem = true) : Keeps (execTenancyKill ten s) := by simp [execTenancyKill, hs]
theorem execCe_keeps (d : Nat) (place : Nat) (s : State) (hs : Memory.wf s.mem = true) : Keeps (execCe d place s) := by simp [execCe, hs]
theorem execScrub_keeps (d : Nat) (ce ue : List Nat) (s : State) (hs : Memory.wf s.mem = true) : Keeps (execScrub d ce ue s) := by
  simp only [execScrub]
  split
  · simpa using hs
  · rw [keeps_next, foldl_mem _ (fun s x => by simp), foldl_mem _ (fun s x => by simp)]
    exact hs
theorem execFumarolePass_keeps (d : Nat) (s : State) (hs : Memory.wf s.mem = true) : Keeps (execFumarolePass d s) := by
  simp only [execFumarolePass]
  (repeat' split) <;> simp [hs]
theorem execFumaroleAbandon_keeps (d : Nat) (s : State) (hs : Memory.wf s.mem = true) : Keeps (execFumaroleAbandon d s) := by
  simp only [execFumaroleAbandon]
  (repeat' split) <;> simp [hs]
theorem execScanSelfTestComplete_keeps (d cl : Nat) (failed : List Nat) (s : State) (hs : Memory.wf s.mem = true) :
    Keeps (execScanSelfTestComplete d cl failed s) := by
  unfold execScanSelfTestComplete
  generalize (s.cluster d cl).drain = x
  cases x with
  | scan _ =>
    refine ⟨_, rfl, ?_⟩
    rw [State.modDie_mem]
    refine State.setDrain_wf _ _ _ _ ?_
    rw [State.modCluster_mem]
    refine State.judgeCluster_wf _ _ _ _ ?_
    rw [foldl_mem _ (fun s x => State.modCore_mem _ _ _)]
    exact hs
  | none => exact ⟨_, rfl, hs⟩
  | pass _ => exact ⟨_, rfl, hs⟩
  | pair => exact ⟨_, rfl, hs⟩
theorem execPairCheckpoint_keeps (d : Nat) (cl : Nat) (s : State) (hs : Memory.wf s.mem = true) : Keeps (execPairCheckpoint d cl s) := by
  simp only [execPairCheckpoint]
  split <;> simp [hs]
theorem execPairMismatch_keeps (d : Nat) (cl : Nat) (s : State) (hs : Memory.wf s.mem = true) : Keeps (execPairMismatch d cl s) := by
  simp only [execPairMismatch]
  (repeat' split) <;> simp [hs]
theorem execPairReturnToService_keeps (d : Nat) (cl : Nat) (s : State) (hs : Memory.wf s.mem = true) : Keeps (execPairReturnToService d cl s) := by
  simp only [execPairReturnToService]
  (repeat' split) <;> simp [hs]
theorem execEventPost_keeps (d : Nat) (ty : Nat) (ten : Nat) (place : Nat) (s : State) (hs : Memory.wf s.mem = true) : Keeps (execEventPost d ty ten place s) := by simp [execEventPost, hs]
theorem execEventSend_keeps (d : Nat) (s : State) (hs : Memory.wf s.mem = true) : Keeps (execEventSend d s) := by simp [execEventSend, hs]
theorem execEventRetry_keeps (d : Nat) (s : State) (hs : Memory.wf s.mem = true) : Keeps (execEventRetry d s) := by simp [execEventRetry, hs]
theorem execDieDebugHalt_keeps (d : Nat) (s : State) (hs : Memory.wf s.mem = true) : Keeps (execDieDebugHalt d s) := by
  simp only [execDieDebugHalt]
  split <;> simp [hs]
theorem execDieDebugResume_keeps (d : Nat) (s : State) (hs : Memory.wf s.mem = true) : Keeps (execDieDebugResume d s) := by
  simp only [execDieDebugResume]
  (repeat' split) <;> simp [hs]
theorem execPackageReset_keeps (s : State) (hs : Memory.wf s.mem = true) : Keeps (execPackageReset s) := by
  simp only [execPackageReset, keeps_next]
  exact twf_filter _ _ _ hs
theorem execBringupLevel_keeps (s : State) (hs : Memory.wf s.mem = true) : Keeps (execBringupLevel s) := by
  simp only [execBringupLevel]
  split
  · simpa using hs
  · rw [keeps_next]
    exact foldl_wf _ (fun s d hs => State.relinkDie_wf _ _ hs) _ _ hs
theorem execBringupFail_keeps (s : State) (hs : Memory.wf s.mem = true) : Keeps (execBringupFail s) := by
  simp only [execBringupFail]
  split <;> simp [hs]
theorem execMeasuredBoot_keeps (image : Nat) (digest : BitVec 512) (valid : Bool) (s : State) (hs : Memory.wf s.mem = true) : Keeps (execMeasuredBoot image digest valid s) := by
  simp only [execMeasuredBoot]
  (repeat' split) <;> simp [hs]
theorem execSpdmKeyBind_keeps (key : Nat) (ten : Nat) (s : State) (hs : Memory.wf s.mem = true) : Keeps (execSpdmKeyBind key ten s) := by
  simp only [execSpdmKeyBind]
  split <;> simp [hs]
theorem execLineWriteBack_keeps (line : Nat) (s : State) (hs : Memory.wf s.mem = true) : Keeps (execLineWriteBack line s) := by
  simp only [execLineWriteBack]
  split <;> simp [hs]
end Sys2Proof.Machine
end

