-- ==== Sys2Proof/Laws/Ops.lean ====
section
/-! SUPPORT. What the shared operations of a syllable do: when a form acts, when its checks let it, what a false guard leaves, and the
registers' ranges. -/

namespace Sys2Proof.Machine

open Sys2Proof

set_option Elab.async false

/-- With a bundle being issued, a syllable does its part for that bundle. -/
theorem onIssue_of {s : State} {u : Issue} (k : Issue → State) (h : s.iss = some u) : onIssue s k = .next (k u) := by simp [onIssue, h]

/-- Checks that find nothing let the effect follow. -/
theorem gate_of_passes {p : Pre} {s : State} {u : Issue} (k : State → State) (h : Passes u p) : gate p s u k = k s := by
  rcases h with h | h <;> simp [gate, h]

/-- A form without checks whose guard holds. -/
theorem simple_of_acts {s : State} {u : Issue} {g : Guard} (k : Issue → State) (h : Acts s u g) : simple s g k = .next (k u) := by
  simp [simple, onIssue_of _ h.1, h.2]

/-- A form with checks whose guard holds and whose checks find nothing. -/
theorem guarded_of_acts {s : State} {u : Issue} {g : Guard} {pre : Issue → Pre} (k : Issue → State → State) (h : Acts s u g)
    (hp : Passes u (pre u)) : guarded s g pre k = .next (k u s) := by
  simp [guarded, onIssue_of _ h.1, h.2, gate_of_passes _ hp]

/-- A false guard leaves the state as it is. -/
theorem simple_of_false {s : State} {u : Issue} {g : Guard} (k : Issue → State) (h : s.iss = some u) (hg : s.guard u g = false) :
    simple s g k = .next s := by
  simp [simple, onIssue_of _ h, hg]

theorem guarded_of_false {s : State} {u : Issue} {g : Guard} (pre : Issue → Pre) (k : Issue → State → State) (h : s.iss = some u)
    (hg : s.guard u g = false) : guarded s g pre k = .next s := by
  simp [guarded, onIssue_of _ h, hg]

/-- What the C syllable asks for stands with the bundle being issued. -/
theorem ask_of {s : State} {u : Issue} (k : Ctl) (h : s.iss = some u) : s.ask k = { s with iss := some { u with ctl := k } } := by
  simp [State.ask, h]

/-- The bank a mode names has the same file. -/
theorem bank_file (tm : Bool) (f : File) (n : Nat) : (bank tm f n).file = f := by
  simp only [bank]
  split
  · rename_i h; simp at h; simp [h.1.2]
  · split
    · rename_i h; simp at h; simp [h.1.2]
    · rfl

/-- The width of a register of a file. -/
def File.width : File → Nat
  | .q => 1
  | .i => 64 | .j => 64 | .fr => 64 | .e => 64
  | .v => 2048 | .w => 2048 | .xv => 2048 | .vm => 2048
  | .vx => 16 | .wx => 16

theorem readReg_lt (r : Regs) (g : Reg) : readReg r g < 2 ^ File.width g.file := by
  obtain ⟨f, n⟩ := g
  cases f <;> simp only [readReg, File.width]
  · cases (if n = 0 then true else if n = 8 then r.tq else tget r.q false n) <;> simp [b2n]
  · split <;> exact BitVec.isLt _
  all_goals exact BitVec.isLt _

/-- A register's value is below the power of two of its width. -/
theorem rd_lt (s : State) (u : Issue) (f : File) (n : Nat) : s.rd u f n < 2 ^ File.width f := by
  have := readReg_lt (s.seat u.core u.seat).regs (bank (s.seat u.core u.seat).tm f n)
  rwa [bank_file] at this

theorem ijRead_lt (s : State) (u : Issue) (x : IJ) (n : R11) : s.ijRead u x n < 2 ^ 64 := by
  cases x <;> exact rd_lt s u _ _

theorem intReg_toNat (s : State) (u : Issue) (x : IJ) (n : R11) : (intReg s u x n).toNat = s.ijRead u x n := by
  simp only [intReg, BitVec.toNat_ofNat]
  exact Nat.mod_eq_of_lt (ijRead_lt s u x n)

/-- A two-operand integer form whose guard holds. -/
theorem intForm2_of_acts {s : State} {u : Issue} {g : Guard} (x : IJ) (d a b : R11) (f : Nat → Nat → Nat) (h : Acts s u g) :
    intForm2 s g x d a b f = .next (s.result u x.slot.pos 1 (ijFile x) d.toNat (f (s.ijRead u x a) (s.ijRead u x b))) := by
  simp [intForm2, intForm, simple_of_acts _ h]

/-- A form whose check gives a trap takes it, before its bundle has issued. -/
theorem guarded_of_trap {s : State} {u : Issue} {g : Guard} {pre : Issue → Pre} (k : Issue → State → State) (h : Acts s u g)
    (hc : u.checked = false) {r : TrapRec} (hp : pre u = .trap r) : guarded s g pre k = .next (s.preciseTrap u.core u.seat r) := by
  simp [guarded, onIssue_of _ h.1, h.2, gate, hc, hp]

/-- A form whose check finds a hold-line condition holds its bundle. -/
theorem guarded_of_hold {s : State} {u : Issue} {g : Guard} {pre : Issue → Pre} (k : Issue → State → State) (h : Acts s u g)
    (hc : u.checked = false) (hp : pre u = .hold) : guarded s g pre k = .next (s.holdBundle u) := by
  simp [guarded, onIssue_of _ h.1, h.2, gate, hc, hp]

/-- An address at or above 2^56 is refused at issue. -/
theorem globalPre_high (s : State) (u : Issue) {va : Nat} (n m : Nat) (h : 2 ^ 56 ≤ va) :
    s.globalPre u va n m = .trap ⟨0x07, 0, va, 0, 0, false, 0⟩ := by
  unfold State.globalPre globalTrap
  rw [if_pos h]; rfl

/-- An address that is not aligned is refused at issue. -/
theorem globalPre_unaligned (s : State) (u : Issue) {va n : Nat} (m : Nat) (h : va < 2 ^ 56) (h2 : va % n ≠ 0) :
    s.globalPre u va n m = .trap ⟨0x0F, 0, va, 0, 0, false, 0⟩ := by
  unfold State.globalPre globalTrap
  rw [if_neg (by omega), if_pos h2]; rfl

/-- With fewer than 64 requests unanswered at every home, an atomic's checks are those of its address. -/
theorem atomPre_eq (s : State) (u : Issue) (va n : Nat) (h : ∀ h, s.unanswered u.core u.seat h < 64) :
    s.atomPre u va n = s.globalPre u va n 4 := by
  unfold State.atomPre
  split
  split <;> try rfl
  split <;> try rfl
  rw [if_neg (by have := h ‹_›; omega)]

/-- An offset outside the window is refused at issue. -/
theorem poolPre_outside (s : State) (u : Issue) {off : Int} {n : Nat} (al : Nat) (h : off < 0 ∨ (s.winSize u : Int) < off + n) :
    s.poolPre u off n al = .trap ⟨0x07, 1, off64 off, 0, 0, false, 0⟩ := by
  unfold State.poolPre
  rw [if_pos (by simpa using h)]; rfl

/-- An offset in the window that is not aligned is refused at issue. -/
theorem poolPre_unaligned (s : State) (u : Issue) {off : Int} {n al : Nat} (h : 0 ≤ off) (h1 : off + n ≤ (s.winSize u : Int))
    (h2 : off.toNat % al ≠ 0) : s.poolPre u off n al = .trap ⟨0x0F, 1, off64 off, 0, 0, false, 0⟩ := by
  unfold State.poolPre
  rw [if_neg (by simp; omega), if_pos h2]; rfl

/-- A j register as an offset. -/
theorem jOff_zero (s : State) (u : Issue) (a : R11) : s.jOff u a 0 = sextN 64 (s.rd u .j a.toNat) := by
  have h : s.rd u .j a.toNat < 2 ^ 64 := rd_lt s u .j a.toNat
  simp only [State.jOff, addr64, Nat.add_zero, Nat.mod_eq_of_lt h]

/-- A bit of a number, as the library writes it. -/
theorem bitAt_testBit (x i : Nat) : bitAt x i = x.testBit i := by
  simp only [bitAt, Nat.testBit_eq_decide_div_mod_eq]
  rfl

end Sys2Proof.Machine
end

