-- ==== Sys2Proof/Laws/PerInstr.lean ====
section
/-! SUPPORT. Decode undoes encode, one lemma per constructor: for a well-formed syllable, decoding the word and the extension that the
encoder gives, in its slot, answers that syllable (R36 to R41). An event has no encoding. -/

namespace Sys2Proof

set_option Elab.async false

/-- Decoding the encoding of a well-formed instruction gives it back, for a seat that holds the M claim at a service level that
serves every format. -/
def Laws.Encoding.Statement (i : Instr) : Prop :=
  wellFormed i = true → match encode i with
  | none => True
  | some (slot, w, ext) => ∀ ctx : DecCtx, ctx.claim = true → ctx.lvl1 = false →
      ∃ x, decodeSyl ctx slot w ext = .ok x ∧ x.instr = i

/-! ## Fields of the two layouts -/

theorem Laws.ext_low {n m : Nat} (x : BitVec n) (y : BitVec m) (k l : Nat) (h : k + l ≤ m) : (x ++ y).extractLsb' k l = y.extractLsb' k l := by
  ext i hi; simp [BitVec.getLsbD_append]; intro h1; omega

theorem Laws.ext_high {n m : Nat} (x : BitVec n) (y : BitVec m) (k l : Nat) (h : m ≤ k) : (x ++ y).extractLsb' k l = x.extractLsb' (k - m) l := by
  ext i hi; simp [BitVec.getLsbD_append]
  rw [if_neg (by omega)]; congr 1; omega

theorem Laws.ext_all {n : Nat} (x : BitVec n) : x.extractLsb' 0 n = x := by simp

theorem Laws.bit_high {n m : Nat} (x : BitVec n) (y : BitVec m) (k : Nat) (h : m ≤ k) : (x ++ y).getLsbD k = x.getLsbD (k - m) := by
  rw [BitVec.getLsbD_append, if_neg (by omega)]

theorem Laws.bit_low {n m : Nat} (x : BitVec n) (y : BitVec m) (k : Nat) (h : k < m) : (x ++ y).getLsbD k = y.getLsbD k := by
  rw [BitVec.getLsbD_append, if_pos h]

theorem Laws.cat_R (z : BitVec 1) (o : BitVec 7) (p : BitVec 1) (q : BitVec 3) (d a b c : BitVec 11) (ma mb mc v : BitVec 2) :
    let w := z ++ o ++ p ++ q ++ d ++ a ++ b ++ c ++ ma ++ mb ++ mc ++ v
    w.extractLsb' 56 7 = o ∧ w.getLsbD 55 = p.getLsbD 0 ∧ w.extractLsb' 52 3 = q ∧ w.extractLsb' 41 11 = d ∧ w.extractLsb' 30 11 = a
      ∧ w.extractLsb' 19 11 = b ∧ w.extractLsb' 8 11 = c ∧ w.extractLsb' 6 2 = ma ∧ w.extractLsb' 4 2 = mb ∧ w.extractLsb' 2 2 = mc
      ∧ w.extractLsb' 0 2 = v := by
  refine ⟨?_, ?_, ?_, ?_, ?_, ?_, ?_, ?_, ?_, ?_, ?_⟩ <;>
    simp (disch := decide) only [ext_low, ext_high, bit_low, bit_high, Nat.reduceSub, ext_all]

theorem Laws.cat_I (z : BitVec 1) (o : BitVec 7) (p : BitVec 1) (q : BitVec 3) (d a : BitVec 11) (i : BitVec 29) (v : BitVec 1) :
    let w := z ++ o ++ p ++ q ++ d ++ a ++ i ++ v
    w.extractLsb' 56 7 = o ∧ w.getLsbD 55 = p.getLsbD 0 ∧ w.extractLsb' 52 3 = q ∧ w.extractLsb' 41 11 = d ∧ w.extractLsb' 30 11 = a
      ∧ w.extractLsb' 1 29 = i ∧ w.extractLsb' 0 1 = v := by
  refine ⟨?_, ?_, ?_, ?_, ?_, ?_, ?_⟩ <;>
    simp (disch := decide) only [ext_low, ext_high, bit_low, bit_high, Nat.reduceSub, ext_all]

theorem Laws.fields_packR (op : Nat) (g : Guard) (d a b c : R11) (ma mb mc var : BitVec 2) :
    let w := Fields.of (packR op g d a b c ma mb mc var)
    w.op = BitVec.ofNat 7 op ∧ w.g = g ∧ w.d = d ∧ w.a = a ∧ w.b = b ∧ w.c = c ∧ w.ma = ma ∧ w.mb = mb ∧ w.mc = mc ∧ w.var = var := by
  obtain ⟨h1, h2, h3, h4⟩ := cat_R 0#1 (BitVec.ofNat 7 op) (BitVec.ofBool g.pn) g.pred d a b c ma mb mc var
  refine ⟨h1, ?_, h4⟩
  obtain ⟨pn, pred⟩ := g
  exact (Guard.mk.injEq _ _ _ _).mpr ⟨h2.trans (by simp), h3⟩

theorem Laws.fields_packI (op : Nat) (g : Guard) (d a : R11) (imm : BitVec 29) (bit0 : BitVec 2) :
    let w := Fields.of (packI op g d a imm bit0)
    w.op = BitVec.ofNat 7 op ∧ w.g = g ∧ w.d = d ∧ w.a = a ∧ w.imm29 = imm ∧ w.bit0 = bit0.extractLsb' 0 1 := by
  obtain ⟨h1, h2, h3, h4⟩ := cat_I 0#1 (BitVec.ofNat 7 op) (BitVec.ofBool g.pn) g.pred d a imm (bit0.extractLsb' 0 1)
  refine ⟨h1, ?_, h4⟩
  obtain ⟨pn, pred⟩ := g
  exact (Guard.mk.injEq _ _ _ _).mpr ⟨h2.trans (by simp), h3⟩

theorem Laws.trip_of (slot : Slot) (w : Word) (ext : Option (BitVec 63)) (i : Instr)
    (h : ∀ fa fb, ∃ m, formOf fa fb slot (Fields.of w) ext = some m ∧ rsvCode m (Fields.of w) ext.isSome = 0
      ∧ mkInstr slot (Fields.of w) ext = some i) (ctx : DecCtx) (hc : ctx.claim = true) (hl : ctx.lvl1 = false) :
    ∃ x, decodeSyl ctx slot w ext = .ok x ∧ x.instr = i := by
  obtain ⟨m, h1, h2, h3⟩ := h ctx.fa ctx.fb
  simp [decodeSyl, h1, h2, h3, hc, hl]

/-- formOf with the opcode apart. -/
def Laws.formAt (fa fb : Nat) (slot : Slot) (op : Nat) (f : Fields) (ext : Option (BitVec 63)) : Option Form :=
  match slot with
  | .c => (formC op).map (fun m => if op = 9 && !immIn (f.imm ext) 0 65535 then { m with bad := 7 } else m)
  | .i => formI op f
  | .j => formJ op f
  | .f => formF op f
  | .v => formV .v .vx op f
  | .w => formV .w .wx op f
  | .m => formM fa fb op f
  | .x => formX op f
  | .s => formS op f
  | .e => formE op f ext
  | .k => formK op f

/-- mkInstr with the opcode apart. -/
def Laws.mkAt (slot : Slot) (op : Nat) (f : Fields) (ext : Option (BitVec 63)) : Option Instr :=
  match slot with
  | .c => mkC op f ext
  | .i => mkI op f ext
  | .j => mkJ op f ext
  | .f => mkF op f ext
  | .v => mkV .v op f ext
  | .w => mkV .w op f ext
  | .m => mkM op f
  | .x => mkX op f ext
  | .s => mkS op f
  | .e => mkE op f ext
  | .k => mkK op f

theorem Laws.form_at (fa fb : Nat) (slot : Slot) (op : Nat) (h : op < 128) (f : Fields) (hf : f.op = BitVec.ofNat 7 op) (ext : Option (BitVec 63)) :
    formOf fa fb slot f ext = formAt fa fb slot op f ext ∧ mkInstr slot f ext = mkAt slot op f ext := by
  have : f.op.toNat = op := by rw [hf, BitVec.toNat_ofNat]; exact Nat.mod_eq_of_lt h
  cases slot <;> simp only [formOf, formAt, mkInstr, mkAt, this, and_self]

theorem Laws.trip_R (slot : Slot) (op : Nat) (g : Guard) (d a b c : R11) (ma mb mc var : BitVec 2) (i : Instr) (ho : op < 128)
    (h : ∀ fa fb fi f0, ∃ m, formAt fa fb slot op ⟨BitVec.ofNat 7 op, g, d, a, b, c, ma, mb, mc, var, fi, f0⟩ none = some m
      ∧ rsvCode m ⟨BitVec.ofNat 7 op, g, d, a, b, c, ma, mb, mc, var, fi, f0⟩ false = 0
      ∧ mkAt slot op ⟨BitVec.ofNat 7 op, g, d, a, b, c, ma, mb, mc, var, fi, f0⟩ none = some i) (ctx : DecCtx) (hc : ctx.claim = true)
    (hl : ctx.lvl1 = false) : ∃ x, decodeSyl ctx slot (packR op g d a b c ma mb mc var) none = .ok x ∧ x.instr = i := by
  refine trip_of slot _ none i (fun fa fb => ?_) ctx hc hl
  have hf := fields_packR op g d a b c ma mb mc var
  obtain ⟨e1, e2⟩ := form_at fa fb slot op ho _ hf.1 none
  rw [e1, e2]
  clear e1 e2
  revert hf
  generalize Fields.of (packR op g d a b c ma mb mc var) = f
  obtain ⟨fop, fg, fd, fa', fb', fc, fma, fmb, fmc, fv, fi, f0⟩ := f
  rintro ⟨rfl, rfl, rfl, rfl, rfl, rfl, rfl, rfl, rfl, rfl⟩
  exact h _ _ fi f0

theorem Laws.imm_cases (imm : Imm) (h : imm.ok = true) (fop g d a fb fc ma mb mc v f0) :
    Fields.imm ⟨fop, g, d, a, fb, fc, ma, mb, mc, v, imm.field, f0⟩ imm.extension = imm := by
  cases imm <;> simp_all [Imm.ok, Fields.imm, Imm.field, Imm.extension]

theorem Laws.trip_I (slot : Slot) (op : Nat) (g : Guard) (d a : R11) (imm : Imm) (bt : BitVec 2) (i : Instr) (ho : op < 128)
    (h : ∀ fa fb b c ma mb mc v, ∃ m, formAt fa fb slot op ⟨BitVec.ofNat 7 op, g, d, a, b, c, ma, mb, mc, v, imm.field, bt.extractLsb' 0 1⟩ imm.extension = some m
      ∧ rsvCode m ⟨BitVec.ofNat 7 op, g, d, a, b, c, ma, mb, mc, v, imm.field, bt.extractLsb' 0 1⟩ imm.extension.isSome = 0
      ∧ mkAt slot op ⟨BitVec.ofNat 7 op, g, d, a, b, c, ma, mb, mc, v, imm.field, bt.extractLsb' 0 1⟩ imm.extension = some i)
    (ctx : DecCtx) (hc : ctx.claim = true)
    (hl : ctx.lvl1 = false) : ∃ x, decodeSyl ctx slot (packI op g d a imm.field bt) imm.extension = .ok x ∧ x.instr = i := by
  refine trip_of slot _ _ i (fun fa fb => ?_) ctx hc hl
  have hf := fields_packI op g d a imm.field bt
  obtain ⟨e1, e2⟩ := form_at fa fb slot op ho _ hf.1 imm.extension
  rw [e1, e2]
  clear e1 e2
  revert hf
  generalize Fields.of (packI op g d a imm.field bt) = f
  obtain ⟨fop, fg, fd, fa', fb', fc, fma, fmb, fmc, fv, fi, f0⟩ := f
  rintro ⟨rfl, rfl, rfl, rfl, rfl, rfl⟩
  exact h _ _ _ _ _ _ _ _

/-- What a use asks of its field (R38). -/
def Laws.fits (x : Nat) (u : Use) : Prop :=
  match u with
  | .zero => x = 0
  | .psrc => x < 8
  | .pdst => x < 8
  | .vmk => x < 8
  | .lit lo hi => lo ≤ x ∧ x ≤ hi
  | .addb _ => x / 64 % 4 = 0
  | .evm => x / 32 % 8 = 0
  | .vxa _ two => x < if two then 256 else 16
  | .coreSel => x = 0 ∨ (1024 ≤ x ∧ x < 1056)
  | .src _ => True
  | .dst _ => True
  | .upd _ => True
  | .vs _ => True
  | .e7 => True
  | .xv2 => True

/-- What a use asks of its field and its mode (R37). -/
def Laws.fitsM (x : Nat) (mode : BitVec 2) (u : Use) : Prop :=
  match u with
  | .vs _ => True
  | u => mode = 0 ∧ fits x u

theorem Laws.bad_fits (k x : Nat) (u : Use) (h : fits x u) : useBad k x 0 u = 0 := by
  cases u with
  | vxa f two => cases two <;> simp_all [fits, useBad]
  | coreSel => rcases h with h | h <;> simp [useBad, h]
  | _ => simp_all [fits, useBad] <;> omega

theorem Laws.bad_fitsM (k x : Nat) (mode : BitVec 2) (u : Use) (h : fitsM x mode u) : useBad k x mode u = 0 := by
  cases u with
  | vs f => rfl
  | _ =>
    obtain ⟨rfl, h⟩ := h
    exact bad_fits k x _ h

theorem Laws.rsv_R (m : Form) (f : Fields) (h : m.layI = false) (hv : m.vars.contains f.var.toNat = true)
    (hf : fits f.d.toNat m.d ∧ fitsM f.a.toNat f.ma m.a ∧ fitsM f.b.toNat f.mb m.b ∧ fitsM f.c.toNat f.mc m.c) (hm : m.bad = 0) :
    rsvCode m f false = 0 := by
  obtain ⟨hd, ha, hb, hc⟩ := hf
  simp only [rsvCode, h, bad_fits _ _ _ hd, bad_fitsM _ _ _ _ hb, bad_fitsM _ _ _ _ hc, hm, minCode]
  simp_all [bad_fitsM]

theorem Laws.rsv_I (m : Form) (f : Fields) (ext : Bool) (h : m.layI = true) (he : (f.imm29 == Imm.escape && !ext) = false)
    (hv : m.vars.contains f.bit0.toNat = true) (hf : fits f.d.toNat m.d ∧ fits f.a.toNat m.a) (hm : m.bad = 0) : rsvCode m f ext = 0 := by
  obtain ⟨hd, ha⟩ := hf
  have e := bad_fits 2 _ _ ha
  simp only [rsvCode, h, bad_fits _ _ _ hd, hm, minCode]
  simp_all

theorem Laws.esc_ok (imm : Imm) (h : imm.ok = true) : (imm.field == Imm.escape && !imm.extension.isSome) = false := by
  cases imm <;> simp_all [Imm.ok, Imm.field, Imm.extension]

theorem Laws.vars4 (v : BitVec 2) : [0, 1, 2, 3].contains v.toNat = true := by
  revert v; decide

theorem Laws.vsrc_back (v : VSrc) : VSrc.of v.field v.mode = v := by
  cases v with
  | reg n => rfl
  | cap n => rfl
  | latch => rfl
  | fl => rfl
  | ind x o =>
    exact congrArg₂ VSrc.ind ((ext_high x o 7 4 (by decide)).trans (ext_all x)) ((ext_low x o 0 7 (by decide)).trans (ext_all o))

theorem Laws.rm_back (r : RM) : RM.ofCode r.code = r := by cases r <;> rfl

theorem Laws.ord_back (r : Ord) : Ord.ofCode r.code = r := by cases r <;> rfl

theorem Laws.scope_back (r : Scope) : Scope.ofCode r.code = r := by cases r <;> rfl

theorem Laws.gran_back (r : Gran) : Gran.ofCode r.code = r := by cases r <;> rfl

theorem Laws.kfiles_back (df sf : KFile) :
    KFile.ofCode ((kfiles df sf).toNat / 16 % 16) = df ∧ KFile.ofCode ((kfiles df sf).toNat / 16) = df
      ∧ KFile.ofCode ((kfiles df sf).toNat % 16) = sf ∧ (kfiles df sf).toNat < 256 ∧ (kfiles df sf).toNat / 16 % 16 < 7
      ∧ (kfiles df sf).toNat % 16 < 7 ∧ ((kfiles df sf).toNat / 16 % 16 = (kfiles df sf).toNat % 16 ↔ df = sf) := by
  cases df <;> cases sf <;> decide

theorem Laws.le_2047 (x : R11) : x.toNat ≤ 2047 := Nat.le_of_lt_succ x.isLt

theorem Laws.vcvt_ok (b c : R11) (h : vcvtOk b c = true) : vcvtBad b c = 0 := by
  simp only [vcvtOk, Bool.and_eq_true, Bool.or_eq_true, decide_eq_true_eq] at h
  obtain ⟨⟨⟨⟨h1, h2⟩, h3⟩, h4⟩, h5⟩ := h
  have h6 : ¬ 256 ≤ c.toNat := by omega
  have h7 : b.toNat / 32 = 0 := by omega
  have h8 : ¬ (max (fmtCount (c.toNat % 16)) (fmtCount (c.toNat / 16 % 16)) <
    (b.toNat % 16 + 1) * min (fmtCount (c.toNat % 16)) (fmtCount (c.toNat / 16 % 16))) := by omega
  rcases h4 with h4 | h4
  · have h9 : b.toNat / 16 = 0 := by omega
    simp [vcvtBad, h7, h9, h6, h3, h8]
  · simp [vcvtBad, h7, h4, h6, h3, h8]

/-! ## One lemma per constructor -/

theorem Laws.Encoding.br (g : Guard) (imm : Imm) : Laws.Encoding.Statement (.br g imm) := by
  intro h
  simp only [wellFormed, Bool.and_eq_true, decide_eq_true_eq] at h
  refine trip_I _ _ _ _ _ _ _ _ (by decide) (fun fa fb b c ma mb mc v => ⟨_, rfl,
    rsv_I _ _ _ rfl (esc_ok imm (by simp [h])) rfl ?_ ?_, ?_⟩)
  all_goals first
    | rfl
    | (simp [fits] <;> omega)
    | (show some (Instr.br g (Fields.imm _ _)) = _; rw [imm_cases imm (by simp [h])] <;> (try simp [bit, szOf, Sz.code]))
    | simp_all

theorem Laws.Encoding.brq (g : Guard) (z : Bool) (a : R11) (imm : Imm) : Laws.Encoding.Statement (.brq g z a imm) := by
  intro h
  simp only [wellFormed, Bool.and_eq_true, decide_eq_true_eq] at h
  cases z
  all_goals refine trip_I _ _ _ _ _ _ _ _ (by decide) (fun fa fb b c ma mb mc v => ⟨_, rfl,
    rsv_I _ _ _ rfl (esc_ok imm (by simp [h])) rfl ?_ ?_, ?_⟩)
  all_goals first
    | rfl
    | (simp [fits] <;> omega)
    | (show some (Instr.brq g _ a (Fields.imm _ _)) = _; rw [imm_cases imm (by simp [h])] <;> (try simp [bit, szOf, Sz.code]))
    | simp_all

theorem Laws.Encoding.jmp (g : Guard) (a : R11) : Laws.Encoding.Statement (.jmp g a) := by
  intro h
  simp only [wellFormed, Bool.and_eq_true, decide_eq_true_eq] at h
  exact trip_R _ _ _ _ _ _ _ _ _ _ _ _ (by decide) (fun fa fb fi f0 => ⟨_, rfl,
    rsv_R _ _ rfl rfl (by simp [fits, fitsM, le_2047] <;> omega) rfl, rfl⟩)

theorem Laws.Encoding.call (g : Guard) (d : R11) (imm : Imm) : Laws.Encoding.Statement (.call g d imm) := by
  intro h
  simp only [wellFormed, Bool.and_eq_true, decide_eq_true_eq] at h
  refine trip_I _ _ _ _ _ _ _ _ (by decide) (fun fa fb b c ma mb mc v => ⟨_, rfl,
    rsv_I _ _ _ rfl (esc_ok imm (by simp [h])) rfl ?_ ?_, ?_⟩)
  all_goals first
    | rfl
    | (simp [fits] <;> omega)
    | (show some (Instr.call g d (Fields.imm _ _)) = _; rw [imm_cases imm (by simp [h])] <;> (try simp [bit, szOf, Sz.code]))
    | simp_all

theorem Laws.Encoding.calli (g : Guard) (d : R11) (a : R11) : Laws.Encoding.Statement (.calli g d a) := by
  intro h
  simp only [wellFormed, Bool.and_eq_true, decide_eq_true_eq] at h
  exact trip_R _ _ _ _ _ _ _ _ _ _ _ _ (by decide) (fun fa fb fi f0 => ⟨_, rfl,
    rsv_R _ _ rfl rfl (by simp [fits, fitsM, le_2047] <;> omega) rfl, rfl⟩)

theorem Laws.Encoding.ret (g : Guard) (a : R11) : Laws.Encoding.Statement (.ret g a) := by
  intro h
  simp only [wellFormed, Bool.and_eq_true, decide_eq_true_eq] at h
  exact trip_R _ _ _ _ _ _ _ _ _ _ _ _ (by decide) (fun fa fb fi f0 => ⟨_, rfl,
    rsv_R _ _ rfl rfl (by simp [fits, fitsM, le_2047] <;> omega) rfl, rfl⟩)

theorem Laws.Encoding.suspend (g : Guard) (a : R11) (b : R11) : Laws.Encoding.Statement (.suspend g a b) := by
  intro h
  simp only [wellFormed, Bool.and_eq_true, decide_eq_true_eq] at h
  exact trip_R _ _ _ _ _ _ _ _ _ _ _ _ (by decide) (fun fa fb fi f0 => ⟨_, rfl,
    rsv_R _ _ rfl rfl (by simp [fits, fitsM, le_2047] <;> omega) rfl, rfl⟩)

theorem Laws.Encoding.yield (g : Guard) : Laws.Encoding.Statement (.yield g) := by
  intro h
  simp only [wellFormed, Bool.and_eq_true, decide_eq_true_eq] at h
  exact trip_R _ _ _ _ _ _ _ _ _ _ _ _ (by decide) (fun fa fb fi f0 => ⟨_, rfl,
    rsv_R _ _ rfl rfl (by simp [fits, fitsM, le_2047] <;> omega) rfl, rfl⟩)

theorem Laws.Encoding.halt (g : Guard) : Laws.Encoding.Statement (.halt g) := by
  intro h
  simp only [wellFormed, Bool.and_eq_true, decide_eq_true_eq] at h
  exact trip_R _ _ _ _ _ _ _ _ _ _ _ _ (by decide) (fun fa fb fi f0 => ⟨_, rfl,
    rsv_R _ _ rfl rfl (by simp [fits, fitsM, le_2047] <;> omega) rfl, rfl⟩)

theorem Laws.Encoding.trap (g : Guard) (imm : Imm) : Laws.Encoding.Statement (.trap g imm) := by
  intro h
  simp only [wellFormed, Bool.and_eq_true] at h
  refine trip_I _ _ _ _ _ _ _ _ (by decide) (fun fa fb b c ma mb mc v => ⟨{ layI := true, weight := 8 }, ?_,
    rsv_I _ _ _ rfl (esc_ok imm h.2) rfl (by simp [fits]) rfl, ?_⟩)
  · simp [formAt, formC, imm_cases imm h.2, h.1]
  · exact congrArg (fun x => some (Instr.trap g x)) (imm_cases imm h.2 _ _ _ _ _ _ _ _ _ _ _)

theorem Laws.Encoding.tret (g : Guard) : Laws.Encoding.Statement (.tret g) := by
  intro h
  simp only [wellFormed, Bool.and_eq_true, decide_eq_true_eq] at h
  exact trip_R _ _ _ _ _ _ _ _ _ _ _ _ (by decide) (fun fa fb fi f0 => ⟨_, rfl,
    rsv_R _ _ rfl rfl (by simp [fits, fitsM, le_2047] <;> omega) rfl, rfl⟩)

theorem Laws.Encoding.brk (g : Guard) : Laws.Encoding.Statement (.brk g) := by
  intro h
  simp only [wellFormed, Bool.and_eq_true, decide_eq_true_eq] at h
  exact trip_R _ _ _ _ _ _ _ _ _ _ _ _ (by decide) (fun fa fb fi f0 => ⟨_, rfl,
    rsv_R _ _ rfl rfl (by simp [fits, fitsM, le_2047] <;> omega) rfl, rfl⟩)

theorem Laws.Encoding.add (g : Guard) (x : IJ) (d : R11) (a : R11) (b : R11) : Laws.Encoding.Statement (.add g x d a b) := by
  intro h
  simp only [wellFormed, Bool.and_eq_true, decide_eq_true_eq] at h
  cases x
  all_goals exact trip_R _ _ _ _ _ _ _ _ _ _ _ _ (by decide) (fun fa fb fi f0 => ⟨_, rfl,
    rsv_R _ _ rfl rfl (by simp [fits, fitsM, le_2047] <;> omega) rfl, rfl⟩)

theorem Laws.Encoding.sub (g : Guard) (x : IJ) (d : R11) (a : R11) (b : R11) : Laws.Encoding.Statement (.sub g x d a b) := by
  intro h
  simp only [wellFormed, Bool.and_eq_true, decide_eq_true_eq] at h
  cases x
  all_goals exact trip_R _ _ _ _ _ _ _ _ _ _ _ _ (by decide) (fun fa fb fi f0 => ⟨_, rfl,
    rsv_R _ _ rfl rfl (by simp [fits, fitsM, le_2047] <;> omega) rfl, rfl⟩)

theorem Laws.Encoding.addi (g : Guard) (x : IJ) (d : R11) (a : R11) (imm : Imm) : Laws.Encoding.Statement (.addi g x d a imm) := by
  intro h
  simp only [wellFormed, Bool.and_eq_true, decide_eq_true_eq] at h
  cases x
  all_goals refine trip_I _ _ _ _ _ _ _ _ (by decide) (fun fa fb b c ma mb mc v => ⟨_, rfl,
    rsv_I _ _ _ rfl (esc_ok imm (by simp [h])) rfl ?_ ?_, ?_⟩)
  all_goals first
    | rfl
    | (simp [fits] <;> omega)
    | (show some (Instr.addi g _ d a (Fields.imm _ _)) = _; rw [imm_cases imm (by simp [h])] <;> (try simp [bit, szOf, Sz.code]))
    | simp_all

theorem Laws.Encoding.mul (g : Guard) (x : IJ) (d : R11) (a : R11) (b : R11) : Laws.Encoding.Statement (.mul g x d a b) := by
  intro h
  simp only [wellFormed, Bool.and_eq_true, decide_eq_true_eq] at h
  cases x
  all_goals exact trip_R _ _ _ _ _ _ _ _ _ _ _ _ (by decide) (fun fa fb fi f0 => ⟨_, rfl,
    rsv_R _ _ rfl rfl (by simp [fits, fitsM, le_2047] <;> omega) rfl, rfl⟩)

theorem Laws.Encoding.mulh (g : Guard) (x : IJ) (d : R11) (a : R11) (b : R11) : Laws.Encoding.Statement (.mulh g x d a b) := by
  intro h
  simp only [wellFormed, Bool.and_eq_true, decide_eq_true_eq] at h
  cases x
  all_goals exact trip_R _ _ _ _ _ _ _ _ _ _ _ _ (by decide) (fun fa fb fi f0 => ⟨_, rfl,
    rsv_R _ _ rfl rfl (by simp [fits, fitsM, le_2047] <;> omega) rfl, rfl⟩)

theorem Laws.Encoding.mulhu (g : Guard) (x : IJ) (d : R11) (a : R11) (b : R11) : Laws.Encoding.Statement (.mulhu g x d a b) := by
  intro h
  simp only [wellFormed, Bool.and_eq_true, decide_eq_true_eq] at h
  cases x
  all_goals exact trip_R _ _ _ _ _ _ _ _ _ _ _ _ (by decide) (fun fa fb fi f0 => ⟨_, rfl,
    rsv_R _ _ rfl rfl (by simp [fits, fitsM, le_2047] <;> omega) rfl, rfl⟩)

theorem Laws.Encoding.and (g : Guard) (x : IJ) (d : R11) (a : R11) (b : R11) : Laws.Encoding.Statement (.and g x d a b) := by
  intro h
  simp only [wellFormed, Bool.and_eq_true, decide_eq_true_eq] at h
  cases x
  all_goals exact trip_R _ _ _ _ _ _ _ _ _ _ _ _ (by decide) (fun fa fb fi f0 => ⟨_, rfl,
    rsv_R _ _ rfl rfl (by simp [fits, fitsM, le_2047] <;> omega) rfl, rfl⟩)

theorem Laws.Encoding.or (g : Guard) (x : IJ) (d : R11) (a : R11) (b : R11) : Laws.Encoding.Statement (.or g x d a b) := by
  intro h
  simp only [wellFormed, Bool.and_eq_true, decide_eq_true_eq] at h
  cases x
  all_goals exact trip_R _ _ _ _ _ _ _ _ _ _ _ _ (by decide) (fun fa fb fi f0 => ⟨_, rfl,
    rsv_R _ _ rfl rfl (by simp [fits, fitsM, le_2047] <;> omega) rfl, rfl⟩)

theorem Laws.Encoding.xor (g : Guard) (x : IJ) (d : R11) (a : R11) (b : R11) : Laws.Encoding.Statement (.xor g x d a b) := by
  intro h
  simp only [wellFormed, Bool.and_eq_true, decide_eq_true_eq] at h
  cases x
  all_goals exact trip_R _ _ _ _ _ _ _ _ _ _ _ _ (by decide) (fun fa fb fi f0 => ⟨_, rfl,
    rsv_R _ _ rfl rfl (by simp [fits, fitsM, le_2047] <;> omega) rfl, rfl⟩)

theorem Laws.Encoding.andn (g : Guard) (x : IJ) (d : R11) (a : R11) (b : R11) : Laws.Encoding.Statement (.andn g x d a b) := by
  intro h
  simp only [wellFormed, Bool.and_eq_true, decide_eq_true_eq] at h
  cases x
  all_goals exact trip_R _ _ _ _ _ _ _ _ _ _ _ _ (by decide) (fun fa fb fi f0 => ⟨_, rfl,
    rsv_R _ _ rfl rfl (by simp [fits, fitsM, le_2047] <;> omega) rfl, rfl⟩)

theorem Laws.Encoding.shl (g : Guard) (x : IJ) (d : R11) (a : R11) (b : R11) : Laws.Encoding.Statement (.shl g x d a b) := by
  intro h
  simp only [wellFormed, Bool.and_eq_true, decide_eq_true_eq] at h
  cases x
  all_goals exact trip_R _ _ _ _ _ _ _ _ _ _ _ _ (by decide) (fun fa fb fi f0 => ⟨_, rfl,
    rsv_R _ _ rfl rfl (by simp [fits, fitsM, le_2047] <;> omega) rfl, rfl⟩)

theorem Laws.Encoding.shr (g : Guard) (x : IJ) (d : R11) (a : R11) (b : R11) : Laws.Encoding.Statement (.shr g x d a b) := by
  intro h
  simp only [wellFormed, Bool.and_eq_true, decide_eq_true_eq] at h
  cases x
  all_goals exact trip_R _ _ _ _ _ _ _ _ _ _ _ _ (by decide) (fun fa fb fi f0 => ⟨_, rfl,
    rsv_R _ _ rfl rfl (by simp [fits, fitsM, le_2047] <;> omega) rfl, rfl⟩)

theorem Laws.Encoding.sar (g : Guard) (x : IJ) (d : R11) (a : R11) (b : R11) : Laws.Encoding.Statement (.sar g x d a b) := by
  intro h
  simp only [wellFormed, Bool.and_eq_true, decide_eq_true_eq] at h
  cases x
  all_goals exact trip_R _ _ _ _ _ _ _ _ _ _ _ _ (by decide) (fun fa fb fi f0 => ⟨_, rfl,
    rsv_R _ _ rfl rfl (by simp [fits, fitsM, le_2047] <;> omega) rfl, rfl⟩)

theorem Laws.Encoding.rot (g : Guard) (x : IJ) (d : R11) (a : R11) (b : R11) : Laws.Encoding.Statement (.rot g x d a b) := by
  intro h
  simp only [wellFormed, Bool.and_eq_true, decide_eq_true_eq] at h
  cases x
  all_goals exact trip_R _ _ _ _ _ _ _ _ _ _ _ _ (by decide) (fun fa fb fi f0 => ⟨_, rfl,
    rsv_R _ _ rfl rfl (by simp [fits, fitsM, le_2047] <;> omega) rfl, rfl⟩)

theorem Laws.Encoding.min (g : Guard) (x : IJ) (d : R11) (a : R11) (b : R11) : Laws.Encoding.Statement (.min g x d a b) := by
  intro h
  simp only [wellFormed, Bool.and_eq_true, decide_eq_true_eq] at h
  cases x
  all_goals exact trip_R _ _ _ _ _ _ _ _ _ _ _ _ (by decide) (fun fa fb fi f0 => ⟨_, rfl,
    rsv_R _ _ rfl rfl (by simp [fits, fitsM, le_2047] <;> omega) rfl, rfl⟩)

theorem Laws.Encoding.max (g : Guard) (x : IJ) (d : R11) (a : R11) (b : R11) : Laws.Encoding.Statement (.max g x d a b) := by
  intro h
  simp only [wellFormed, Bool.and_eq_true, decide_eq_true_eq] at h
  cases x
  all_goals exact trip_R _ _ _ _ _ _ _ _ _ _ _ _ (by decide) (fun fa fb fi f0 => ⟨_, rfl,
    rsv_R _ _ rfl rfl (by simp [fits, fitsM, le_2047] <;> omega) rfl, rfl⟩)

theorem Laws.Encoding.minu (g : Guard) (x : IJ) (d : R11) (a : R11) (b : R11) : Laws.Encoding.Statement (.minu g x d a b) := by
  intro h
  simp only [wellFormed, Bool.and_eq_true, decide_eq_true_eq] at h
  cases x
  all_goals exact trip_R _ _ _ _ _ _ _ _ _ _ _ _ (by decide) (fun fa fb fi f0 => ⟨_, rfl,
    rsv_R _ _ rfl rfl (by simp [fits, fitsM, le_2047] <;> omega) rfl, rfl⟩)

theorem Laws.Encoding.maxu (g : Guard) (x : IJ) (d : R11) (a : R11) (b : R11) : Laws.Encoding.Statement (.maxu g x d a b) := by
  intro h
  simp only [wellFormed, Bool.and_eq_true, decide_eq_true_eq] at h
  cases x
  all_goals exact trip_R _ _ _ _ _ _ _ _ _ _ _ _ (by decide) (fun fa fb fi f0 => ⟨_, rfl,
    rsv_R _ _ rfl rfl (by simp [fits, fitsM, le_2047] <;> omega) rfl, rfl⟩)

theorem Laws.Encoding.clz (g : Guard) (x : IJ) (d : R11) (a : R11) : Laws.Encoding.Statement (.clz g x d a) := by
  intro h
  simp only [wellFormed, Bool.and_eq_true, decide_eq_true_eq] at h
  cases x
  all_goals exact trip_R _ _ _ _ _ _ _ _ _ _ _ _ (by decide) (fun fa fb fi f0 => ⟨_, rfl,
    rsv_R _ _ rfl rfl (by simp [fits, fitsM, le_2047] <;> omega) rfl, rfl⟩)

theorem Laws.Encoding.popc (g : Guard) (x : IJ) (d : R11) (a : R11) : Laws.Encoding.Statement (.popc g x d a) := by
  intro h
  simp only [wellFormed, Bool.and_eq_true, decide_eq_true_eq] at h
  cases x
  all_goals exact trip_R _ _ _ _ _ _ _ _ _ _ _ _ (by decide) (fun fa fb fi f0 => ⟨_, rfl,
    rsv_R _ _ rfl rfl (by simp [fits, fitsM, le_2047] <;> omega) rfl, rfl⟩)

theorem Laws.Encoding.bfx (g : Guard) (x : IJ) (d : R11) (a : R11) (pos : R11) (len : R11) : Laws.Encoding.Statement (.bfx g x d a pos len) := by
  intro h
  simp only [wellFormed, Bool.and_eq_true, decide_eq_true_eq] at h
  cases x
  all_goals exact trip_R _ _ _ _ _ _ _ _ _ _ _ _ (by decide) (fun fa fb fi f0 => ⟨_, rfl,
    rsv_R _ _ rfl rfl (by simp [fits, fitsM, le_2047] <;> omega) rfl, rfl⟩)

theorem Laws.Encoding.bfi (g : Guard) (x : IJ) (d : R11) (a : R11) (pos : R11) (len : R11) : Laws.Encoding.Statement (.bfi g x d a pos len) := by
  intro h
  simp only [wellFormed, Bool.and_eq_true, decide_eq_true_eq] at h
  cases x
  all_goals exact trip_R _ _ _ _ _ _ _ _ _ _ _ _ (by decide) (fun fa fb fi f0 => ⟨_, rfl,
    rsv_R _ _ rfl rfl (by simp [fits, fitsM, le_2047] <;> omega) rfl, rfl⟩)

theorem Laws.Encoding.li (g : Guard) (x : IJ) (d : R11) (imm : Imm) : Laws.Encoding.Statement (.li g x d imm) := by
  intro h
  simp only [wellFormed, Bool.and_eq_true, decide_eq_true_eq] at h
  cases x
  all_goals refine trip_I _ _ _ _ _ _ _ _ (by decide) (fun fa fb b c ma mb mc v => ⟨_, rfl,
    rsv_I _ _ _ rfl (esc_ok imm (by simp [h])) rfl ?_ ?_, ?_⟩)
  all_goals first
    | rfl
    | (simp [fits] <;> omega)
    | (show some (Instr.li g _ d (Fields.imm _ _)) = _; rw [imm_cases imm (by simp [h])] <;> (try simp [bit, szOf, Sz.code]))
    | simp_all

theorem Laws.Encoding.cmp (g : Guard) (x : IJ) (d : R11) (a : R11) (b : R11) (cc : R11) : Laws.Encoding.Statement (.cmp g x d a b cc) := by
  intro h
  simp only [wellFormed, Bool.and_eq_true, decide_eq_true_eq] at h
  cases x
  all_goals exact trip_R _ _ _ _ _ _ _ _ _ _ _ _ (by decide) (fun fa fb fi f0 => ⟨_, rfl,
    rsv_R _ _ rfl rfl (by simp [fits, fitsM, le_2047] <;> omega) rfl, rfl⟩)

theorem Laws.Encoding.sel (g : Guard) (x : IJ) (d : R11) (a : R11) (b : R11) (c : R11) : Laws.Encoding.Statement (.sel g x d a b c) := by
  intro h
  simp only [wellFormed, Bool.and_eq_true, decide_eq_true_eq] at h
  cases x
  all_goals exact trip_R _ _ _ _ _ _ _ _ _ _ _ _ (by decide) (fun fa fb fi f0 => ⟨_, rfl,
    rsv_R _ _ rfl rfl (by simp [fits, fitsM, le_2047] <;> omega) rfl, rfl⟩)

theorem Laws.Encoding.ldg (g : Guard) (z : Sz) (sx : Bool) (d : R11) (a : R11) (imm : Imm) : Laws.Encoding.Statement (.ldg g z sx d a imm) := by
  intro h
  simp only [wellFormed, Bool.and_eq_true, decide_eq_true_eq] at h
  cases z <;> cases sx
  all_goals refine trip_I _ _ _ _ _ _ _ _ (by decide) (fun fa fb b c ma mb mc v => ⟨_, rfl,
    rsv_I _ _ _ rfl (esc_ok imm (by simp [h])) rfl ?_ ?_, ?_⟩)
  all_goals first
    | rfl
    | (simp [fits] <;> omega)
    | (show some (Instr.ldg g _ _ d a (Fields.imm _ _)) = _; rw [imm_cases imm (by simp [h])] <;> (try simp [bit, szOf, Sz.code]))
    | simp_all

theorem Laws.Encoding.stg (g : Guard) (z : Sz) (d : R11) (a : R11) (imm : Imm) : Laws.Encoding.Statement (.stg g z d a imm) := by
  intro h
  simp only [wellFormed, Bool.and_eq_true, decide_eq_true_eq] at h
  cases z
  all_goals refine trip_I _ _ _ _ _ _ _ _ (by decide) (fun fa fb b c ma mb mc v => ⟨_, rfl,
    rsv_I _ _ _ rfl (esc_ok imm (by simp [h])) rfl ?_ ?_, ?_⟩)
  all_goals first
    | rfl
    | (simp [fits] <;> omega)
    | (show some (Instr.stg g _ d a (Fields.imm _ _)) = _; rw [imm_cases imm (by simp [h])] <;> (try simp [bit, szOf, Sz.code]))
    | simp_all

theorem Laws.Encoding.ldga (g : Guard) (z : Sz) (sc : Scope) (d : R11) (a : R11) (b : R11) : Laws.Encoding.Statement (.ldga g z sc d a b) := by
  intro h
  simp only [wellFormed, Bool.and_eq_true, decide_eq_true_eq] at h
  cases z
  all_goals exact trip_R _ _ _ _ _ _ _ _ _ _ _ _ (by decide) (fun fa fb fi f0 => ⟨_, rfl,
    rsv_R _ _ rfl (vars4 _) (by simp [fits, fitsM, le_2047] <;> omega) rfl, Eq.trans (b := some (Instr.ldga g _ (Scope.ofCode sc.code) d a b)) rfl (by simp only [scope_back] <;> rfl)⟩)

theorem Laws.Encoding.stgl (g : Guard) (z : Sz) (sc : Scope) (d : R11) (a : R11) (b : R11) : Laws.Encoding.Statement (.stgl g z sc d a b) := by
  intro h
  simp only [wellFormed, Bool.and_eq_true, decide_eq_true_eq] at h
  cases z
  all_goals exact trip_R _ _ _ _ _ _ _ _ _ _ _ _ (by decide) (fun fa fb fi f0 => ⟨_, rfl,
    rsv_R _ _ rfl (vars4 _) (by simp [fits, fitsM, le_2047] <;> omega) rfl, Eq.trans (b := some (Instr.stgl g _ (Scope.ofCode sc.code) d a b)) rfl (by simp only [scope_back] <;> rfl)⟩)

theorem Laws.Encoding.pref (g : Guard) (wr : Bool) (a : R11) (imm : Imm) : Laws.Encoding.Statement (.pref g wr a imm) := by
  intro h
  simp only [wellFormed, Bool.and_eq_true, decide_eq_true_eq] at h
  cases wr
  all_goals refine trip_I _ _ _ _ _ _ _ _ (by decide) (fun fa fb b c ma mb mc v => ⟨_, rfl,
    rsv_I _ _ _ rfl (esc_ok imm (by simp [h])) rfl ?_ ?_, ?_⟩)
  all_goals first
    | rfl
    | (simp [fits] <;> omega)
    | (show some (Instr.pref g _ a (Fields.imm _ _)) = _; rw [imm_cases imm (by simp [h])] <;> (try simp [bit, szOf, Sz.code]))
    | simp_all

theorem Laws.Encoding.ldp (g : Guard) (z : Sz) (sx : Bool) (d : R11) (a : R11) (imm : Imm) : Laws.Encoding.Statement (.ldp g z sx d a imm) := by
  intro h
  simp only [wellFormed, Bool.and_eq_true, decide_eq_true_eq] at h
  cases z <;> cases sx
  all_goals refine trip_I _ _ _ _ _ _ _ _ (by decide) (fun fa fb b c ma mb mc v => ⟨_, rfl,
    rsv_I _ _ _ rfl (esc_ok imm (by simp [h])) rfl ?_ ?_, ?_⟩)
  all_goals first
    | rfl
    | (simp [fits] <;> omega)
    | (show some (Instr.ldp g _ _ d a (Fields.imm _ _)) = _; rw [imm_cases imm (by simp [h])] <;> (try simp [bit, szOf, Sz.code]))
    | simp_all

theorem Laws.Encoding.stp (g : Guard) (z : Sz) (d : R11) (a : R11) (imm : Imm) : Laws.Encoding.Statement (.stp g z d a imm) := by
  intro h
  simp only [wellFormed, Bool.and_eq_true, decide_eq_true_eq] at h
  cases z
  all_goals refine trip_I _ _ _ _ _ _ _ _ (by decide) (fun fa fb b c ma mb mc v => ⟨_, rfl,
    rsv_I _ _ _ rfl (esc_ok imm (by simp [h])) rfl ?_ ?_, ?_⟩)
  all_goals first
    | rfl
    | (simp [fits] <;> omega)
    | (show some (Instr.stp g _ d a (Fields.imm _ _)) = _; rw [imm_cases imm (by simp [h])] <;> (try simp [bit, szOf, Sz.code]))
    | simp_all

theorem Laws.Encoding.ldpa (g : Guard) (z : Sz) (sc : Scope) (d : R11) (a : R11) (b : R11) : Laws.Encoding.Statement (.ldpa g z sc d a b) := by
  intro h
  simp only [wellFormed, Bool.and_eq_true, decide_eq_true_eq] at h
  cases z
  all_goals exact trip_R _ _ _ _ _ _ _ _ _ _ _ _ (by decide) (fun fa fb fi f0 => ⟨_, rfl,
    rsv_R _ _ rfl (vars4 _) (by simp [fits, fitsM, le_2047] <;> omega) rfl, Eq.trans (b := some (Instr.ldpa g _ (Scope.ofCode sc.code) d a b)) rfl (by simp only [scope_back] <;> rfl)⟩)

theorem Laws.Encoding.stpl (g : Guard) (z : Sz) (sc : Scope) (d : R11) (a : R11) (b : R11) : Laws.Encoding.Statement (.stpl g z sc d a b) := by
  intro h
  simp only [wellFormed, Bool.and_eq_true, decide_eq_true_eq] at h
  cases z
  all_goals exact trip_R _ _ _ _ _ _ _ _ _ _ _ _ (by decide) (fun fa fb fi f0 => ⟨_, rfl,
    rsv_R _ _ rfl (vars4 _) (by simp [fits, fitsM, le_2047] <;> omega) rfl, Eq.trans (b := some (Instr.stpl g _ (Scope.ofCode sc.code) d a b)) rfl (by simp only [scope_back] <;> rfl)⟩)

theorem Laws.Encoding.sqld (g : Guard) (d : R11) (a : R11) (imm : Imm) : Laws.Encoding.Statement (.sqld g d a imm) := by
  intro h
  simp only [wellFormed, Bool.and_eq_true, decide_eq_true_eq] at h
  refine trip_I _ _ _ _ _ _ _ _ (by decide) (fun fa fb b c ma mb mc v => ⟨_, rfl,
    rsv_I _ _ _ rfl (esc_ok imm (by simp [h])) rfl ?_ ?_, ?_⟩)
  all_goals first
    | rfl
    | (simp [fits] <;> omega)
    | (show some (Instr.sqld g d a (Fields.imm _ _)) = _; rw [imm_cases imm (by simp [h])] <;> (try simp [bit, szOf, Sz.code]))
    | simp_all

theorem Laws.Encoding.agadd (g : Guard) (w : AW) (o : Ord) (d : R11) (a : R11) (b : R11) : Laws.Encoding.Statement (.agadd g w o d a b) := by
  intro h
  simp only [wellFormed, Bool.and_eq_true, decide_eq_true_eq] at h
  cases w
  all_goals exact trip_R _ _ _ _ _ _ _ _ _ _ _ _ (by decide) (fun fa fb fi f0 => ⟨_, rfl,
    rsv_R _ _ rfl (vars4 _) ⟨trivial, ⟨rfl, trivial⟩, ⟨rfl, trivial⟩, rfl, rfl⟩ rfl, Eq.trans (b := some (Instr.agadd g _ (Ord.ofCode o.code) d a b)) rfl (by simp only [ord_back] <;> rfl)⟩)

theorem Laws.Encoding.agincw (g : Guard) (w : AW) (o : Ord) (d : R11) (a : R11) (b : R11) : Laws.Encoding.Statement (.agincw g w o d a b) := by
  intro h
  simp only [wellFormed, Bool.and_eq_true, decide_eq_true_eq] at h
  cases w
  all_goals exact trip_R _ _ _ _ _ _ _ _ _ _ _ _ (by decide) (fun fa fb fi f0 => ⟨_, rfl,
    rsv_R _ _ rfl (vars4 _) ⟨trivial, ⟨rfl, trivial⟩, ⟨rfl, trivial⟩, rfl, rfl⟩ rfl, Eq.trans (b := some (Instr.agincw g _ (Ord.ofCode o.code) d a b)) rfl (by simp only [ord_back] <;> rfl)⟩)

theorem Laws.Encoding.agaddb (g : Guard) (w : AW) (o : Ord) (d : R11) (a : R11) (b : R11) (c : R11) : Laws.Encoding.Statement (.agaddb g w o d a b c) := by
  intro h
  simp only [wellFormed, Bool.and_eq_true, decide_eq_true_eq, addbOk, beq_iff_eq] at h
  cases w
  all_goals exact trip_R _ _ _ _ _ _ _ _ _ _ _ _ (by decide) (fun fa fb fi f0 => ⟨_, rfl,
    rsv_R _ _ rfl (vars4 _) ⟨h.1.1.1, ⟨rfl, trivial⟩, ⟨rfl, trivial⟩, rfl, trivial⟩ rfl, Eq.trans (b := some (Instr.agaddb g _ (Ord.ofCode o.code) d a b c)) rfl (by simp only [ord_back] <;> rfl)⟩)

theorem Laws.Encoding.agcas (g : Guard) (w : AW) (o : Ord) (d : R11) (a : R11) (b : R11) (c : R11) : Laws.Encoding.Statement (.agcas g w o d a b c) := by
  intro h
  simp only [wellFormed, Bool.and_eq_true, decide_eq_true_eq] at h
  cases w
  all_goals exact trip_R _ _ _ _ _ _ _ _ _ _ _ _ (by decide) (fun fa fb fi f0 => ⟨_, rfl,
    rsv_R _ _ rfl (vars4 _) ⟨trivial, ⟨rfl, trivial⟩, ⟨rfl, trivial⟩, rfl, trivial⟩ rfl, Eq.trans (b := some (Instr.agcas g _ (Ord.ofCode o.code) d a b c)) rfl (by simp only [ord_back] <;> rfl)⟩)

theorem Laws.Encoding.agxch (g : Guard) (w : AW) (o : Ord) (d : R11) (a : R11) (b : R11) : Laws.Encoding.Statement (.agxch g w o d a b) := by
  intro h
  simp only [wellFormed, Bool.and_eq_true, decide_eq_true_eq] at h
  cases w
  all_goals exact trip_R _ _ _ _ _ _ _ _ _ _ _ _ (by decide) (fun fa fb fi f0 => ⟨_, rfl,
    rsv_R _ _ rfl (vars4 _) ⟨trivial, ⟨rfl, trivial⟩, ⟨rfl, trivial⟩, rfl, rfl⟩ rfl, Eq.trans (b := some (Instr.agxch g _ (Ord.ofCode o.code) d a b)) rfl (by simp only [ord_back] <;> rfl)⟩)

theorem Laws.Encoding.agmin (g : Guard) (w : AW) (o : Ord) (d : R11) (a : R11) (b : R11) : Laws.Encoding.Statement (.agmin g w o d a b) := by
  intro h
  simp only [wellFormed, Bool.and_eq_true, decide_eq_true_eq] at h
  cases w
  all_goals exact trip_R _ _ _ _ _ _ _ _ _ _ _ _ (by decide) (fun fa fb fi f0 => ⟨_, rfl,
    rsv_R _ _ rfl (vars4 _) ⟨trivial, ⟨rfl, trivial⟩, ⟨rfl, trivial⟩, rfl, rfl⟩ rfl, Eq.trans (b := some (Instr.agmin g _ (Ord.ofCode o.code) d a b)) rfl (by simp only [ord_back] <;> rfl)⟩)

theorem Laws.Encoding.agmax (g : Guard) (w : AW) (o : Ord) (d : R11) (a : R11) (b : R11) : Laws.Encoding.Statement (.agmax g w o d a b) := by
  intro h
  simp only [wellFormed, Bool.and_eq_true, decide_eq_true_eq] at h
  cases w
  all_goals exact trip_R _ _ _ _ _ _ _ _ _ _ _ _ (by decide) (fun fa fb fi f0 => ⟨_, rfl,
    rsv_R _ _ rfl (vars4 _) ⟨trivial, ⟨rfl, trivial⟩, ⟨rfl, trivial⟩, rfl, rfl⟩ rfl, Eq.trans (b := some (Instr.agmax g _ (Ord.ofCode o.code) d a b)) rfl (by simp only [ord_back] <;> rfl)⟩)

theorem Laws.Encoding.agand (g : Guard) (w : AW) (o : Ord) (d : R11) (a : R11) (b : R11) : Laws.Encoding.Statement (.agand g w o d a b) := by
  intro h
  simp only [wellFormed, Bool.and_eq_true, decide_eq_true_eq] at h
  cases w
  all_goals exact trip_R _ _ _ _ _ _ _ _ _ _ _ _ (by decide) (fun fa fb fi f0 => ⟨_, rfl,
    rsv_R _ _ rfl (vars4 _) ⟨trivial, ⟨rfl, trivial⟩, ⟨rfl, trivial⟩, rfl, rfl⟩ rfl, Eq.trans (b := some (Instr.agand g _ (Ord.ofCode o.code) d a b)) rfl (by simp only [ord_back] <;> rfl)⟩)

theorem Laws.Encoding.agor (g : Guard) (w : AW) (o : Ord) (d : R11) (a : R11) (b : R11) : Laws.Encoding.Statement (.agor g w o d a b) := by
  intro h
  simp only [wellFormed, Bool.and_eq_true, decide_eq_true_eq] at h
  cases w
  all_goals exact trip_R _ _ _ _ _ _ _ _ _ _ _ _ (by decide) (fun fa fb fi f0 => ⟨_, rfl,
    rsv_R _ _ rfl (vars4 _) ⟨trivial, ⟨rfl, trivial⟩, ⟨rfl, trivial⟩, rfl, rfl⟩ rfl, Eq.trans (b := some (Instr.agor g _ (Ord.ofCode o.code) d a b)) rfl (by simp only [ord_back] <;> rfl)⟩)

theorem Laws.Encoding.agxor (g : Guard) (w : AW) (o : Ord) (d : R11) (a : R11) (b : R11) : Laws.Encoding.Statement (.agxor g w o d a b) := by
  intro h
  simp only [wellFormed, Bool.and_eq_true, decide_eq_true_eq] at h
  cases w
  all_goals exact trip_R _ _ _ _ _ _ _ _ _ _ _ _ (by decide) (fun fa fb fi f0 => ⟨_, rfl,
    rsv_R _ _ rfl (vars4 _) ⟨trivial, ⟨rfl, trivial⟩, ⟨rfl, trivial⟩, rfl, rfl⟩ rfl, Eq.trans (b := some (Instr.agxor g _ (Ord.ofCode o.code) d a b)) rfl (by simp only [ord_back] <;> rfl)⟩)

theorem Laws.Encoding.agfadd (g : Guard) (w : FW) (o : Ord) (d : R11) (a : R11) (b : R11) : Laws.Encoding.Statement (.agfadd g w o d a b) := by
  intro h
  simp only [wellFormed, Bool.and_eq_true, decide_eq_true_eq] at h
  cases w
  all_goals exact trip_R _ _ _ _ _ _ _ _ _ _ _ _ (by decide) (fun fa fb fi f0 => ⟨_, rfl,
    rsv_R _ _ rfl (vars4 _) ⟨trivial, ⟨rfl, trivial⟩, ⟨rfl, trivial⟩, rfl, rfl⟩ rfl, Eq.trans (b := some (Instr.agfadd g _ (Ord.ofCode o.code) d a b)) rfl (by simp only [ord_back] <;> rfl)⟩)

theorem Laws.Encoding.apadd (g : Guard) (w : AW) (o : Ord) (d : R11) (a : R11) (b : R11) : Laws.Encoding.Statement (.apadd g w o d a b) := by
  intro h
  simp only [wellFormed, Bool.and_eq_true, decide_eq_true_eq] at h
  cases w
  all_goals exact trip_R _ _ _ _ _ _ _ _ _ _ _ _ (by decide) (fun fa fb fi f0 => ⟨_, rfl,
    rsv_R _ _ rfl (vars4 _) ⟨trivial, ⟨rfl, trivial⟩, ⟨rfl, trivial⟩, rfl, rfl⟩ rfl, Eq.trans (b := some (Instr.apadd g _ (Ord.ofCode o.code) d a b)) rfl (by simp only [ord_back] <;> rfl)⟩)

theorem Laws.Encoding.apincw (g : Guard) (w : AW) (o : Ord) (d : R11) (a : R11) (b : R11) : Laws.Encoding.Statement (.apincw g w o d a b) := by
  intro h
  simp only [wellFormed, Bool.and_eq_true, decide_eq_true_eq] at h
  cases w
  all_goals exact trip_R _ _ _ _ _ _ _ _ _ _ _ _ (by decide) (fun fa fb fi f0 => ⟨_, rfl,
    rsv_R _ _ rfl (vars4 _) ⟨trivial, ⟨rfl, trivial⟩, ⟨rfl, trivial⟩, rfl, rfl⟩ rfl, Eq.trans (b := some (Instr.apincw g _ (Ord.ofCode o.code) d a b)) rfl (by simp only [ord_back] <;> rfl)⟩)

theorem Laws.Encoding.apaddb (g : Guard) (w : AW) (o : Ord) (d : R11) (a : R11) (b : R11) (c : R11) : Laws.Encoding.Statement (.apaddb g w o d a b c) := by
  intro h
  simp only [wellFormed, Bool.and_eq_true, decide_eq_true_eq, addbOk, beq_iff_eq] at h
  cases w
  all_goals exact trip_R _ _ _ _ _ _ _ _ _ _ _ _ (by decide) (fun fa fb fi f0 => ⟨_, rfl,
    rsv_R _ _ rfl (vars4 _) ⟨h.1.1.1, ⟨rfl, trivial⟩, ⟨rfl, trivial⟩, rfl, trivial⟩ rfl, Eq.trans (b := some (Instr.apaddb g _ (Ord.ofCode o.code) d a b c)) rfl (by simp only [ord_back] <;> rfl)⟩)

theorem Laws.Encoding.apcas (g : Guard) (w : AW) (o : Ord) (d : R11) (a : R11) (b : R11) (c : R11) : Laws.Encoding.Statement (.apcas g w o d a b c) := by
  intro h
  simp only [wellFormed, Bool.and_eq_true, decide_eq_true_eq] at h
  cases w
  all_goals exact trip_R _ _ _ _ _ _ _ _ _ _ _ _ (by decide) (fun fa fb fi f0 => ⟨_, rfl,
    rsv_R _ _ rfl (vars4 _) ⟨trivial, ⟨rfl, trivial⟩, ⟨rfl, trivial⟩, rfl, trivial⟩ rfl, Eq.trans (b := some (Instr.apcas g _ (Ord.ofCode o.code) d a b c)) rfl (by simp only [ord_back] <;> rfl)⟩)

theorem Laws.Encoding.apxch (g : Guard) (w : AW) (o : Ord) (d : R11) (a : R11) (b : R11) : Laws.Encoding.Statement (.apxch g w o d a b) := by
  intro h
  simp only [wellFormed, Bool.and_eq_true, decide_eq_true_eq] at h
  cases w
  all_goals exact trip_R _ _ _ _ _ _ _ _ _ _ _ _ (by decide) (fun fa fb fi f0 => ⟨_, rfl,
    rsv_R _ _ rfl (vars4 _) ⟨trivial, ⟨rfl, trivial⟩, ⟨rfl, trivial⟩, rfl, rfl⟩ rfl, Eq.trans (b := some (Instr.apxch g _ (Ord.ofCode o.code) d a b)) rfl (by simp only [ord_back] <;> rfl)⟩)

theorem Laws.Encoding.apmin (g : Guard) (w : AW) (o : Ord) (d : R11) (a : R11) (b : R11) : Laws.Encoding.Statement (.apmin g w o d a b) := by
  intro h
  simp only [wellFormed, Bool.and_eq_true, decide_eq_true_eq] at h
  cases w
  all_goals exact trip_R _ _ _ _ _ _ _ _ _ _ _ _ (by decide) (fun fa fb fi f0 => ⟨_, rfl,
    rsv_R _ _ rfl (vars4 _) ⟨trivial, ⟨rfl, trivial⟩, ⟨rfl, trivial⟩, rfl, rfl⟩ rfl, Eq.trans (b := some (Instr.apmin g _ (Ord.ofCode o.code) d a b)) rfl (by simp only [ord_back] <;> rfl)⟩)

theorem Laws.Encoding.apmax (g : Guard) (w : AW) (o : Ord) (d : R11) (a : R11) (b : R11) : Laws.Encoding.Statement (.apmax g w o d a b) := by
  intro h
  simp only [wellFormed, Bool.and_eq_true, decide_eq_true_eq] at h
  cases w
  all_goals exact trip_R _ _ _ _ _ _ _ _ _ _ _ _ (by decide) (fun fa fb fi f0 => ⟨_, rfl,
    rsv_R _ _ rfl (vars4 _) ⟨trivial, ⟨rfl, trivial⟩, ⟨rfl, trivial⟩, rfl, rfl⟩ rfl, Eq.trans (b := some (Instr.apmax g _ (Ord.ofCode o.code) d a b)) rfl (by simp only [ord_back] <;> rfl)⟩)

theorem Laws.Encoding.apfadd (g : Guard) (w : FW) (o : Ord) (d : R11) (a : R11) (b : R11) : Laws.Encoding.Statement (.apfadd g w o d a b) := by
  intro h
  simp only [wellFormed, Bool.and_eq_true, decide_eq_true_eq] at h
  cases w
  all_goals exact trip_R _ _ _ _ _ _ _ _ _ _ _ _ (by decide) (fun fa fb fi f0 => ⟨_, rfl,
    rsv_R _ _ rfl (vars4 _) ⟨trivial, ⟨rfl, trivial⟩, ⟨rfl, trivial⟩, rfl, rfl⟩ rfl, Eq.trans (b := some (Instr.apfadd g _ (Ord.ofCode o.code) d a b)) rfl (by simp only [ord_back] <;> rfl)⟩)

theorem Laws.Encoding.fadd (g : Guard) (t : FT) (rm : RM) (d : R11) (a : R11) (b : R11) : Laws.Encoding.Statement (.fadd g t rm d a b) := by
  intro h
  simp only [wellFormed, Bool.and_eq_true, decide_eq_true_eq] at h
  cases t
  all_goals exact trip_R _ _ _ _ _ _ _ _ _ _ _ _ (by decide) (fun fa fb fi f0 => ⟨_, rfl,
    rsv_R _ _ rfl (vars4 _) (by simp [fits, fitsM, le_2047] <;> omega) rfl, Eq.trans (b := some (Instr.fadd g _ (RM.ofCode rm.code) d a b)) rfl (by simp only [rm_back] <;> rfl)⟩)

theorem Laws.Encoding.fsub (g : Guard) (t : FT) (rm : RM) (d : R11) (a : R11) (b : R11) : Laws.Encoding.Statement (.fsub g t rm d a b) := by
  intro h
  simp only [wellFormed, Bool.and_eq_true, decide_eq_true_eq] at h
  cases t
  all_goals exact trip_R _ _ _ _ _ _ _ _ _ _ _ _ (by decide) (fun fa fb fi f0 => ⟨_, rfl,
    rsv_R _ _ rfl (vars4 _) (by simp [fits, fitsM, le_2047] <;> omega) rfl, Eq.trans (b := some (Instr.fsub g _ (RM.ofCode rm.code) d a b)) rfl (by simp only [rm_back] <;> rfl)⟩)

theorem Laws.Encoding.fmul (g : Guard) (t : FT) (rm : RM) (d : R11) (a : R11) (b : R11) : Laws.Encoding.Statement (.fmul g t rm d a b) := by
  intro h
  simp only [wellFormed, Bool.and_eq_true, decide_eq_true_eq] at h
  cases t
  all_goals exact trip_R _ _ _ _ _ _ _ _ _ _ _ _ (by decide) (fun fa fb fi f0 => ⟨_, rfl,
    rsv_R _ _ rfl (vars4 _) (by simp [fits, fitsM, le_2047] <;> omega) rfl, Eq.trans (b := some (Instr.fmul g _ (RM.ofCode rm.code) d a b)) rfl (by simp only [rm_back] <;> rfl)⟩)

theorem Laws.Encoding.ffma (g : Guard) (t : FT) (rm : RM) (d : R11) (a : R11) (b : R11) (c : R11) : Laws.Encoding.Statement (.ffma g t rm d a b c) := by
  intro h
  simp only [wellFormed, Bool.and_eq_true, decide_eq_true_eq] at h
  cases t
  all_goals exact trip_R _ _ _ _ _ _ _ _ _ _ _ _ (by decide) (fun fa fb fi f0 => ⟨_, rfl,
    rsv_R _ _ rfl (vars4 _) (by simp [fits, fitsM, le_2047] <;> omega) rfl, Eq.trans (b := some (Instr.ffma g _ (RM.ofCode rm.code) d a b c)) rfl (by simp only [rm_back] <;> rfl)⟩)

theorem Laws.Encoding.fdiv (g : Guard) (t : FT) (rm : RM) (d : R11) (a : R11) (b : R11) : Laws.Encoding.Statement (.fdiv g t rm d a b) := by
  intro h
  simp only [wellFormed, Bool.and_eq_true, decide_eq_true_eq] at h
  cases t
  all_goals exact trip_R _ _ _ _ _ _ _ _ _ _ _ _ (by decide) (fun fa fb fi f0 => ⟨_, rfl,
    rsv_R _ _ rfl (vars4 _) (by simp [fits, fitsM, le_2047] <;> omega) rfl, Eq.trans (b := some (Instr.fdiv g _ (RM.ofCode rm.code) d a b)) rfl (by simp only [rm_back] <;> rfl)⟩)

theorem Laws.Encoding.fsqrt (g : Guard) (t : FT) (rm : RM) (d : R11) (a : R11) : Laws.Encoding.Statement (.fsqrt g t rm d a) := by
  intro h
  simp only [wellFormed, Bool.and_eq_true, decide_eq_true_eq] at h
  cases t
  all_goals exact trip_R _ _ _ _ _ _ _ _ _ _ _ _ (by decide) (fun fa fb fi f0 => ⟨_, rfl,
    rsv_R _ _ rfl (vars4 _) (by simp [fits, fitsM, le_2047] <;> omega) rfl, Eq.trans (b := some (Instr.fsqrt g _ (RM.ofCode rm.code) d a)) rfl (by simp only [rm_back] <;> rfl)⟩)

theorem Laws.Encoding.frsq (g : Guard) (t : FT) (rm : RM) (d : R11) (a : R11) : Laws.Encoding.Statement (.frsq g t rm d a) := by
  intro h
  simp only [wellFormed, Bool.and_eq_true, decide_eq_true_eq] at h
  cases t
  all_goals exact trip_R _ _ _ _ _ _ _ _ _ _ _ _ (by decide) (fun fa fb fi f0 => ⟨_, rfl,
    rsv_R _ _ rfl (vars4 _) (by simp [fits, fitsM, le_2047] <;> omega) rfl, Eq.trans (b := some (Instr.frsq g _ (RM.ofCode rm.code) d a)) rfl (by simp only [rm_back] <;> rfl)⟩)

theorem Laws.Encoding.fmin (g : Guard) (t : FT) (d : R11) (a : R11) (b : R11) : Laws.Encoding.Statement (.fmin g t d a b) := by
  intro h
  simp only [wellFormed, Bool.and_eq_true, decide_eq_true_eq] at h
  cases t
  all_goals exact trip_R _ _ _ _ _ _ _ _ _ _ _ _ (by decide) (fun fa fb fi f0 => ⟨_, rfl,
    rsv_R _ _ rfl rfl (by simp [fits, fitsM, le_2047] <;> omega) rfl, rfl⟩)

theorem Laws.Encoding.fmax (g : Guard) (t : FT) (d : R11) (a : R11) (b : R11) : Laws.Encoding.Statement (.fmax g t d a b) := by
  intro h
  simp only [wellFormed, Bool.and_eq_true, decide_eq_true_eq] at h
  cases t
  all_goals exact trip_R _ _ _ _ _ _ _ _ _ _ _ _ (by decide) (fun fa fb fi f0 => ⟨_, rfl,
    rsv_R _ _ rfl rfl (by simp [fits, fitsM, le_2047] <;> omega) rfl, rfl⟩)

theorem Laws.Encoding.fabs (g : Guard) (t : FT) (d : R11) (a : R11) : Laws.Encoding.Statement (.fabs g t d a) := by
  intro h
  simp only [wellFormed, Bool.and_eq_true, decide_eq_true_eq] at h
  cases t
  all_goals exact trip_R _ _ _ _ _ _ _ _ _ _ _ _ (by decide) (fun fa fb fi f0 => ⟨_, rfl,
    rsv_R _ _ rfl rfl (by simp [fits, fitsM, le_2047] <;> omega) rfl, rfl⟩)

theorem Laws.Encoding.fneg (g : Guard) (t : FT) (d : R11) (a : R11) : Laws.Encoding.Statement (.fneg g t d a) := by
  intro h
  simp only [wellFormed, Bool.and_eq_true, decide_eq_true_eq] at h
  cases t
  all_goals exact trip_R _ _ _ _ _ _ _ _ _ _ _ _ (by decide) (fun fa fb fi f0 => ⟨_, rfl,
    rsv_R _ _ rfl rfl (by simp [fits, fitsM, le_2047] <;> omega) rfl, rfl⟩)

theorem Laws.Encoding.fcmp (g : Guard) (t : FT) (d : R11) (a : R11) (b : R11) (cc : R11) : Laws.Encoding.Statement (.fcmp g t d a b cc) := by
  intro h
  simp only [wellFormed, Bool.and_eq_true, decide_eq_true_eq] at h
  cases t
  all_goals exact trip_R _ _ _ _ _ _ _ _ _ _ _ _ (by decide) (fun fa fb fi f0 => ⟨_, rfl,
    rsv_R _ _ rfl rfl (by simp [fits, fitsM, le_2047] <;> omega) rfl, rfl⟩)

theorem Laws.Encoding.fclass (g : Guard) (t : FT) (d : R11) (a : R11) (mask : R11) : Laws.Encoding.Statement (.fclass g t d a mask) := by
  intro h
  simp only [wellFormed, Bool.and_eq_true, decide_eq_true_eq] at h
  cases t
  all_goals exact trip_R _ _ _ _ _ _ _ _ _ _ _ _ (by decide) (fun fa fb fi f0 => ⟨_, rfl,
    rsv_R _ _ rfl rfl (by simp [fits, fitsM, le_2047] <;> omega) rfl, rfl⟩)

theorem Laws.Encoding.fcvt (g : Guard) (rm : RM) (d a b c : R11) : Laws.Encoding.Statement (.fcvt g rm d a b c) := by
  intro h
  simp only [wellFormed, Bool.and_eq_true, decide_eq_true_eq] at h
  obtain ⟨-, h⟩ := h
  have e : fcvtBad b c = 0 := by
    simp only [fcvtOk, Bool.and_eq_true, Bool.or_eq_true, decide_eq_true_eq, beq_iff_eq, Bool.not_eq_true', bne_iff_ne, ne_eq] at h
    obtain ⟨⟨⟨⟨⟨⟨h1, h2⟩, h3⟩, h4⟩, h5⟩, h6⟩, h7⟩ := h
    have h8 : ¬ 256 ≤ c.toNat := by omega
    rcases h7 with h7 | ⟨h7, h9⟩ <;> simp [fcvtBad, h2, h3, h4, h5, h6, h7, h8, *]
  refine trip_R _ _ _ _ _ _ _ _ _ _ _ _ (by decide) (fun fa fb fi f0 => ⟨_, rfl, rsv_R _ _ rfl (vars4 _) (by simp [fits, fitsM, le_2047]) e,
    congrArg (fun x => some (Instr.fcvt g x d a b c)) (rm_back rm)⟩)

theorem Laws.Encoding.fsel (g : Guard) (d : R11) (a : R11) (b : R11) (c : R11) : Laws.Encoding.Statement (.fsel g d a b c) := by
  intro h
  simp only [wellFormed, Bool.and_eq_true, decide_eq_true_eq] at h
  exact trip_R _ _ _ _ _ _ _ _ _ _ _ _ (by decide) (fun fa fb fi f0 => ⟨_, rfl,
    rsv_R _ _ rfl rfl (by simp [fits, fitsM, le_2047] <;> omega) rfl, rfl⟩)

theorem Laws.Encoding.fli (g : Guard) (d : R11) (imm : Imm) : Laws.Encoding.Statement (.fli g d imm) := by
  intro h
  simp only [wellFormed, Bool.and_eq_true, decide_eq_true_eq] at h
  refine trip_I _ _ _ _ _ _ _ _ (by decide) (fun fa fb b c ma mb mc v => ⟨_, rfl,
    rsv_I _ _ _ rfl (esc_ok imm (by simp [h])) rfl ?_ ?_, ?_⟩)
  all_goals first
    | rfl
    | (simp [fits] <;> omega)
    | (show some (Instr.fli g d (Fields.imm _ _)) = _; rw [imm_cases imm (by simp [h])] <;> (try simp [bit, szOf, Sz.code]))
    | simp_all

theorem Laws.Encoding.fliHi (g : Guard) (d : R11) (imm : Imm) : Laws.Encoding.Statement (.fliHi g d imm) := by
  intro h
  simp only [wellFormed, Bool.and_eq_true, decide_eq_true_eq] at h
  refine trip_I _ _ _ _ _ _ _ _ (by decide) (fun fa fb b c ma mb mc v => ⟨_, rfl,
    rsv_I _ _ _ rfl (esc_ok imm (by simp [h])) rfl ?_ ?_, ?_⟩)
  all_goals first
    | rfl
    | (simp [fits] <;> omega)
    | (show some (Instr.fliHi g d (Fields.imm _ _)) = _; rw [imm_cases imm (by simp [h])] <;> (try simp [bit, szOf, Sz.code]))
    | simp_all

theorem Laws.Encoding.vadd (g : Guard) (s : VW) (t : FT) (rm : RM) (d : R11) (a : VSrc) (b : VSrc) : Laws.Encoding.Statement (.vadd g s t rm d a b) := by
  intro h
  simp only [wellFormed, Bool.and_eq_true, decide_eq_true_eq] at h
  cases s <;> cases t
  all_goals exact trip_R _ _ _ _ _ _ _ _ _ _ _ _ (by decide) (fun fa fb fi f0 => ⟨_, rfl,
    rsv_R _ _ rfl (vars4 _) (by simp [fits, fitsM, le_2047] <;> omega) rfl, Eq.trans (b := some (Instr.vadd g _ _ (RM.ofCode rm.code) d (VSrc.of a.field a.mode) (VSrc.of b.field b.mode))) rfl (by simp only [rm_back, vsrc_back] <;> rfl)⟩)

theorem Laws.Encoding.vsub (g : Guard) (s : VW) (t : FT) (rm : RM) (d : R11) (a : VSrc) (b : VSrc) : Laws.Encoding.Statement (.vsub g s t rm d a b) := by
  intro h
  simp only [wellFormed, Bool.and_eq_true, decide_eq_true_eq] at h
  cases s <;> cases t
  all_goals exact trip_R _ _ _ _ _ _ _ _ _ _ _ _ (by decide) (fun fa fb fi f0 => ⟨_, rfl,
    rsv_R _ _ rfl (vars4 _) (by simp [fits, fitsM, le_2047] <;> omega) rfl, Eq.trans (b := some (Instr.vsub g _ _ (RM.ofCode rm.code) d (VSrc.of a.field a.mode) (VSrc.of b.field b.mode))) rfl (by simp only [rm_back, vsrc_back] <;> rfl)⟩)

theorem Laws.Encoding.vmul (g : Guard) (s : VW) (t : FT) (rm : RM) (d : R11) (a : VSrc) (b : VSrc) : Laws.Encoding.Statement (.vmul g s t rm d a b) := by
  intro h
  simp only [wellFormed, Bool.and_eq_true, decide_eq_true_eq] at h
  cases s <;> cases t
  all_goals exact trip_R _ _ _ _ _ _ _ _ _ _ _ _ (by decide) (fun fa fb fi f0 => ⟨_, rfl,
    rsv_R _ _ rfl (vars4 _) (by simp [fits, fitsM, le_2047] <;> omega) rfl, Eq.trans (b := some (Instr.vmul g _ _ (RM.ofCode rm.code) d (VSrc.of a.field a.mode) (VSrc.of b.field b.mode))) rfl (by simp only [rm_back, vsrc_back] <;> rfl)⟩)

theorem Laws.Encoding.vfma (g : Guard) (s : VW) (t : FT) (rm : RM) (d : R11) (a : VSrc) (b : VSrc) (c : VSrc) : Laws.Encoding.Statement (.vfma g s t rm d a b c) := by
  intro h
  simp only [wellFormed, Bool.and_eq_true, decide_eq_true_eq] at h
  cases s <;> cases t
  all_goals exact trip_R _ _ _ _ _ _ _ _ _ _ _ _ (by decide) (fun fa fb fi f0 => ⟨_, rfl,
    rsv_R _ _ rfl (vars4 _) (by simp [fits, fitsM, le_2047] <;> omega) rfl, Eq.trans (b := some (Instr.vfma g _ _ (RM.ofCode rm.code) d (VSrc.of a.field a.mode) (VSrc.of b.field b.mode) (VSrc.of c.field c.mode))) rfl (by simp only [rm_back, vsrc_back] <;> rfl)⟩)

theorem Laws.Encoding.vfms (g : Guard) (s : VW) (t : FT) (rm : RM) (d : R11) (a : VSrc) (b : VSrc) (c : VSrc) : Laws.Encoding.Statement (.vfms g s t rm d a b c) := by
  intro h
  simp only [wellFormed, Bool.and_eq_true, decide_eq_true_eq] at h
  cases s <;> cases t
  all_goals exact trip_R _ _ _ _ _ _ _ _ _ _ _ _ (by decide) (fun fa fb fi f0 => ⟨_, rfl,
    rsv_R _ _ rfl (vars4 _) (by simp [fits, fitsM, le_2047] <;> omega) rfl, Eq.trans (b := some (Instr.vfms g _ _ (RM.ofCode rm.code) d (VSrc.of a.field a.mode) (VSrc.of b.field b.mode) (VSrc.of c.field c.mode))) rfl (by simp only [rm_back, vsrc_back] <;> rfl)⟩)

theorem Laws.Encoding.vmulZg (g : Guard) (s : VW) (t : FT) (rm : RM) (d : R11) (a : VSrc) (b : VSrc) : Laws.Encoding.Statement (.vmulZg g s t rm d a b) := by
  intro h
  simp only [wellFormed, Bool.and_eq_true, decide_eq_true_eq] at h
  cases s <;> cases t
  all_goals exact trip_R _ _ _ _ _ _ _ _ _ _ _ _ (by decide) (fun fa fb fi f0 => ⟨_, rfl,
    rsv_R _ _ rfl (vars4 _) (by simp [fits, fitsM, le_2047] <;> omega) rfl, Eq.trans (b := some (Instr.vmulZg g _ _ (RM.ofCode rm.code) d (VSrc.of a.field a.mode) (VSrc.of b.field b.mode))) rfl (by simp only [rm_back, vsrc_back] <;> rfl)⟩)

theorem Laws.Encoding.vfmaZg (g : Guard) (s : VW) (t : FT) (rm : RM) (d : R11) (a : VSrc) (b : VSrc) (c : VSrc) : Laws.Encoding.Statement (.vfmaZg g s t rm d a b c) := by
  intro h
  simp only [wellFormed, Bool.and_eq_true, decide_eq_true_eq] at h
  cases s <;> cases t
  all_goals exact trip_R _ _ _ _ _ _ _ _ _ _ _ _ (by decide) (fun fa fb fi f0 => ⟨_, rfl,
    rsv_R _ _ rfl (vars4 _) (by simp [fits, fitsM, le_2047] <;> omega) rfl, Eq.trans (b := some (Instr.vfmaZg g _ _ (RM.ofCode rm.code) d (VSrc.of a.field a.mode) (VSrc.of b.field b.mode) (VSrc.of c.field c.mode))) rfl (by simp only [rm_back, vsrc_back] <;> rfl)⟩)

theorem Laws.Encoding.vfmsZg (g : Guard) (s : VW) (t : FT) (rm : RM) (d : R11) (a : VSrc) (b : VSrc) (c : VSrc) : Laws.Encoding.Statement (.vfmsZg g s t rm d a b c) := by
  intro h
  simp only [wellFormed, Bool.and_eq_true, decide_eq_true_eq] at h
  cases s <;> cases t
  all_goals exact trip_R _ _ _ _ _ _ _ _ _ _ _ _ (by decide) (fun fa fb fi f0 => ⟨_, rfl,
    rsv_R _ _ rfl (vars4 _) (by simp [fits, fitsM, le_2047] <;> omega) rfl, Eq.trans (b := some (Instr.vfmsZg g _ _ (RM.ofCode rm.code) d (VSrc.of a.field a.mode) (VSrc.of b.field b.mode) (VSrc.of c.field c.mode))) rfl (by simp only [rm_back, vsrc_back] <;> rfl)⟩)

theorem Laws.Encoding.vmin (g : Guard) (s : VW) (t : FT) (d : R11) (a : VSrc) (b : VSrc) : Laws.Encoding.Statement (.vmin g s t d a b) := by
  intro h
  simp only [wellFormed, Bool.and_eq_true, decide_eq_true_eq] at h
  cases s <;> cases t
  all_goals exact trip_R _ _ _ _ _ _ _ _ _ _ _ _ (by decide) (fun fa fb fi f0 => ⟨_, rfl,
    rsv_R _ _ rfl rfl (by simp [fits, fitsM, le_2047] <;> omega) rfl, Eq.trans (b := some (Instr.vmin g _ _ d (VSrc.of a.field a.mode) (VSrc.of b.field b.mode))) rfl (by simp only [vsrc_back] <;> rfl)⟩)

theorem Laws.Encoding.vmax (g : Guard) (s : VW) (t : FT) (d : R11) (a : VSrc) (b : VSrc) : Laws.Encoding.Statement (.vmax g s t d a b) := by
  intro h
  simp only [wellFormed, Bool.and_eq_true, decide_eq_true_eq] at h
  cases s <;> cases t
  all_goals exact trip_R _ _ _ _ _ _ _ _ _ _ _ _ (by decide) (fun fa fb fi f0 => ⟨_, rfl,
    rsv_R _ _ rfl rfl (by simp [fits, fitsM, le_2047] <;> omega) rfl, Eq.trans (b := some (Instr.vmax g _ _ d (VSrc.of a.field a.mode) (VSrc.of b.field b.mode))) rfl (by simp only [vsrc_back] <;> rfl)⟩)

theorem Laws.Encoding.vabs (g : Guard) (s : VW) (t : FT) (d : R11) (a : VSrc) : Laws.Encoding.Statement (.vabs g s t d a) := by
  intro h
  simp only [wellFormed, Bool.and_eq_true, decide_eq_true_eq] at h
  cases s <;> cases t
  all_goals exact trip_R _ _ _ _ _ _ _ _ _ _ _ _ (by decide) (fun fa fb fi f0 => ⟨_, rfl,
    rsv_R _ _ rfl rfl (by simp [fits, fitsM, le_2047] <;> omega) rfl, Eq.trans (b := some (Instr.vabs g _ _ d (VSrc.of a.field a.mode))) rfl (by simp only [vsrc_back] <;> rfl)⟩)

theorem Laws.Encoding.vneg (g : Guard) (s : VW) (t : FT) (d : R11) (a : VSrc) : Laws.Encoding.Statement (.vneg g s t d a) := by
  intro h
  simp only [wellFormed, Bool.and_eq_true, decide_eq_true_eq] at h
  cases s <;> cases t
  all_goals exact trip_R _ _ _ _ _ _ _ _ _ _ _ _ (by decide) (fun fa fb fi f0 => ⟨_, rfl,
    rsv_R _ _ rfl rfl (by simp [fits, fitsM, le_2047] <;> omega) rfl, Eq.trans (b := some (Instr.vneg g _ _ d (VSrc.of a.field a.mode))) rfl (by simp only [vsrc_back] <;> rfl)⟩)

theorem Laws.Encoding.vcmp (g : Guard) (s : VW) (t : FT) (d : R11) (a : VSrc) (b : VSrc) (cc : R11) : Laws.Encoding.Statement (.vcmp g s t d a b cc) := by
  intro h
  simp only [wellFormed, Bool.and_eq_true, decide_eq_true_eq] at h
  cases s <;> cases t
  all_goals exact trip_R _ _ _ _ _ _ _ _ _ _ _ _ (by decide) (fun fa fb fi f0 => ⟨_, rfl,
    rsv_R _ _ rfl rfl (by simp [fits, fitsM, le_2047] <;> omega) rfl, Eq.trans (b := some (Instr.vcmp g _ _ d (VSrc.of a.field a.mode) (VSrc.of b.field b.mode) cc)) rfl (by simp only [vsrc_back] <;> rfl)⟩)

theorem Laws.Encoding.vcmpAny (g : Guard) (s : VW) (t : FT) (d : R11) (a : VSrc) (b : VSrc) (cc : R11) : Laws.Encoding.Statement (.vcmpAny g s t d a b cc) := by
  intro h
  simp only [wellFormed, Bool.and_eq_true, decide_eq_true_eq] at h
  cases s <;> cases t
  all_goals exact trip_R _ _ _ _ _ _ _ _ _ _ _ _ (by decide) (fun fa fb fi f0 => ⟨_, rfl,
    rsv_R _ _ rfl rfl (by simp [fits, fitsM, le_2047] <;> omega) rfl, Eq.trans (b := some (Instr.vcmpAny g _ _ d (VSrc.of a.field a.mode) (VSrc.of b.field b.mode) cc)) rfl (by simp only [vsrc_back] <;> rfl)⟩)

theorem Laws.Encoding.vcmpAll (g : Guard) (s : VW) (t : FT) (d : R11) (a : VSrc) (b : VSrc) (cc : R11) : Laws.Encoding.Statement (.vcmpAll g s t d a b cc) := by
  intro h
  simp only [wellFormed, Bool.and_eq_true, decide_eq_true_eq] at h
  cases s <;> cases t
  all_goals exact trip_R _ _ _ _ _ _ _ _ _ _ _ _ (by decide) (fun fa fb fi f0 => ⟨_, rfl,
    rsv_R _ _ rfl rfl (by simp [fits, fitsM, le_2047] <;> omega) rfl, Eq.trans (b := some (Instr.vcmpAll g _ _ d (VSrc.of a.field a.mode) (VSrc.of b.field b.mode) cc)) rfl (by simp only [vsrc_back] <;> rfl)⟩)

theorem Laws.Encoding.vsel (g : Guard) (s : VW) (w : IW) (d : R11) (a : VSrc) (b : VSrc) (c : VSrc) : Laws.Encoding.Statement (.vsel g s w d a b c) := by
  intro h
  simp only [wellFormed, Bool.and_eq_true, decide_eq_true_eq] at h
  cases s <;> cases w
  all_goals exact trip_R _ _ _ _ _ _ _ _ _ _ _ _ (by decide) (fun fa fb fi f0 => ⟨_, rfl,
    rsv_R _ _ rfl rfl (by simp [fits, fitsM, le_2047] <;> omega) rfl, Eq.trans (b := some (Instr.vsel g _ _ d (VSrc.of a.field a.mode) (VSrc.of b.field b.mode) (VSrc.of c.field c.mode))) rfl (by simp only [vsrc_back] <;> rfl)⟩)

theorem Laws.Encoding.vdot (g : Guard) (s : VW) (t : FT) (rm : RM) (d : R11) (a : VSrc) (b : VSrc) (c : VSrc) : Laws.Encoding.Statement (.vdot g s t rm d a b c) := by
  intro h
  simp only [wellFormed, Bool.and_eq_true, decide_eq_true_eq] at h
  cases s <;> cases t
  all_goals exact trip_R _ _ _ _ _ _ _ _ _ _ _ _ (by decide) (fun fa fb fi f0 => ⟨_, rfl,
    rsv_R _ _ rfl (vars4 _) (by simp [fits, fitsM, le_2047] <;> omega) rfl, Eq.trans (b := some (Instr.vdot g _ _ (RM.ofCode rm.code) d (VSrc.of a.field a.mode) (VSrc.of b.field b.mode) (VSrc.of c.field c.mode))) rfl (by simp only [rm_back, vsrc_back] <;> rfl)⟩)

theorem Laws.Encoding.vred (g : Guard) (s : VW) (t : FT) (rm : RM) (d : R11) (a : VSrc) : Laws.Encoding.Statement (.vred g s t rm d a) := by
  intro h
  simp only [wellFormed, Bool.and_eq_true, decide_eq_true_eq] at h
  cases s <;> cases t
  all_goals exact trip_R _ _ _ _ _ _ _ _ _ _ _ _ (by decide) (fun fa fb fi f0 => ⟨_, rfl,
    rsv_R _ _ rfl (vars4 _) (by simp [fits, fitsM, le_2047] <;> omega) rfl, Eq.trans (b := some (Instr.vred g _ _ (RM.ofCode rm.code) d (VSrc.of a.field a.mode))) rfl (by simp only [rm_back, vsrc_back] <;> rfl)⟩)

theorem Laws.Encoding.vscan (g : Guard) (s : VW) (t : FT) (rm : RM) (d : R11) (a : VSrc) : Laws.Encoding.Statement (.vscan g s t rm d a) := by
  intro h
  simp only [wellFormed, Bool.and_eq_true, decide_eq_true_eq] at h
  cases s <;> cases t
  all_goals exact trip_R _ _ _ _ _ _ _ _ _ _ _ _ (by decide) (fun fa fb fi f0 => ⟨_, rfl,
    rsv_R _ _ rfl (vars4 _) (by simp [fits, fitsM, le_2047] <;> omega) rfl, Eq.trans (b := some (Instr.vscan g _ _ (RM.ofCode rm.code) d (VSrc.of a.field a.mode))) rfl (by simp only [rm_back, vsrc_back] <;> rfl)⟩)

theorem Laws.Encoding.vexp2 (g : Guard) (s : VW) (t : FT) (d : R11) (a : VSrc) : Laws.Encoding.Statement (.vexp2 g s t d a) := by
  intro h
  simp only [wellFormed, Bool.and_eq_true, decide_eq_true_eq] at h
  cases s <;> cases t
  all_goals exact trip_R _ _ _ _ _ _ _ _ _ _ _ _ (by decide) (fun fa fb fi f0 => ⟨_, rfl,
    rsv_R _ _ rfl rfl (by simp [fits, fitsM, le_2047] <;> omega) rfl, Eq.trans (b := some (Instr.vexp2 g _ _ d (VSrc.of a.field a.mode))) rfl (by simp only [vsrc_back] <;> rfl)⟩)

theorem Laws.Encoding.vlog2 (g : Guard) (s : VW) (t : FT) (d : R11) (a : VSrc) : Laws.Encoding.Statement (.vlog2 g s t d a) := by
  intro h
  simp only [wellFormed, Bool.and_eq_true, decide_eq_true_eq] at h
  cases s <;> cases t
  all_goals exact trip_R _ _ _ _ _ _ _ _ _ _ _ _ (by decide) (fun fa fb fi f0 => ⟨_, rfl,
    rsv_R _ _ rfl rfl (by simp [fits, fitsM, le_2047] <;> omega) rfl, Eq.trans (b := some (Instr.vlog2 g _ _ d (VSrc.of a.field a.mode))) rfl (by simp only [vsrc_back] <;> rfl)⟩)

theorem Laws.Encoding.vrcp (g : Guard) (s : VW) (t : FT) (d : R11) (a : VSrc) : Laws.Encoding.Statement (.vrcp g s t d a) := by
  intro h
  simp only [wellFormed, Bool.and_eq_true, decide_eq_true_eq] at h
  cases s <;> cases t
  all_goals exact trip_R _ _ _ _ _ _ _ _ _ _ _ _ (by decide) (fun fa fb fi f0 => ⟨_, rfl,
    rsv_R _ _ rfl rfl (by simp [fits, fitsM, le_2047] <;> omega) rfl, Eq.trans (b := some (Instr.vrcp g _ _ d (VSrc.of a.field a.mode))) rfl (by simp only [vsrc_back] <;> rfl)⟩)

theorem Laws.Encoding.vrsq (g : Guard) (s : VW) (t : FT) (d : R11) (a : VSrc) : Laws.Encoding.Statement (.vrsq g s t d a) := by
  intro h
  simp only [wellFormed, Bool.and_eq_true, decide_eq_true_eq] at h
  cases s <;> cases t
  all_goals exact trip_R _ _ _ _ _ _ _ _ _ _ _ _ (by decide) (fun fa fb fi f0 => ⟨_, rfl,
    rsv_R _ _ rfl rfl (by simp [fits, fitsM, le_2047] <;> omega) rfl, Eq.trans (b := some (Instr.vrsq g _ _ d (VSrc.of a.field a.mode))) rfl (by simp only [vsrc_back] <;> rfl)⟩)

theorem Laws.Encoding.vcvt (g : Guard) (s : VW) (rm : RM) (d : R11) (a : VSrc) (b c : R11) : Laws.Encoding.Statement (.vcvt g s rm d a b c) := by
  intro h
  simp only [wellFormed, Bool.and_eq_true] at h
  obtain ⟨h, -⟩ := h
  have e := vcvt_ok b c h
  cases s
  all_goals refine trip_R _ _ _ _ _ _ _ _ _ _ _ _ (by decide) (fun fa fb fi f0 => ⟨_, rfl, rsv_R _ _ rfl (vars4 _) (by simp [fits, fitsM, le_2047]) e, ?_⟩)
  all_goals exact congrArg₂ (fun x y => some (Instr.vcvt g _ x d y b c)) (rm_back rm) (vsrc_back a)

theorem Laws.Encoding.vperm (g : Guard) (s : VW) (d : R11) (a : VSrc) (b : VSrc) (c : VSrc) : Laws.Encoding.Statement (.vperm g s d a b c) := by
  intro h
  simp only [wellFormed, Bool.and_eq_true, decide_eq_true_eq] at h
  cases s
  all_goals exact trip_R _ _ _ _ _ _ _ _ _ _ _ _ (by decide) (fun fa fb fi f0 => ⟨_, rfl,
    rsv_R _ _ rfl rfl (by simp [fits, fitsM, le_2047] <;> omega) rfl, Eq.trans (b := some (Instr.vperm g _ d (VSrc.of a.field a.mode) (VSrc.of b.field b.mode) (VSrc.of c.field c.mode))) rfl (by simp only [vsrc_back] <;> rfl)⟩)

theorem Laws.Encoding.vbcast (g : Guard) (s : VW) (w : IW) (d : R11) (a : VSrc) (b : R11) : Laws.Encoding.Statement (.vbcast g s w d a b) := by
  intro h
  simp only [wellFormed, Bool.and_eq_true, decide_eq_true_eq] at h
  have h' : b.toNat ≤ 2048 / w.bits - 1 := by omega
  clear h
  cases s <;> cases w
  all_goals refine trip_R _ _ _ _ _ _ _ _ _ _ _ _ (by decide) (fun fa fb fi f0 => ⟨_, rfl, rsv_R _ _ rfl rfl ⟨trivial, trivial, ⟨rfl, Nat.zero_le _, ?_⟩, rfl, rfl⟩ rfl, ?_⟩)
  all_goals first
    | exact Nat.le_trans h' (Nat.le_of_eq rfl)
    | exact congrArg (fun y => some (Instr.vbcast g _ _ d y b)) (vsrc_back a)

theorem Laws.Encoding.vrotl (g : Guard) (s : VW) (d : R11) (a : VSrc) (b : R11) : Laws.Encoding.Statement (.vrotl g s d a b) := by
  intro h
  simp only [wellFormed, Bool.and_eq_true, decide_eq_true_eq] at h
  cases s
  all_goals exact trip_R _ _ _ _ _ _ _ _ _ _ _ _ (by decide) (fun fa fb fi f0 => ⟨_, rfl,
    rsv_R _ _ rfl rfl (by simp [fits, fitsM, le_2047] <;> omega) rfl, Eq.trans (b := some (Instr.vrotl g _ d (VSrc.of a.field a.mode) b)) rfl (by simp only [vsrc_back] <;> rfl)⟩)

theorem Laws.Encoding.viadd (g : Guard) (s : VW) (w : IW) (d : R11) (a : VSrc) (b : VSrc) : Laws.Encoding.Statement (.viadd g s w d a b) := by
  intro h
  simp only [wellFormed, Bool.and_eq_true, decide_eq_true_eq] at h
  cases s <;> cases w
  all_goals exact trip_R _ _ _ _ _ _ _ _ _ _ _ _ (by decide) (fun fa fb fi f0 => ⟨_, rfl,
    rsv_R _ _ rfl rfl (by simp [fits, fitsM, le_2047] <;> omega) rfl, Eq.trans (b := some (Instr.viadd g _ _ d (VSrc.of a.field a.mode) (VSrc.of b.field b.mode))) rfl (by simp only [vsrc_back] <;> rfl)⟩)

theorem Laws.Encoding.vimul (g : Guard) (s : VW) (w : IW) (d : R11) (a : VSrc) (b : VSrc) : Laws.Encoding.Statement (.vimul g s w d a b) := by
  intro h
  simp only [wellFormed, Bool.and_eq_true, decide_eq_true_eq] at h
  cases s <;> cases w
  all_goals exact trip_R _ _ _ _ _ _ _ _ _ _ _ _ (by decide) (fun fa fb fi f0 => ⟨_, rfl,
    rsv_R _ _ rfl rfl (by simp [fits, fitsM, le_2047] <;> omega) rfl, Eq.trans (b := some (Instr.vimul g _ _ d (VSrc.of a.field a.mode) (VSrc.of b.field b.mode))) rfl (by simp only [vsrc_back] <;> rfl)⟩)

theorem Laws.Encoding.vand (g : Guard) (s : VW) (d : R11) (a : VSrc) (b : VSrc) : Laws.Encoding.Statement (.vand g s d a b) := by
  intro h
  simp only [wellFormed, Bool.and_eq_true, decide_eq_true_eq] at h
  cases s
  all_goals exact trip_R _ _ _ _ _ _ _ _ _ _ _ _ (by decide) (fun fa fb fi f0 => ⟨_, rfl,
    rsv_R _ _ rfl rfl (by simp [fits, fitsM, le_2047] <;> omega) rfl, Eq.trans (b := some (Instr.vand g _ d (VSrc.of a.field a.mode) (VSrc.of b.field b.mode))) rfl (by simp only [vsrc_back] <;> rfl)⟩)

theorem Laws.Encoding.vor (g : Guard) (s : VW) (d : R11) (a : VSrc) (b : VSrc) : Laws.Encoding.Statement (.vor g s d a b) := by
  intro h
  simp only [wellFormed, Bool.and_eq_true, decide_eq_true_eq] at h
  cases s
  all_goals exact trip_R _ _ _ _ _ _ _ _ _ _ _ _ (by decide) (fun fa fb fi f0 => ⟨_, rfl,
    rsv_R _ _ rfl rfl (by simp [fits, fitsM, le_2047] <;> omega) rfl, Eq.trans (b := some (Instr.vor g _ d (VSrc.of a.field a.mode) (VSrc.of b.field b.mode))) rfl (by simp only [vsrc_back] <;> rfl)⟩)

theorem Laws.Encoding.vxor (g : Guard) (s : VW) (d : R11) (a : VSrc) (b : VSrc) : Laws.Encoding.Statement (.vxor g s d a b) := by
  intro h
  simp only [wellFormed, Bool.and_eq_true, decide_eq_true_eq] at h
  cases s
  all_goals exact trip_R _ _ _ _ _ _ _ _ _ _ _ _ (by decide) (fun fa fb fi f0 => ⟨_, rfl,
    rsv_R _ _ rfl rfl (by simp [fits, fitsM, le_2047] <;> omega) rfl, Eq.trans (b := some (Instr.vxor g _ d (VSrc.of a.field a.mode) (VSrc.of b.field b.mode))) rfl (by simp only [vsrc_back] <;> rfl)⟩)

theorem Laws.Encoding.vshl (g : Guard) (s : VW) (w : IW) (d : R11) (a : VSrc) (b : VSrc) : Laws.Encoding.Statement (.vshl g s w d a b) := by
  intro h
  simp only [wellFormed, Bool.and_eq_true, decide_eq_true_eq] at h
  cases s <;> cases w
  all_goals exact trip_R _ _ _ _ _ _ _ _ _ _ _ _ (by decide) (fun fa fb fi f0 => ⟨_, rfl,
    rsv_R _ _ rfl rfl (by simp [fits, fitsM, le_2047] <;> omega) rfl, Eq.trans (b := some (Instr.vshl g _ _ d (VSrc.of a.field a.mode) (VSrc.of b.field b.mode))) rfl (by simp only [vsrc_back] <;> rfl)⟩)

theorem Laws.Encoding.vshr (g : Guard) (s : VW) (w : IW) (d : R11) (a : VSrc) (b : VSrc) : Laws.Encoding.Statement (.vshr g s w d a b) := by
  intro h
  simp only [wellFormed, Bool.and_eq_true, decide_eq_true_eq] at h
  cases s <;> cases w
  all_goals exact trip_R _ _ _ _ _ _ _ _ _ _ _ _ (by decide) (fun fa fb fi f0 => ⟨_, rfl,
    rsv_R _ _ rfl rfl (by simp [fits, fitsM, le_2047] <;> omega) rfl, Eq.trans (b := some (Instr.vshr g _ _ d (VSrc.of a.field a.mode) (VSrc.of b.field b.mode))) rfl (by simp only [vsrc_back] <;> rfl)⟩)

theorem Laws.Encoding.vidx (g : Guard) (s : VW) (d : R11) (b : R11) (c : R11) : Laws.Encoding.Statement (.vidx g s d b c) := by
  intro h
  simp only [wellFormed, Bool.and_eq_true, decide_eq_true_eq] at h
  cases s
  all_goals exact trip_R _ _ _ _ _ _ _ _ _ _ _ _ (by decide) (fun fa fb fi f0 => ⟨_, rfl,
    rsv_R _ _ rfl rfl (by simp [fits, fitsM, le_2047] <;> omega) rfl, rfl⟩)

theorem Laws.Encoding.vsetx (g : Guard) (s : VW) (d : R11) (a : VSrc) (b : R11) : Laws.Encoding.Statement (.vsetx g s d a b) := by
  intro h
  simp only [wellFormed, Bool.and_eq_true, decide_eq_true_eq] at h
  cases s
  all_goals exact trip_R _ _ _ _ _ _ _ _ _ _ _ _ (by decide) (fun fa fb fi f0 => ⟨_, rfl,
    rsv_R _ _ rfl rfl (by simp [fits, fitsM, le_2047] <;> omega) rfl, Eq.trans (b := some (Instr.vsetx g _ d (VSrc.of a.field a.mode) b)) rfl (by simp only [vsrc_back] <;> rfl)⟩)

theorem Laws.Encoding.vsetxAdd (g : Guard) (s : VW) (d : R11) (a : R11) (b : R11) : Laws.Encoding.Statement (.vsetxAdd g s d a b) := by
  intro h
  simp only [wellFormed, Bool.and_eq_true, decide_eq_true_eq] at h
  cases s
  all_goals exact trip_R _ _ _ _ _ _ _ _ _ _ _ _ (by decide) (fun fa fb fi f0 => ⟨_, rfl,
    rsv_R _ _ rfl rfl (by simp [fits, fitsM, le_2047] <;> omega) rfl, rfl⟩)

theorem Laws.Encoding.vsetxLi (g : Guard) (s : VW) (d : R11) (b : R11) : Laws.Encoding.Statement (.vsetxLi g s d b) := by
  intro h
  simp only [wellFormed, Bool.and_eq_true, decide_eq_true_eq] at h
  cases s
  all_goals exact trip_R _ _ _ _ _ _ _ _ _ _ _ _ (by decide) (fun fa fb fi f0 => ⟨_, rfl,
    rsv_R _ _ rfl rfl (by simp [fits, fitsM, le_2047] <;> omega) rfl, rfl⟩)

theorem Laws.Encoding.vpopq (g : Guard) (s : VW) (d : R11) : Laws.Encoding.Statement (.vpopq g s d) := by
  intro h
  simp only [wellFormed, Bool.and_eq_true, decide_eq_true_eq] at h
  cases s
  all_goals exact trip_R _ _ _ _ _ _ _ _ _ _ _ _ (by decide) (fun fa fb fi f0 => ⟨_, rfl,
    rsv_R _ _ rfl rfl (by simp [fits, fitsM, le_2047] <;> omega) rfl, rfl⟩)

theorem Laws.Encoding.vldp (g : Guard) (s : VW) (s4 : Bool) (d : R11) (a : R11) (imm : Imm) : Laws.Encoding.Statement (.vldp g s s4 d a imm) := by
  intro h
  simp only [wellFormed, Bool.and_eq_true, decide_eq_true_eq] at h
  cases s <;> cases s4
  all_goals refine trip_I _ _ _ _ _ _ _ _ (by decide) (fun fa fb b c ma mb mc v => ⟨_, rfl,
    rsv_I _ _ _ rfl (esc_ok imm (by simp [h])) rfl ?_ ?_, ?_⟩)
  all_goals first
    | rfl
    | (simp [fits] <;> omega)
    | (show some (Instr.vldp g _ _ d a (Fields.imm _ _)) = _; rw [imm_cases imm (by simp [h])] <;> (try simp [bit, szOf, Sz.code]))
    | simp_all

theorem Laws.Encoding.vstp (g : Guard) (s : VW) (s4 : Bool) (d : R11) (a : R11) (imm : Imm) : Laws.Encoding.Statement (.vstp g s s4 d a imm) := by
  intro h
  simp only [wellFormed, Bool.and_eq_true, decide_eq_true_eq] at h
  cases s <;> cases s4
  all_goals refine trip_I _ _ _ _ _ _ _ _ (by decide) (fun fa fb b c ma mb mc v => ⟨_, rfl,
    rsv_I _ _ _ rfl (esc_ok imm (by simp [h])) rfl ?_ ?_, ?_⟩)
  all_goals first
    | rfl
    | (simp [fits] <;> omega)
    | (show some (Instr.vstp g _ _ d a (Fields.imm _ _)) = _; rw [imm_cases imm (by simp [h])] <;> (try simp [bit, szOf, Sz.code]))
    | simp_all

theorem Laws.Encoding.vldps (g : Guard) (s : VW) (s4 : Bool) (d : R11) (a : R11) (imm : Imm) : Laws.Encoding.Statement (.vldps g s s4 d a imm) := by
  intro h
  simp only [wellFormed, Bool.and_eq_true, decide_eq_true_eq] at h
  cases s <;> cases s4
  all_goals refine trip_I _ _ _ _ _ _ _ _ (by decide) (fun fa fb b c ma mb mc v => ⟨_, rfl,
    rsv_I _ _ _ rfl (esc_ok imm (by simp [h])) rfl ?_ ?_, ?_⟩)
  all_goals first
    | rfl
    | (simp [fits] <;> omega)
    | (show some (Instr.vldps g _ _ d a (Fields.imm _ _)) = _; rw [imm_cases imm (by simp [h])] <;> (try simp [bit, szOf, Sz.code]))
    | simp_all

theorem Laws.Encoding.kmov (g : Guard) (df sf : KFile) (d a : R11) : Laws.Encoding.Statement (.kmov g df sf d a) := by
  intro h
  have hs : df.scalar = true ∧ sf.scalar = true ∧ df ≠ sf := by
    revert h; cases df <;> cases sf <;> simp [wellFormed, KFile.scalar]
  obtain ⟨h1, h2, h3⟩ := hs
  obtain ⟨k1, k2, k3, k4, k5, k6, k7⟩ := kfiles_back df sf
  refine trip_R _ _ _ _ _ _ _ _ _ _ _ _ (by decide) (fun fa fb fi f0 => ⟨{ d := .dst df.file, a := .src sf.file, c := .lit 0 2047, weight := 20 }, ?_,
    rsv_R _ _ rfl rfl (by simp [fits, fitsM, le_2047]) rfl, ?_⟩)
  · simp only [formAt]
    delta formK
    simp [k1, k3, k4, k5, k6, k7, h1, h2, h3]
  · simp [mkAt, mkK, k2, k3]

theorem Laws.Encoding.kvec (g : Guard) (df sf : KFile) (d a : R11) : Laws.Encoding.Statement (.kvec g df sf d a) := by
  intro h
  have hs : df.scalar = false ∧ sf.scalar = false ∧ df ≠ sf := by
    revert h; cases df <;> cases sf <;> simp [wellFormed, KFile.scalar]
  obtain ⟨h1, h2, h3⟩ := hs
  obtain ⟨k1, k2, k3, k4, k5, k6, k7⟩ := kfiles_back df sf
  refine trip_R _ _ _ _ _ _ _ _ _ _ _ _ (by decide) (fun fa fb fi f0 => ⟨{ d := .dst df.file, a := .src sf.file, c := .lit 0 2047, weight := 90 }, ?_,
    rsv_R _ _ rfl rfl (by simp [fits, fitsM, le_2047]) rfl, ?_⟩)
  · simp only [formAt]
    delta formK
    simp [k1, k3, k4, k5, k6, k7, h1, h2, h3]
  · simp [mkAt, mkK, k2, k3]

theorem Laws.Encoding.kext (g : Guard) (df sf : KFile) (d a b : R11) : Laws.Encoding.Statement (.kext g df sf d a b) := by
  intro h
  have hs : df.scalar = true ∧ sf.scalar = false ∧ df ≠ sf := by
    revert h; cases df <;> cases sf <;> simp [wellFormed, KFile.scalar]
  obtain ⟨h1, h2, h3⟩ := hs
  obtain ⟨k1, k2, k3, k4, k5, k6, k7⟩ := kfiles_back df sf
  refine trip_R _ _ _ _ _ _ _ _ _ _ _ _ (by decide) (fun fa fb fi f0 => ⟨{ d := .dst df.file, a := .src sf.file, b := .src df.file, c := .lit 0 2047, weight := 90 }, ?_,
    rsv_R _ _ rfl rfl (by simp [fits, fitsM, le_2047]) rfl, ?_⟩)
  · simp only [formAt]
    delta formK
    simp [k1, k3, k4, k5, k6, k7, h1, h2, h3]
  · simp [mkAt, mkK, k2, k3]

theorem Laws.Encoding.kins (g : Guard) (df sf : KFile) (d a b : R11) : Laws.Encoding.Statement (.kins g df sf d a b) := by
  intro h
  have hs : df.scalar = false ∧ sf.scalar = true ∧ df ≠ sf := by
    revert h; cases df <;> cases sf <;> simp [wellFormed, KFile.scalar]
  obtain ⟨h1, h2, h3⟩ := hs
  obtain ⟨k1, k2, k3, k4, k5, k6, k7⟩ := kfiles_back df sf
  refine trip_R _ _ _ _ _ _ _ _ _ _ _ _ (by decide) (fun fa fb fi f0 => ⟨{ d := .upd df.file, a := .src sf.file, b := .src sf.file, c := .lit 0 2047, weight := 90 }, ?_,
    rsv_R _ _ rfl rfl (by simp [fits, fitsM, le_2047]) rfl, ?_⟩)
  · simp only [formAt]
    delta formK
    simp [k1, k3, k4, k5, k6, k7, h1, h2, h3]
  · simp [mkAt, mkK, k2, k3]

theorem Laws.Encoding.kbc (g : Guard) (df sf : KFile) (d a : R11) : Laws.Encoding.Statement (.kbc g df sf d a) := by
  intro h
  have hs : df.scalar = false ∧ sf.scalar = true ∧ df ≠ sf := by
    revert h; cases df <;> cases sf <;> simp [wellFormed, KFile.scalar]
  obtain ⟨h1, h2, h3⟩ := hs
  obtain ⟨k1, k2, k3, k4, k5, k6, k7⟩ := kfiles_back df sf
  refine trip_R _ _ _ _ _ _ _ _ _ _ _ _ (by decide) (fun fa fb fi f0 => ⟨{ d := .dst df.file, a := .src sf.file, c := .lit 0 2047, weight := 90 }, ?_,
    rsv_R _ _ rfl rfl (by simp [fits, fitsM, le_2047]) rfl, ?_⟩)
  · simp only [formAt]
    delta formK
    simp [k1, k3, k4, k5, k6, k7, h1, h2, h3]
  · simp [mkAt, mkK, k2, k3]

theorem Laws.Encoding.eli (g : Guard) (d : R11) (imm : Imm) : Laws.Encoding.Statement (.eli g d imm) := by
  intro h
  simp only [wellFormed, Bool.and_eq_true, decide_eq_true_eq] at h
  refine trip_I _ _ _ _ _ _ _ _ (by decide) (fun fa fb b c ma mb mc v => ⟨_, rfl,
    rsv_I _ _ _ rfl (esc_ok imm (by simp [h])) rfl ?_ ?_, ?_⟩)
  all_goals first
    | rfl
    | (simp [fits] <;> omega)
    | (show some (Instr.eli g d (Fields.imm _ _)) = _; rw [imm_cases imm (by simp [h])] <;> (try simp [bit, szOf, Sz.code]))
    | simp_all

theorem Laws.Encoding.eadd (g : Guard) (d : R11) (a : R11) (b : R11) : Laws.Encoding.Statement (.eadd g d a b) := by
  intro h
  simp only [wellFormed, Bool.and_eq_true, decide_eq_true_eq] at h
  exact trip_R _ _ _ _ _ _ _ _ _ _ _ _ (by decide) (fun fa fb fi f0 => ⟨_, rfl,
    rsv_R _ _ rfl rfl (by simp [fits, fitsM, le_2047] <;> omega) rfl, rfl⟩)

theorem Laws.Encoding.emov (g : Guard) (d : R11) (a : R11) : Laws.Encoding.Statement (.emov g d a) := by
  intro h
  simp only [wellFormed, Bool.and_eq_true, decide_eq_true_eq] at h
  exact trip_R _ _ _ _ _ _ _ _ _ _ _ _ (by decide) (fun fa fb fi f0 => ⟨_, rfl,
    rsv_R _ _ rfl rfl (by simp [fits, fitsM, le_2047] <;> omega) rfl, rfl⟩)

theorem Laws.Encoding.csrrd (g : Guard) (d : R11) (imm : Imm) : Laws.Encoding.Statement (.csrrd g d imm) := by
  intro h
  simp only [wellFormed, Bool.and_eq_true] at h
  refine trip_I _ _ _ _ _ _ _ _ (by decide) (fun fa fb b c ma mb mc v => ⟨_, rfl,
    rsv_I _ _ _ rfl (esc_ok imm h.2) rfl (by simp [fits]) ?_, congrArg (fun x => some (Instr.csrrd g d x)) (imm_cases imm h.2 _ _ _ _ _ _ _ _ _ _ _)⟩)
  simp [imm_cases imm h.2, h.1.2]

theorem Laws.Encoding.csrwr (g : Guard) (a : R11) (imm : Imm) : Laws.Encoding.Statement (.csrwr g a imm) := by
  intro h
  simp only [wellFormed, Bool.and_eq_true] at h
  refine trip_I _ _ _ _ _ _ _ _ (by decide) (fun fa fb b c ma mb mc v => ⟨_, rfl,
    rsv_I _ _ _ rfl (esc_ok imm h.2) rfl (by simp [fits]) ?_, congrArg (fun x => some (Instr.csrwr g a x)) (imm_cases imm h.2 _ _ _ _ _ _ _ _ _ _ _)⟩)
  simp [imm_cases imm h.2, h.1.2]

theorem Laws.Encoding.semsig (g : Guard) (ret : Bool) (d a : R11) (imm : Imm) : Laws.Encoding.Statement (.semsig g ret d a imm) := by
  intro h
  simp only [wellFormed, Bool.and_eq_true, decide_eq_true_eq, Bool.or_eq_true, beq_iff_eq] at h
  obtain ⟨⟨⟨⟨-, h1⟩, h2⟩, h3⟩, h4⟩ := h
  cases ret
  all_goals refine trip_I _ _ _ _ _ _ _ _ (by decide) (fun fa fb b c ma mb mc v => ⟨_, rfl,
    rsv_I _ _ _ rfl (esc_ok imm h4) rfl ?_ ?_,
    congrArg (fun x => some (Instr.semsig g _ d a x)) (imm_cases imm h4 _ _ _ _ _ _ _ _ _ _ _)⟩)
  · have : d.toNat = 0 := by simpa using h3
    simp [bit, fits, this]
    omega
  · simp [imm_cases imm h4, h2]
  · exact ⟨trivial, Nat.zero_le _, Nat.le_of_lt_succ h1⟩
  · simp [imm_cases imm h4, h2]

theorem Laws.Encoding.semwait (g : Guard) (a : R11) (imm : Imm) : Laws.Encoding.Statement (.semwait g a imm) := by
  intro h
  simp only [wellFormed, Bool.and_eq_true, decide_eq_true_eq] at h
  obtain ⟨⟨h1, h2⟩, h4⟩ := h
  refine trip_I _ _ _ _ _ _ _ _ (by decide) (fun fa fb b c ma mb mc v => ⟨_, rfl,
    rsv_I _ _ _ rfl (esc_ok imm h4) rfl (by simp [fits] <;> omega) ?_,
    congrArg (fun x => some (Instr.semwait g a x)) (imm_cases imm h4 _ _ _ _ _ _ _ _ _ _ _)⟩)
  simp [imm_cases imm h4, h2]

theorem Laws.Encoding.fence (g : Guard) (sc : Scope) (k : FenceKind) : Laws.Encoding.Statement (.fence g sc k) := by
  intro h
  simp only [wellFormed, Bool.and_eq_true, decide_eq_true_eq] at h
  cases sc <;> cases k
  all_goals exact trip_R _ _ _ _ _ _ _ _ _ _ _ _ (by decide) (fun fa fb fi f0 => ⟨_, rfl,
    rsv_R _ _ rfl rfl (by simp [fits, fitsM, le_2047] <;> omega) rfl, rfl⟩)

theorem Laws.Encoding.phase (g : Guard) (d : R11) : Laws.Encoding.Statement (.phase g d) := by
  intro h
  simp only [wellFormed, Bool.and_eq_true, decide_eq_true_eq] at h
  exact trip_R _ _ _ _ _ _ _ _ _ _ _ _ (by decide) (fun fa fb fi f0 => ⟨_, rfl,
    rsv_R _ _ rfl rfl (by simp [fits, fitsM, le_2047] <;> omega) rfl, rfl⟩)

theorem Laws.Encoding.launch (g : Guard) (d : R11) (a : R11) (b : R11) : Laws.Encoding.Statement (.launch g d a b) := by
  intro h
  simp only [wellFormed, Bool.and_eq_true, decide_eq_true_eq] at h
  exact trip_R _ _ _ _ _ _ _ _ _ _ _ _ (by decide) (fun fa fb fi f0 => ⟨_, rfl,
    rsv_R _ _ rfl rfl (by simp [fits, fitsM, le_2047] <;> omega) rfl, rfl⟩)

theorem Laws.Encoding.copy (g : Guard) (d : R11) (a : R11) (b : R11) : Laws.Encoding.Statement (.copy g d a b) := by
  intro h
  simp only [wellFormed, Bool.and_eq_true, decide_eq_true_eq] at h
  exact trip_R _ _ _ _ _ _ _ _ _ _ _ _ (by decide) (fun fa fb fi f0 => ⟨_, rfl,
    rsv_R _ _ rfl rfl (by simp [fits, fitsM, le_2047] <;> omega) rfl, rfl⟩)

theorem Laws.Encoding.copyp (g : Guard) (d : R11) (a : R11) (b : R11) : Laws.Encoding.Statement (.copyp g d a b) := by
  intro h
  simp only [wellFormed, Bool.and_eq_true, decide_eq_true_eq] at h
  exact trip_R _ _ _ _ _ _ _ _ _ _ _ _ (by decide) (fun fa fb fi f0 => ⟨_, rfl,
    rsv_R _ _ rfl rfl (by simp [fits, fitsM, le_2047] <;> omega) rfl, rfl⟩)

theorem Laws.Encoding.cwait (g : Guard) (a : R11) (b : R11) (c : R11) : Laws.Encoding.Statement (.cwait g a b c) := by
  intro h
  simp only [wellFormed, Bool.and_eq_true, decide_eq_true_eq, coreSelOk, Bool.or_eq_true, beq_iff_eq] at h
  exact trip_R _ _ _ _ _ _ _ _ _ _ _ _ (by decide) (fun fa fb fi f0 => ⟨_, rfl,
    rsv_R _ _ rfl rfl (by simp [fits, fitsM, le_2047] <;> omega) rfl, rfl⟩)

theorem Laws.Encoding.tlrd (g : Guard) (d : R11) (b : R11) (c : R11) : Laws.Encoding.Statement (.tlrd g d b c) := by
  intro h
  simp only [wellFormed, Bool.and_eq_true, decide_eq_true_eq, coreSelOk, Bool.or_eq_true, beq_iff_eq] at h
  exact trip_R _ _ _ _ _ _ _ _ _ _ _ _ (by decide) (fun fa fb fi f0 => ⟨_, rfl,
    rsv_R _ _ rfl rfl (by simp [fits, fitsM, le_2047] <;> omega) rfl, rfl⟩)

theorem Laws.Encoding.tlrdErr (g : Guard) (d : R11) (b : R11) (c : R11) : Laws.Encoding.Statement (.tlrdErr g d b c) := by
  intro h
  simp only [wellFormed, Bool.and_eq_true, decide_eq_true_eq, coreSelOk, Bool.or_eq_true, beq_iff_eq] at h
  exact trip_R _ _ _ _ _ _ _ _ _ _ _ _ (by decide) (fun fa fb fi f0 => ⟨_, rfl,
    rsv_R _ _ rfl rfl (by simp [fits, fitsM, le_2047] <;> omega) rfl, rfl⟩)

theorem Laws.Encoding.tlrdErrc (g : Guard) (d : R11) (b : R11) (c : R11) : Laws.Encoding.Statement (.tlrdErrc g d b c) := by
  intro h
  simp only [wellFormed, Bool.and_eq_true, decide_eq_true_eq, beq_iff_eq] at h
  exact trip_R _ _ _ _ _ _ _ _ _ _ _ _ (by decide) (fun fa fb fi f0 => ⟨_, rfl,
    rsv_R _ _ rfl rfl (by simp [fits, fitsM, le_2047] <;> omega) (by simp [h]), rfl⟩)

theorem Laws.Encoding.bpost (g : Guard) (d : R11) (a : R11) (b : R11) (c : R11) : Laws.Encoding.Statement (.bpost g d a b c) := by
  intro h
  simp only [wellFormed, Bool.and_eq_true, decide_eq_true_eq, evmOk, beq_iff_eq] at h
  exact trip_R _ _ _ _ _ _ _ _ _ _ _ _ (by decide) (fun fa fb fi f0 => ⟨_, rfl,
    rsv_R _ _ rfl rfl (by simp_all [fits, fitsM]) rfl, rfl⟩)

theorem Laws.Encoding.bview (g : Guard) (d : R11) (a : R11) : Laws.Encoding.Statement (.bview g d a) := by
  intro h
  simp only [wellFormed, Bool.and_eq_true, decide_eq_true_eq, evmOk, beq_iff_eq] at h
  exact trip_R _ _ _ _ _ _ _ _ _ _ _ _ (by decide) (fun fa fb fi f0 => ⟨_, rfl,
    rsv_R _ _ rfl rfl (by simp_all [fits, fitsM]) rfl, rfl⟩)

theorem Laws.Encoding.bviewWord (g : Guard) (d a b : R11) : Laws.Encoding.Statement (.bviewWord g d a b) := by
  intro h
  simp only [wellFormed, Bool.and_eq_true, decide_eq_true_eq] at h
  refine trip_R _ _ _ _ _ _ _ _ _ _ _ _ (by decide) (fun fa fb fi f0 => ⟨_, rfl, rsv_R _ _ rfl rfl ⟨trivial, ⟨rfl, h.1.2⟩, ⟨rfl, trivial⟩, rfl, rfl⟩ ?_, rfl⟩)
  exact if_pos (BitVec.lt_def.mpr h.1.1)

theorem Laws.Encoding.bread (g : Guard) (d : R11) (a : R11) (b : R11) (c : R11) : Laws.Encoding.Statement (.bread g d a b c) := by
  intro h
  simp only [wellFormed, Bool.and_eq_true, decide_eq_true_eq] at h
  exact trip_R _ _ _ _ _ _ _ _ _ _ _ _ (by decide) (fun fa fb fi f0 => ⟨_, rfl,
    rsv_R _ _ rfl rfl (by simp [fits, fitsM, le_2047] <;> omega) rfl, rfl⟩)

theorem Laws.Encoding.badv (g : Guard) (d : R11) (a : R11) (b : R11) : Laws.Encoding.Statement (.badv g d a b) := by
  intro h
  simp only [wellFormed, Bool.and_eq_true, decide_eq_true_eq] at h
  exact trip_R _ _ _ _ _ _ _ _ _ _ _ _ (by decide) (fun fa fb fi f0 => ⟨_, rfl,
    rsv_R _ _ rfl rfl (by simp [fits, fitsM, le_2047] <;> omega) rfl, rfl⟩)

theorem Laws.Encoding.barr (g : Guard) (d : R11) (a : R11) : Laws.Encoding.Statement (.barr g d a) := by
  intro h
  simp only [wellFormed, Bool.and_eq_true, decide_eq_true_eq] at h
  exact trip_R _ _ _ _ _ _ _ _ _ _ _ _ (by decide) (fun fa fb fi f0 => ⟨_, rfl,
    rsv_R _ _ rfl rfl (by simp [fits, fitsM, le_2047] <;> omega) rfl, rfl⟩)

theorem Laws.Encoding.strset (g : Guard) (a : R11) (b : R11) (c : R11) : Laws.Encoding.Statement (.strset g a b c) := by
  intro h
  simp only [wellFormed, Bool.and_eq_true, decide_eq_true_eq] at h
  exact trip_R _ _ _ _ _ _ _ _ _ _ _ _ (by decide) (fun fa fb fi f0 => ⟨_, rfl,
    rsv_R _ _ rfl rfl (by simp [fits, fitsM, le_2047] <;> omega) rfl, rfl⟩)

theorem Laws.Encoding.strtap (g : Guard) (a : R11) (b : R11) (c : R11) : Laws.Encoding.Statement (.strtap g a b c) := by
  intro h
  simp only [wellFormed, Bool.and_eq_true, decide_eq_true_eq] at h
  exact trip_R _ _ _ _ _ _ _ _ _ _ _ _ (by decide) (fun fa fb fi f0 => ⟨_, rfl,
    rsv_R _ _ rfl rfl (by simp [fits, fitsM, le_2047] <;> omega) rfl, rfl⟩)

theorem Laws.Encoding.ringsetGeom (g : Guard) (a : R11) (b : R11) : Laws.Encoding.Statement (.ringsetGeom g a b) := by
  intro h
  simp only [wellFormed, Bool.and_eq_true, decide_eq_true_eq] at h
  exact trip_R _ _ _ _ _ _ _ _ _ _ _ _ (by decide) (fun fa fb fi f0 => ⟨_, rfl,
    rsv_R _ _ rfl rfl (by simp [fits, fitsM, le_2047] <;> omega) rfl, rfl⟩)

theorem Laws.Encoding.ringsetAdvance (g : Guard) (a : R11) (b : R11) : Laws.Encoding.Statement (.ringsetAdvance g a b) := by
  intro h
  simp only [wellFormed, Bool.and_eq_true, decide_eq_true_eq] at h
  exact trip_R _ _ _ _ _ _ _ _ _ _ _ _ (by decide) (fun fa fb fi f0 => ⟨_, rfl,
    rsv_R _ _ rfl rfl (by simp [fits, fitsM, le_2047] <;> omega) rfl, rfl⟩)

theorem Laws.Encoding.ringsetRd (g : Guard) (d : R11) (b : R11) : Laws.Encoding.Statement (.ringsetRd g d b) := by
  intro h
  simp only [wellFormed, Bool.and_eq_true, decide_eq_true_eq] at h
  exact trip_R _ _ _ _ _ _ _ _ _ _ _ _ (by decide) (fun fa fb fi f0 => ⟨_, rfl,
    rsv_R _ _ rfl rfl (by simp [fits, fitsM, le_2047] <;> omega) rfl, rfl⟩)

theorem Laws.Encoding.tlbinv (g : Guard) (a : R11) (b : R11) : Laws.Encoding.Statement (.tlbinv g a b) := by
  intro h
  simp only [wellFormed, Bool.and_eq_true, decide_eq_true_eq] at h
  exact trip_R _ _ _ _ _ _ _ _ _ _ _ _ (by decide) (fun fa fb fi f0 => ⟨_, rfl,
    rsv_R _ _ rfl rfl (by simp [fits, fitsM, le_2047] <;> omega) rfl, rfl⟩)

theorem Laws.Encoding.icflush (g : Guard) (a : R11) (b : R11) : Laws.Encoding.Statement (.icflush g a b) := by
  intro h
  simp only [wellFormed, Bool.and_eq_true, decide_eq_true_eq] at h
  exact trip_R _ _ _ _ _ _ _ _ _ _ _ _ (by decide) (fun fa fb fi f0 => ⟨_, rfl,
    rsv_R _ _ rfl rfl (by simp [fits, fitsM, le_2047] <;> omega) rfl, rfl⟩)

theorem Laws.Encoding.mcfg (g : Guard) (b c : R11) : Laws.Encoding.Statement (.mcfg g b c) := by
  intro h
  have e : mcfgOk b 0 = true := by
    simp only [wellFormed, mcfgOk, Bool.and_eq_true] at h ⊢
    exact ⟨⟨⟨h.1.1.1, rfl⟩, h.1.2⟩, h.2⟩
  simp only [wellFormed, mcfgOk, Bool.and_eq_true, decide_eq_true_eq] at h
  exact trip_R _ _ _ _ _ _ _ _ _ _ _ _ (by decide) (fun fa fb fi f0 => ⟨_, rfl, rsv_R _ _ rfl rfl (by simp [fits, fitsM] <;> omega)
    (if_pos e), rfl⟩)

theorem Laws.Encoding.mzero (g : Guard) (d : R11) : Laws.Encoding.Statement (.mzero g d) := by
  intro h
  simp only [wellFormed, Bool.and_eq_true, decide_eq_true_eq] at h
  exact trip_R _ _ _ _ _ _ _ _ _ _ _ _ (by decide) (fun fa fb fi f0 => ⟨_, rfl,
    rsv_R _ _ rfl rfl (by simp [fits, fitsM, le_2047] <;> omega) rfl, rfl⟩)

theorem Laws.Encoding.macc (g : Guard) (a : R11) (b : R11) : Laws.Encoding.Statement (.macc g a b) := by
  intro h
  simp only [wellFormed, Bool.and_eq_true, decide_eq_true_eq] at h
  exact trip_R _ _ _ _ _ _ _ _ _ _ _ _ (by decide) (fun fa fb fi f0 => ⟨_, rfl,
    rsv_R _ _ rfl rfl (by simp [fits, fitsM, le_2047] <;> omega) rfl, rfl⟩)

theorem Laws.Encoding.maccZg (g : Guard) (a : R11) (b : R11) : Laws.Encoding.Statement (.maccZg g a b) := by
  intro h
  simp only [wellFormed, Bool.and_eq_true, decide_eq_true_eq] at h
  exact trip_R _ _ _ _ _ _ _ _ _ _ _ _ (by decide) (fun fa fb fi f0 => ⟨_, rfl,
    rsv_R _ _ rfl rfl (by simp [fits, fitsM, le_2047] <;> omega) rfl, rfl⟩)

theorem Laws.Encoding.maccs (g : Guard) (a : R11) (b : R11) : Laws.Encoding.Statement (.maccs g a b) := by
  intro h
  simp only [wellFormed, Bool.and_eq_true, decide_eq_true_eq] at h
  exact trip_R _ _ _ _ _ _ _ _ _ _ _ _ (by decide) (fun fa fb fi f0 => ⟨_, rfl,
    rsv_R _ _ rfl rfl (by simp [fits, fitsM, le_2047] <;> omega) (by simp_all), rfl⟩)

theorem Laws.Encoding.mpush (g : Guard) (d a b c : R11) : Laws.Encoding.Statement (.mpush g d a b c) := by
  intro h
  simp only [wellFormed, Bool.and_eq_true, Bool.or_eq_true, decide_eq_true_eq, bne_iff_ne, ne_eq] at h
  obtain ⟨⟨⟨h1, h2⟩, h3⟩, h4⟩ := h
  refine trip_R _ _ _ _ _ _ _ _ _ _ _ _ (by decide) (fun fa fb fi f0 => ⟨_, rfl, rsv_R _ _ rfl rfl
    ⟨⟨Nat.zero_le _, Nat.le_of_lt_succ h1⟩, ?_, ⟨rfl, Nat.zero_le _, Nat.le_of_lt_succ h2⟩, rfl, Nat.zero_le _, Nat.le_of_lt_succ h3⟩ rfl, rfl⟩)
  have hc : c = 0 ∨ c = 1 ∨ c = 2 := by
    have : c.toNat = 0 ∨ c.toNat = 1 ∨ c.toNat = 2 := by omega
    rcases this with h | h | h
    · exact .inl (BitVec.eq_of_toNat_eq h)
    · exact .inr (.inl (BitVec.eq_of_toNat_eq h))
    · exact .inr (.inr (BitVec.eq_of_toNat_eq h))
  rcases hc with rfl | rfl | rfl
  · exact ⟨rfl, trivial⟩
  · exact ⟨rfl, trivial⟩
  · exact ⟨rfl, Nat.zero_le _, by rcases h4 with h4 | h4 <;> [exact absurd rfl h4; exact Nat.le_of_lt_succ h4]⟩

theorem Laws.Encoding.mshift (g : Guard) (d : R11) : Laws.Encoding.Statement (.mshift g d) := by
  intro h
  simp only [wellFormed, Bool.and_eq_true, decide_eq_true_eq] at h
  exact trip_R _ _ _ _ _ _ _ _ _ _ _ _ (by decide) (fun fa fb fi f0 => ⟨_, rfl,
    rsv_R _ _ rfl rfl (by simp [fits, fitsM, le_2047] <;> omega) rfl, rfl⟩)

theorem Laws.Encoding.mdrain (g : Guard) (d : R11) (a : R11) : Laws.Encoding.Statement (.mdrain g d a) := by
  intro h
  simp only [wellFormed, Bool.and_eq_true, decide_eq_true_eq] at h
  exact trip_R _ _ _ _ _ _ _ _ _ _ _ _ (by decide) (fun fa fb fi f0 => ⟨_, rfl,
    rsv_R _ _ rfl rfl (by simp [fits, fitsM, le_2047] <;> omega) rfl, rfl⟩)

theorem Laws.Encoding.sprune (g : Guard) (a : R11) (b : R11) (c : R11) : Laws.Encoding.Statement (.sprune g a b c) := by
  intro h
  simp only [wellFormed, Bool.and_eq_true, decide_eq_true_eq] at h
  exact trip_R _ _ _ _ _ _ _ _ _ _ _ _ (by decide) (fun fa fb fi f0 => ⟨_, rfl,
    rsv_R _ _ rfl rfl (by simp [fits, fitsM, le_2047] <;> omega) rfl, rfl⟩)

theorem Laws.Encoding.sprunet (g : Guard) (a : R11) (b : R11) (c : R11) : Laws.Encoding.Statement (.sprunet g a b c) := by
  intro h
  simp only [wellFormed, Bool.and_eq_true, decide_eq_true_eq] at h
  exact trip_R _ _ _ _ _ _ _ _ _ _ _ _ (by decide) (fun fa fb fi f0 => ⟨_, rfl,
    rsv_R _ _ rfl rfl (by simp [fits, fitsM, le_2047] <;> omega) rfl, rfl⟩)

theorem Laws.Encoding.sregrow (g : Guard) (a : R11) (b : R11) (c : R11) : Laws.Encoding.Statement (.sregrow g a b c) := by
  intro h
  simp only [wellFormed, Bool.and_eq_true, decide_eq_true_eq] at h
  exact trip_R _ _ _ _ _ _ _ _ _ _ _ _ (by decide) (fun fa fb fi f0 => ⟨_, rfl,
    rsv_R _ _ rfl rfl (by simp [fits, fitsM, le_2047] <;> omega) rfl, rfl⟩)

theorem Laws.Encoding.shdr (g : Guard) (d : R11) (a : R11) : Laws.Encoding.Statement (.shdr g d a) := by
  intro h
  simp only [wellFormed, Bool.and_eq_true, decide_eq_true_eq] at h
  exact trip_R _ _ _ _ _ _ _ _ _ _ _ _ (by decide) (fun fa fb fi f0 => ⟨_, rfl,
    rsv_R _ _ rfl rfl (by simp [fits, fitsM, le_2047] <;> omega) rfl, rfl⟩)

theorem Laws.Encoding.shdrW (g : Guard) (a : R11) (c : R11) : Laws.Encoding.Statement (.shdrW g a c) := by
  intro h
  simp only [wellFormed, Bool.and_eq_true, decide_eq_true_eq] at h
  exact trip_R _ _ _ _ _ _ _ _ _ _ _ _ (by decide) (fun fa fb fi f0 => ⟨_, rfl,
    rsv_R _ _ rfl rfl (by simp [fits, fitsM, le_2047] <;> omega) rfl, rfl⟩)

theorem Laws.Encoding.shdrCk (g : Guard) (a : R11) : Laws.Encoding.Statement (.shdrCk g a) := by
  intro h
  simp only [wellFormed, Bool.and_eq_true, decide_eq_true_eq] at h
  exact trip_R _ _ _ _ _ _ _ _ _ _ _ _ (by decide) (fun fa fb fi f0 => ⟨_, rfl,
    rsv_R _ _ rfl rfl (by simp [fits, fitsM, le_2047] <;> omega) rfl, rfl⟩)

theorem Laws.Encoding.scheck (g : Guard) (d : R11) (a : R11) : Laws.Encoding.Statement (.scheck g d a) := by
  intro h
  simp only [wellFormed, Bool.and_eq_true, decide_eq_true_eq] at h
  exact trip_R _ _ _ _ _ _ _ _ _ _ _ _ (by decide) (fun fa fb fi f0 => ⟨_, rfl,
    rsv_R _ _ rfl rfl (by simp [fits, fitsM, le_2047] <;> omega) rfl, rfl⟩)

theorem Laws.Encoding.sexpand (g : Guard) (a : R11) (b : R11) : Laws.Encoding.Statement (.sexpand g a b) := by
  intro h
  simp only [wellFormed, Bool.and_eq_true, decide_eq_true_eq] at h
  exact trip_R _ _ _ _ _ _ _ _ _ _ _ _ (by decide) (fun fa fb fi f0 => ⟨_, rfl,
    rsv_R _ _ rfl rfl (by simp [fits, fitsM, le_2047] <;> omega) rfl, rfl⟩)

theorem Laws.Encoding.xadd (g : Guard) (d : R11) (a : R11) (b : XB) : Laws.Encoding.Statement (.xadd g d a b) := by
  intro h
  simp only [wellFormed, Bool.and_eq_true, decide_eq_true_eq] at h
  cases b
  all_goals exact trip_R _ _ _ _ _ _ _ _ _ _ _ _ (by decide) (fun fa fb fi f0 => ⟨_, rfl,
    rsv_R _ _ rfl rfl (by simp [fits, fitsM, le_2047, XB.field, XB.code] <;> omega) rfl, rfl⟩)

theorem Laws.Encoding.xmul (g : Guard) (d : R11) (a : R11) (b : XB) : Laws.Encoding.Statement (.xmul g d a b) := by
  intro h
  simp only [wellFormed, Bool.and_eq_true, decide_eq_true_eq] at h
  cases b
  all_goals exact trip_R _ _ _ _ _ _ _ _ _ _ _ _ (by decide) (fun fa fb fi f0 => ⟨_, rfl,
    rsv_R _ _ rfl rfl (by simp [fits, fitsM, le_2047, XB.field, XB.code] <;> omega) rfl, rfl⟩)

theorem Laws.Encoding.xand (g : Guard) (d : R11) (a : R11) (b : XB) : Laws.Encoding.Statement (.xand g d a b) := by
  intro h
  simp only [wellFormed, Bool.and_eq_true, decide_eq_true_eq] at h
  cases b
  all_goals exact trip_R _ _ _ _ _ _ _ _ _ _ _ _ (by decide) (fun fa fb fi f0 => ⟨_, rfl,
    rsv_R _ _ rfl rfl (by simp [fits, fitsM, le_2047, XB.field, XB.code] <;> omega) rfl, rfl⟩)

theorem Laws.Encoding.xshl (g : Guard) (d : R11) (a : R11) (b : XB) : Laws.Encoding.Statement (.xshl g d a b) := by
  intro h
  simp only [wellFormed, Bool.and_eq_true, decide_eq_true_eq] at h
  cases b
  all_goals exact trip_R _ _ _ _ _ _ _ _ _ _ _ _ (by decide) (fun fa fb fi f0 => ⟨_, rfl,
    rsv_R _ _ rfl rfl (by simp [fits, fitsM, le_2047, XB.field, XB.code] <;> omega) rfl, rfl⟩)

theorem Laws.Encoding.xshr (g : Guard) (d : R11) (a : R11) (b : XB) : Laws.Encoding.Statement (.xshr g d a b) := by
  intro h
  simp only [wellFormed, Bool.and_eq_true, decide_eq_true_eq] at h
  cases b
  all_goals exact trip_R _ _ _ _ _ _ _ _ _ _ _ _ (by decide) (fun fa fb fi f0 => ⟨_, rfl,
    rsv_R _ _ rfl rfl (by simp [fits, fitsM, le_2047, XB.field, XB.code] <;> omega) rfl, rfl⟩)

theorem Laws.Encoding.xldp (g : Guard) (d : R11) (a : R11) (imm : Imm) : Laws.Encoding.Statement (.xldp g d a imm) := by
  intro h
  simp only [wellFormed, Bool.and_eq_true, decide_eq_true_eq] at h
  refine trip_I _ _ _ _ _ _ _ _ (by decide) (fun fa fb b c ma mb mc v => ⟨_, rfl,
    rsv_I _ _ _ rfl (esc_ok imm (by simp [h])) rfl ?_ ?_, ?_⟩)
  all_goals first
    | rfl
    | (simp [fits] <;> omega)
    | (show some (Instr.xldp g d a (Fields.imm _ _)) = _; rw [imm_cases imm (by simp [h])] <;> (try simp [bit, szOf, Sz.code]))
    | simp_all

theorem Laws.Encoding.xpush (g : Guard) (gr : Gran) (a : R11) (c : R11) : Laws.Encoding.Statement (.xpush g gr a c) := by
  intro h
  simp only [wellFormed, Bool.and_eq_true, decide_eq_true_eq] at h
  exact trip_R _ _ _ _ _ _ _ _ _ _ _ _ (by decide) (fun fa fb fi f0 => ⟨_, rfl,
    rsv_R _ _ rfl (vars4 _) (by simp [fits, fitsM, le_2047] <;> omega) rfl, Eq.trans (b := some (Instr.xpush g (Gran.ofCode gr.code) a c)) rfl (by simp only [gran_back] <;> rfl)⟩)

theorem Laws.Encoding.xpushNb (g : Guard) (gr : Gran) (d : R11) (a : R11) (c : R11) : Laws.Encoding.Statement (.xpushNb g gr d a c) := by
  intro h
  simp only [wellFormed, Bool.and_eq_true, decide_eq_true_eq] at h
  exact trip_R _ _ _ _ _ _ _ _ _ _ _ _ (by decide) (fun fa fb fi f0 => ⟨_, rfl,
    rsv_R _ _ rfl (vars4 _) (by simp [fits, fitsM, le_2047] <;> omega) rfl, Eq.trans (b := some (Instr.xpushNb g (Gran.ofCode gr.code) d a c)) rfl (by simp only [gran_back] <;> rfl)⟩)

theorem Laws.Encoding.xscat (g : Guard) (gr : Gran) (a : R11) (b : R11) (c : R11) : Laws.Encoding.Statement (.xscat g gr a b c) := by
  intro h
  simp only [wellFormed, Bool.and_eq_true, decide_eq_true_eq] at h
  exact trip_R _ _ _ _ _ _ _ _ _ _ _ _ (by decide) (fun fa fb fi f0 => ⟨_, rfl,
    rsv_R _ _ rfl (vars4 _) (by simp [fits, fitsM, le_2047] <;> omega) rfl, Eq.trans (b := some (Instr.xscat g (Gran.ofCode gr.code) a b c)) rfl (by simp only [gran_back] <;> rfl)⟩)

theorem Laws.Encoding.xscatNb (g : Guard) (gr : Gran) (d : R11) (a : R11) (b : R11) (c : R11) : Laws.Encoding.Statement (.xscatNb g gr d a b c) := by
  intro h
  simp only [wellFormed, Bool.and_eq_true, decide_eq_true_eq] at h
  exact trip_R _ _ _ _ _ _ _ _ _ _ _ _ (by decide) (fun fa fb fi f0 => ⟨_, rfl,
    rsv_R _ _ rfl (vars4 _) (by simp [fits, fitsM, le_2047] <;> omega) rfl, Eq.trans (b := some (Instr.xscatNb g (Gran.ofCode gr.code) d a b c)) rfl (by simp only [gran_back] <;> rfl)⟩)

theorem Laws.Encoding.xscata (g : Guard) (gr : Gran) (a : R11) (b : R11) (c : R11) : Laws.Encoding.Statement (.xscata g gr a b c) := by
  intro h
  simp only [wellFormed, Bool.and_eq_true, decide_eq_true_eq] at h
  exact trip_R _ _ _ _ _ _ _ _ _ _ _ _ (by decide) (fun fa fb fi f0 => ⟨_, rfl,
    rsv_R _ _ rfl (vars4 _) (by simp [fits, fitsM, le_2047] <;> omega) rfl, Eq.trans (b := some (Instr.xscata g (Gran.ofCode gr.code) a b c)) rfl (by simp only [gran_back] <;> rfl)⟩)

theorem Laws.Encoding.xscataNb (g : Guard) (gr : Gran) (d : R11) (a : R11) (b : R11) (c : R11) : Laws.Encoding.Statement (.xscataNb g gr d a b c) := by
  intro h
  simp only [wellFormed, Bool.and_eq_true, decide_eq_true_eq] at h
  exact trip_R _ _ _ _ _ _ _ _ _ _ _ _ (by decide) (fun fa fb fi f0 => ⟨_, rfl,
    rsv_R _ _ rfl (vars4 _) (by simp [fits, fitsM, le_2047] <;> omega) rfl, Eq.trans (b := some (Instr.xscataNb g (Gran.ofCode gr.code) d a b c)) rfl (by simp only [gran_back] <;> rfl)⟩)

theorem Laws.Encoding.xhash (g : Guard) (d : R11) (a : R11) (c : R11) : Laws.Encoding.Statement (.xhash g d a c) := by
  intro h
  simp only [wellFormed, Bool.and_eq_true, decide_eq_true_eq] at h
  exact trip_R _ _ _ _ _ _ _ _ _ _ _ _ (by decide) (fun fa fb fi f0 => ⟨_, rfl,
    rsv_R _ _ rfl rfl (by simp [fits, fitsM, le_2047] <;> omega) rfl, rfl⟩)

theorem Laws.Encoding.xins (g : Guard) (d : R11) (a : R11) (b : R11) (c : R11) : Laws.Encoding.Statement (.xins g d a b c) := by
  intro h
  simp only [wellFormed, Bool.and_eq_true, decide_eq_true_eq] at h
  exact trip_R _ _ _ _ _ _ _ _ _ _ _ _ (by decide) (fun fa fb fi f0 => ⟨_, rfl,
    rsv_R _ _ rfl rfl (by simp [fits, fitsM, le_2047] <;> omega) rfl, rfl⟩)

theorem Laws.Encoding.xwalk (g : Guard) (csr : Bool) (d a c : R11) : Laws.Encoding.Statement (.xwalk g csr d a c) := by
  intro h
  simp only [wellFormed, Bool.and_eq_true, decide_eq_true_eq, bne_iff_ne, ne_eq] at h
  obtain ⟨⟨⟨⟨h1, -⟩, -⟩, h2⟩, h3⟩ := h
  have h4 : ¬ a.toNat = d.toNat + 1 := by
    intro h
    refine h3 (BitVec.eq_of_toNat_eq ?_)
    rw [h, BitVec.toNat_add]
    exact (Nat.mod_eq_of_lt (Nat.lt_of_le_of_lt (Nat.add_le_add_right h1 1) (by decide))).symm
  cases csr
  all_goals refine trip_R _ _ _ _ _ _ _ _ _ _ _ _ (by decide) (fun fa fb fi f0 => ⟨_, rfl, rsv_R _ _ rfl rfl ⟨trivial, ⟨rfl, trivial⟩, ⟨rfl, rfl⟩, rfl, trivial⟩ ?_, rfl⟩)
  all_goals exact if_neg (by simp [h2, h4])

theorem Laws.Encoding.bundleIssue (core : Nat) (fresh : Bool) : Laws.Encoding.Statement (.bundleIssue core fresh) := fun _ => trivial

theorem Laws.Encoding.bundleComplete (core : Nat) (seat : Nat) : Laws.Encoding.Statement (.bundleComplete core seat) := fun _ => trivial

theorem Laws.Encoding.loadDataReturn (core : Nat) (seat : Nat) (id : Nat) : Laws.Encoding.Statement (.loadDataReturn core seat id) := fun _ => trivial

theorem Laws.Encoding.seatSwitch (core : Nat) : Laws.Encoding.Statement (.seatSwitch core) := fun _ => trivial

theorem Laws.Encoding.quantumExpiry (core : Nat) : Laws.Encoding.Statement (.quantumExpiry core) := fun _ => trivial

theorem Laws.Encoding.gearPoint (core : Nat) : Laws.Encoding.Statement (.gearPoint core) := fun _ => trivial

theorem Laws.Encoding.walk (die : Nat) (ten : Nat) (page : Nat) : Laws.Encoding.Statement (.walk die ten page) := fun _ => trivial

theorem Laws.Encoding.walkComplete (die : Nat) (ten : Nat) (page : Nat) : Laws.Encoding.Statement (.walkComplete die ten page) := fun _ => trivial

theorem Laws.Encoding.atomicApply (core : Nat) (seat : Nat) (id : Nat) : Laws.Encoding.Statement (.atomicApply core seat id) := fun _ => trivial

theorem Laws.Encoding.atomicReply (core : Nat) (seat : Nat) (id : Nat) : Laws.Encoding.Statement (.atomicReply core seat id) := fun _ => trivial

theorem Laws.Encoding.requestResend (core : Nat) (seat : Nat) (id : Nat) : Laws.Encoding.Statement (.requestResend core seat id) := fun _ => trivial

theorem Laws.Encoding.phaseRelease (ten : Nat) (lid : Nat) (grp : Nat) : Laws.Encoding.Statement (.phaseRelease ten lid grp) := fun _ => trivial

theorem Laws.Encoding.boardSerialise (core : Nat) (seat : Nat) : Laws.Encoding.Statement (.boardSerialise core seat) := fun _ => trivial

theorem Laws.Encoding.boardReply (core : Nat) (seat : Nat) : Laws.Encoding.Statement (.boardReply core seat) := fun _ => trivial

theorem Laws.Encoding.barrierArrival (core : Nat) (seat : Nat) : Laws.Encoding.Statement (.barrierArrival core seat) := fun _ => trivial

theorem Laws.Encoding.barrierRelease (id : Nat) : Laws.Encoding.Statement (.barrierRelease id) := fun _ => trivial

theorem Laws.Encoding.scaleArrive (core : Nat) (seat : Nat) (id : Nat) : Laws.Encoding.Statement (.scaleArrive core seat id) := fun _ => trivial

theorem Laws.Encoding.ringTileFill (core : Nat) (ring : Nat) : Laws.Encoding.Statement (.ringTileFill core ring) := fun _ => trivial

theorem Laws.Encoding.sparsityCmdComplete (core : Nat) : Laws.Encoding.Statement (.sparsityCmdComplete core) := fun _ => trivial

theorem Laws.Encoding.gatherArrive (core : Nat) (part : GatherPart) : Laws.Encoding.Statement (.gatherArrive core part) := fun _ => trivial

theorem Laws.Encoding.scatterComplete (core : Nat) (seat : Nat) (order : List Nat) : Laws.Encoding.Statement (.scatterComplete core seat order) := fun _ => trivial

theorem Laws.Encoding.copyComplete (r : CopyRef) (order : List Nat) : Laws.Encoding.Statement (.copyComplete r order) := fun _ => trivial

theorem Laws.Encoding.checkedCheck (core : Nat) (seat : Nat) : Laws.Encoding.Statement (.checkedCheck core seat) := fun _ => trivial

theorem Laws.Encoding.trapEntry (core : Nat) (seat : Nat) : Laws.Encoding.Statement (.trapEntry core seat) := fun _ => trivial

theorem Laws.Encoding.suspendSpill (core : Nat) (seat : Nat) : Laws.Encoding.Statement (.suspendSpill core seat) := fun _ => trivial

theorem Laws.Encoding.wakeReady (die : Nat) (rec : Nat) : Laws.Encoding.Statement (.wakeReady die rec) := fun _ => trivial

theorem Laws.Encoding.resume (core : Nat) (seat : Nat) : Laws.Encoding.Statement (.resume core seat) := fun _ => trivial

theorem Laws.Encoding.seatRecord (die : Nat) (rec : Nat) : Laws.Encoding.Statement (.seatRecord die rec) := fun _ => trivial

theorem Laws.Encoding.preemptRequest (core : Nat) (seat : Nat) : Laws.Encoding.Statement (.preemptRequest core seat) := fun _ => trivial

theorem Laws.Encoding.preemptTimeout (core : Nat) (seat : Nat) : Laws.Encoding.Statement (.preemptTimeout core seat) := fun _ => trivial

theorem Laws.Encoding.preemptSpill (core : Nat) (seat : Nat) : Laws.Encoding.Statement (.preemptSpill core seat) := fun _ => trivial

theorem Laws.Encoding.strandKill (core : Nat) (seat : Nat) : Laws.Encoding.Statement (.strandKill core seat) := fun _ => trivial

theorem Laws.Encoding.launchPacket (ten : Nat) (q : Nat) : Laws.Encoding.Statement (.launchPacket ten q) := fun _ => trivial

theorem Laws.Encoding.copyPacket (ten : Nat) (q : Nat) : Laws.Encoding.Statement (.copyPacket ten q) := fun _ => trivial

theorem Laws.Encoding.copyxPacket (ten : Nat) (q : Nat) : Laws.Encoding.Statement (.copyxPacket ten q) := fun _ => trivial

theorem Laws.Encoding.signalPacket (ten : Nat) (q : Nat) : Laws.Encoding.Statement (.signalPacket ten q) := fun _ => trivial

theorem Laws.Encoding.waitallPacket (ten : Nat) (q : Nat) : Laws.Encoding.Statement (.waitallPacket ten q) := fun _ => trivial

theorem Laws.Encoding.launchStart (ten : Nat) (key : Nat) : Laws.Encoding.Statement (.launchStart ten key) := fun _ => trivial

theorem Laws.Encoding.recordCreate (ten : Nat) (lid : Nat) (die : Nat) (base : Nat) (cluster : Nat) : Laws.Encoding.Statement (.recordCreate ten lid die base cluster) := fun _ => trivial

theorem Laws.Encoding.priorityAgeing (ten : Nat) (q : Nat) : Laws.Encoding.Statement (.priorityAgeing ten q) := fun _ => trivial

theorem Laws.Encoding.budgetExpiry (ten : Nat) (key : Nat) : Laws.Encoding.Statement (.budgetExpiry ten key) := fun _ => trivial

theorem Laws.Encoding.launchComplete (ten : Nat) (key : Nat) : Laws.Encoding.Statement (.launchComplete ten key) := fun _ => trivial

theorem Laws.Encoding.crossDieTimeout (core : Nat) (agent : Nat) (id : Nat) : Laws.Encoding.Statement (.crossDieTimeout core agent id) := fun _ => trivial

theorem Laws.Encoding.podPhaseRelease (ten : Nat) (lid : Nat) (peers : List (Nat × Word)) : Laws.Encoding.Statement (.podPhaseRelease ten lid peers) := fun _ => trivial

theorem Laws.Encoding.tenancyKill (ten : Nat) : Laws.Encoding.Statement (.tenancyKill ten) := fun _ => trivial

theorem Laws.Encoding.fumarolePass (die : Nat) : Laws.Encoding.Statement (.fumarolePass die) := fun _ => trivial

theorem Laws.Encoding.fumaroleAbandon (die : Nat) : Laws.Encoding.Statement (.fumaroleAbandon die) := fun _ => trivial

theorem Laws.Encoding.eventSend (die : Nat) : Laws.Encoding.Statement (.eventSend die) := fun _ => trivial

theorem Laws.Encoding.storeApply (core : Nat) (seat : Nat) (id : Nat) : Laws.Encoding.Statement (.storeApply core seat id) := fun _ => trivial

theorem Laws.Encoding.pairReturnToService (die : Nat) (cluster : Nat) : Laws.Encoding.Statement (.pairReturnToService die cluster) := fun _ => trivial

theorem Laws.Encoding.scanSelfTestComplete (die : Nat) (cluster : Nat) (failed : List Nat) : Laws.Encoding.Statement (.scanSelfTestComplete die cluster failed) := fun _ => trivial

theorem Laws.Encoding.debugHalt (core : Nat) (seat : Nat) : Laws.Encoding.Statement (.debugHalt core seat) := fun _ => trivial

theorem Laws.Encoding.linkRetrainComplete (port : Nat) : Laws.Encoding.Statement (.linkRetrainComplete port) := fun _ => trivial

theorem Laws.Encoding.retrainTimeout (port : Nat) : Laws.Encoding.Statement (.retrainTimeout port) := fun _ => trivial

theorem Laws.Encoding.scrub (die : Nat) (ce : List Nat) (ue : List Nat) : Laws.Encoding.Statement (.scrub die ce ue) := fun _ => trivial

theorem Laws.Encoding.semWaitComplete (core : Nat) (sem : Nat) : Laws.Encoding.Statement (.semWaitComplete core sem) := fun _ => trivial

theorem Laws.Encoding.resultWriteback (core : Nat) : Laws.Encoding.Statement (.resultWriteback core) := fun _ => trivial

theorem Laws.Encoding.gearWrite (die : Nat) (value : BitVec 4) : Laws.Encoding.Statement (.gearWrite die value) := fun _ => trivial

theorem Laws.Encoding.bankOpComplete (core : Nat) : Laws.Encoding.Statement (.bankOpComplete core) := fun _ => trivial

theorem Laws.Encoding.deferredTrap (core : Nat) (seat : Nat) : Laws.Encoding.Statement (.deferredTrap core seat) := fun _ => trivial

theorem Laws.Encoding.debugResume (core : Nat) (seat : Nat) : Laws.Encoding.Statement (.debugResume core seat) := fun _ => trivial

theorem Laws.Encoding.debugStep (core : Nat) (seat : Nat) : Laws.Encoding.Statement (.debugStep core seat) := fun _ => trivial

theorem Laws.Encoding.debugAccess (core : Nat) (seat : Nat) (wr : Bool) (what : DbgReg) (n : Nat) (value : Nat) : Laws.Encoding.Statement (.debugAccess core seat wr what n value) := fun _ => trivial

theorem Laws.Encoding.cancel (ten : Nat) (lid : Nat) : Laws.Encoding.Statement (.cancel ten lid) := fun _ => trivial

theorem Laws.Encoding.tcbResetKill (ten : Nat) : Laws.Encoding.Statement (.tcbResetKill ten) := fun _ => trivial

theorem Laws.Encoding.tcbResetUnfreeze (ten : Nat) : Laws.Encoding.Statement (.tcbResetUnfreeze ten) := fun _ => trivial

theorem Laws.Encoding.pageRelease (ten : Nat) (value : Word) : Laws.Encoding.Statement (.pageRelease ten value) := fun _ => trivial

theorem Laws.Encoding.queueEnable (ten : Nat) (q : Nat) (value : Word) : Laws.Encoding.Statement (.queueEnable ten q value) := fun _ => trivial

theorem Laws.Encoding.notifyWrite (ten : Nat) (q : Nat) (slot : Nat) (header : Word) : Laws.Encoding.Statement (.notifyWrite ten q slot header) := fun _ => trivial

theorem Laws.Encoding.tueWrite : Laws.Encoding.Statement (.tueWrite) := fun _ => trivial

theorem Laws.Encoding.flushva : Laws.Encoding.Statement (.flushva) := fun _ => trivial

theorem Laws.Encoding.flushten : Laws.Encoding.Statement (.flushten) := fun _ => trivial

theorem Laws.Encoding.tueRbaseWrite (value : Word) : Laws.Encoding.Statement (.tueRbaseWrite value) := fun _ => trivial

theorem Laws.Encoding.brdcfgCreate (die : Nat) (b : Nat) (value : Word) : Laws.Encoding.Statement (.brdcfgCreate die b value) := fun _ => trivial

theorem Laws.Encoding.brdcfgFree (die : Nat) (b : Nat) : Laws.Encoding.Statement (.brdcfgFree die b) := fun _ => trivial

theorem Laws.Encoding.brdcfgGrant (die : Nat) (b : Nat) (value : Word) : Laws.Encoding.Statement (.brdcfgGrant die b value) := fun _ => trivial

theorem Laws.Encoding.barcfgWrite (id : Nat) (value : Word) : Laws.Encoding.Statement (.barcfgWrite id value) := fun _ => trivial

theorem Laws.Encoding.recareaWrite (die : Nat) (value : Word) : Laws.Encoding.Statement (.recareaWrite die value) := fun _ => trivial

theorem Laws.Encoding.tablebaseWrite (die : Nat) (value : Word) : Laws.Encoding.Statement (.tablebaseWrite die value) := fun _ => trivial

theorem Laws.Encoding.xdtoWrite (value : Word) : Laws.Encoding.Statement (.xdtoWrite value) := fun _ => trivial

theorem Laws.Encoding.keydatWrite (value : Word) : Laws.Encoding.Statement (.keydatWrite value) := fun _ => trivial

theorem Laws.Encoding.regWrite (fn : Nat) (off : Nat) (value : Word) : Laws.Encoding.Statement (.regWrite fn off value) := fun _ => trivial

theorem Laws.Encoding.peerLoss (m : Nat) : Laws.Encoding.Statement (.peerLoss m) := fun _ => trivial

theorem Laws.Encoding.laneFault (port : Nat) (lane : Nat) : Laws.Encoding.Statement (.laneFault port lane) := fun _ => trivial

theorem Laws.Encoding.linkRetrain (port : Nat) : Laws.Encoding.Statement (.linkRetrain port) := fun _ => trivial

theorem Laws.Encoding.flitReplay (port : Nat) : Laws.Encoding.Statement (.flitReplay port) := fun _ => trivial

theorem Laws.Encoding.fabricRequestIn (key : Nat) (req : FabReq) : Laws.Encoding.Statement (.fabricRequestIn key req) := fun _ => trivial

theorem Laws.Encoding.hostAccess (fn : Nat) (va : Nat) (n : Nat) (op : HostOp) (value : Nat) : Laws.Encoding.Statement (.hostAccess fn va n op value) := fun _ => trivial

theorem Laws.Encoding.atsInvalidate (fn : Nat) (page : Nat) : Laws.Encoding.Statement (.atsInvalidate fn page) := fun _ => trivial

theorem Laws.Encoding.pcieLinkDegrade : Laws.Encoding.Statement (.pcieLinkDegrade) := fun _ => trivial

theorem Laws.Encoding.ueConsume (ten : Nat) (lid : Nat) (cls : Nat) (agent : Nat) (pa : Nat) (va : Nat) : Laws.Encoding.Statement (.ueConsume ten lid cls agent pa va) := fun _ => trivial

theorem Laws.Encoding.ce (die : Nat) (place : Nat) : Laws.Encoding.Statement (.ce die place) := fun _ => trivial

theorem Laws.Encoding.pairCheckpoint (die : Nat) (cluster : Nat) : Laws.Encoding.Statement (.pairCheckpoint die cluster) := fun _ => trivial

theorem Laws.Encoding.pairMismatch (die : Nat) (cluster : Nat) : Laws.Encoding.Statement (.pairMismatch die cluster) := fun _ => trivial

theorem Laws.Encoding.eventPost (die : Nat) (ty : Nat) (ten : Nat) (place : Nat) : Laws.Encoding.Statement (.eventPost die ty ten place) := fun _ => trivial

theorem Laws.Encoding.eventRetry (die : Nat) : Laws.Encoding.Statement (.eventRetry die) := fun _ => trivial

theorem Laws.Encoding.packageReset : Laws.Encoding.Statement (.packageReset) := fun _ => trivial

theorem Laws.Encoding.bringupLevel : Laws.Encoding.Statement (.bringupLevel) := fun _ => trivial

theorem Laws.Encoding.bringupFail : Laws.Encoding.Statement (.bringupFail) := fun _ => trivial

theorem Laws.Encoding.measuredBoot (image : Nat) (digest : BitVec 512) (valid : Bool) : Laws.Encoding.Statement (.measuredBoot image digest valid) := fun _ => trivial

theorem Laws.Encoding.spdmKeyBind (key : Nat) (ten : Nat) : Laws.Encoding.Statement (.spdmKeyBind key ten) := fun _ => trivial

theorem Laws.Encoding.peerRemoveDeclare (m : Nat) : Laws.Encoding.Statement (.peerRemoveDeclare m) := fun _ => trivial

theorem Laws.Encoding.lineWriteBack (line : Nat) : Laws.Encoding.Statement (.lineWriteBack line) := fun _ => trivial

theorem Laws.Encoding.linkUp (port : Nat) : Laws.Encoding.Statement (.linkUp port) := fun _ => trivial

theorem Laws.Encoding.pcieRetrainComplete : Laws.Encoding.Statement (.pcieRetrainComplete) := fun _ => trivial

theorem Laws.Encoding.hostLinkReturn : Laws.Encoding.Statement (.hostLinkReturn) := fun _ => trivial

theorem Laws.Encoding.dieDebugHalt (die : Nat) : Laws.Encoding.Statement (.dieDebugHalt die) := fun _ => trivial

theorem Laws.Encoding.dieDebugResume (die : Nat) : Laws.Encoding.Statement (.dieDebugResume die) := fun _ => trivial

theorem Laws.Encoding.routeTableWrite (m : Nat) (value : Word) : Laws.Encoding.Statement (.routeTableWrite m value) := fun _ => trivial

end Sys2Proof
end

