-- ==== Sys2Proof/Tests/Slice0.lean ====
section
/-! SUPPORT. The package's own tests: words decoded as the spec encodes them, ill-formed terms refused, and for every statement with
hypotheses a state and operands that meet them. -/

namespace Sys2Proof.Tests

open Sys2Proof Sys2Proof.Machine

set_option Elab.async false
set_option linter.all false

/-! ## Decoding (R35 to R52) -/

/-- Two guards: always, and NOT q5. -/
def g : Guard := ⟨false, 0⟩
def h : Guard := ⟨true, 5⟩

/-- The instruction that a word of a slot decodes to, for a seat with every register, the M claim, and BF16 operands. -/
def reads (slot : Slot) (w : Word) : Option Instr :=
  match decodeSyl .full slot w none with
  | .ok x => some x.instr
  | .error _ => none

/-- Whether each word decodes to the instruction beside it. -/
def readsAll (slot : Slot) (l : List (Word × Instr)) : Bool := l.all (fun p => reads slot p.1 == some p.2)

/-- Words of the C slot, built field by field from R36 to R39 and the C map. -/
theorem test_decode_c0 : readsAll .c [
    (0x000000003FFFFFF4, .br g (.short 0x1FFFFFFA)),
    (0x01000005BFFFFFF5, .brq g true 22 (.short 0x1FFFFFFA)),
    (0x02D0000580000000, .jmp h 22),
    (0x030006003FFFFFF4, .call g 3 (.short 0x1FFFFFFA)),
    (0x0400060580000000, .calli g 3 22),
    (0x05D0000580000000, .ret h 22),
    (0x0600000580680000, .suspend g 22 13),
    (0x0700000000000000, .yield g),
    (0x08D0000000000000, .halt h),
    (0x090000000001FFFE, .trap g (.short 0xFFFF)),
    (0x0A00000000000000, .tret g),
    (0x0BD0000000000000, .brk h)] = true := by decide +kernel

/-- Words of the I slot, built field by field from R36 to R39 and the I map. -/
theorem test_decode_i0 : readsAll .i [
    (0x0100060580680000, .sub g .i 3 22 13),
    (0x0300060580680000, .mul g .i 3 22 13),
    (0x05D0060580680000, .mulhu h .i 3 22 13),
    (0x0700060580680000, .or g .i 3 22 13),
    (0x0900060580680000, .andn g .i 3 22 13),
    (0x0BD0060580680000, .shr h .i 3 22 13),
    (0x0D00060580680000, .rot g .i 3 22 13),
    (0x0F00060580680000, .max g .i 3 22 13),
    (0x11D0060580680000, .maxu h .i 3 22 13),
    (0x1300060580000000, .popc g .i 3 22),
    (0x1500060581F80100, .bfi g .i 3 22 63 1),
    (0x17D0020580680400, .cmp h .i 1 22 13 4)] = true := by decide +kernel

/-- Words of the I slot, built field by field from R36 to R39 and the I map. -/
theorem test_decode_i1 : readsAll .i [
    (0x22000605BFFFFFF5, .ldg g .b4 true 3 22 (.short 0x1FFFFFFA)),
    (0x26D00605BFFFFFF4, .stg h .b4 3 22 (.short 0x1FFFFFFA)),
    (0x2A00060580680002, .ldga g .b4 .pkg 3 22 13),
    (0x2E00060580680002, .stgl g .b4 .pkg 3 22 13),
    (0x46D00005BFFFFFF5, .pref h true 22 (.short 0x1FFFFFFA)),
    (0x31D0060580680002, .agadd h .w64 .rel 3 22 13),
    (0x3300060580680002, .agincw g .w64 .rel 3 22 13),
    (0x3504080580680702, .agaddb g .w64 .rel 516 22 13 7),
    (0x37D0060580680702, .agcas h .w64 .rel 3 22 13 7),
    (0x3900060580680002, .agxch g .w64 .rel 3 22 13),
    (0x3B00060580680002, .agmin g .w64 .rel 3 22 13),
    (0x3DD0060580680002, .agmax h .w64 .rel 3 22 13)] = true := by decide +kernel

/-- Words of the I slot, built field by field from R36 to R39 and the I map. -/
theorem test_decode_i2 : readsAll .i [
    (0x3F00060580680002, .agand g .w64 .rel 3 22 13),
    (0x4100060580680002, .agor g .w64 .rel 3 22 13),
    (0x43D0060580680002, .agxor h .w64 .rel 3 22 13),
    (0x4500060580680002, .agfadd g .bf .rel 3 22 13)] = true := by decide +kernel

/-- Words of the J slot, built field by field from R36 to R39 and the J map. -/
theorem test_decode_j0 : readsAll .j [
    (0x0000060580680000, .add g .j 3 22 13),
    (0x02D00605BFFFFFF4, .addi h .j 3 22 (.short 0x1FFFFFFA)),
    (0x0400060580680000, .mulh g .j 3 22 13),
    (0x0600060580680000, .and g .j 3 22 13),
    (0x08D0060580680000, .xor h .j 3 22 13),
    (0x0A00060580680000, .shl g .j 3 22 13),
    (0x0C00060580680000, .sar g .j 3 22 13),
    (0x0ED0060580680000, .min h .j 3 22 13),
    (0x1000060580680000, .minu g .j 3 22 13),
    (0x1200060580000000, .clz g .j 3 22),
    (0x14D0060580400C00, .bfx h .j 3 22 8 12),
    (0x160006003FFFFFF4, .li g .j 3 (.short 0x1FFFFFFA))] = true := by decide +kernel

/-- Words of the J slot, built field by field from R36 to R39 and the J map. -/
theorem test_decode_j1 : readsAll .j [
    (0x1800060580680700, .sel g .j 3 22 13 7),
    (0x22000605BFFFFFF5, .ldp g .b4 true 3 22 (.short 0x1FFFFFFA)),
    (0x26000605BFFFFFF4, .stp g .b4 3 22 (.short 0x1FFFFFFA)),
    (0x2AD0060580680002, .ldpa h .b4 .pkg 3 22 13),
    (0x2E00060580680002, .stpl g .b4 .pkg 3 22 13),
    (0x40000805BFFFFFF4, .sqld g 4 22 (.short 0x1FFFFFFA)),
    (0x3100060580680002, .apadd g .w64 .rel 3 22 13),
    (0x33D0060580680002, .apincw h .w64 .rel 3 22 13),
    (0x3504080580680702, .apaddb g .w64 .rel 516 22 13 7),
    (0x3700060580680702, .apcas g .w64 .rel 3 22 13 7),
    (0x39D0060580680002, .apxch h .w64 .rel 3 22 13),
    (0x3B00060580680002, .apmin g .w64 .rel 3 22 13)] = true := by decide +kernel

/-- Words of the J slot, built field by field from R36 to R39 and the J map. -/
theorem test_decode_j2 : readsAll .j [
    (0x3D00060580680002, .apmax g .w64 .rel 3 22 13),
    (0x3FD0060580680002, .apfadd h .bf .rel 3 22 13)] = true := by decide +kernel

/-- Words of the F slot, built field by field from R36 to R39 and the F map. -/
theorem test_decode_f0 : readsAll .f [
    (0x0200060580680003, .fadd g .bf .rd 3 22 13),
    (0x0600060580680003, .fsub g .bf .rd 3 22 13),
    (0x0AD0060580680003, .fmul h .bf .rd 3 22 13),
    (0x0E00060580680703, .ffma g .bf .rd 3 22 13 7),
    (0x1200060580680003, .fdiv g .bf .rd 3 22 13),
    (0x16D0060580000003, .fsqrt h .bf .rd 3 22),
    (0x1A00060580000003, .frsq g .bf .rd 3 22),
    (0x1E00060580680000, .fmin g .bf 3 22 13),
    (0x22D0060580680000, .fmax h .bf 3 22 13),
    (0x2600060580000000, .fabs g .bf 3 22),
    (0x2A00060580000000, .fneg g .bf 3 22),
    (0x2ED0020580680300, .fcmp h .bf 1 22 13 3)] = true := by decide +kernel

/-- Words of the F slot, built field by field from R36 to R39 and the F map. -/
theorem test_decode_f1 : readsAll .f [
    (0x320002058AA80000, .fclass g .bf 1 22 341),
    (0x4000060580001003, .fcvt g .rd 3 22 0 16),
    (0x41D0060580680700, .fsel h 3 22 13 7),
    (0x420006003FFFFFF4, .fli g 3 (.short 0x1FFFFFFA)),
    (0x420006003FFFFFF5, .fliHi g 3 (.short 0x1FFFFFFA))] = true := by decide +kernel

/-- Words of the V slot, built field by field from R36 to R39 and the V map. -/
theorem test_decode_v0 : readsAll .v [
    (0x02D006050C280073, .vadd h .v .bf .rd 3 (.cap 20) (.ind 3 5)),
    (0x0A0006050C280073, .vmul g .v .bf .rd 3 (.cap 20) (.ind 3 5)),
    (0x120006050C2C007B, .vfms g .v .bf .rd 3 (.cap 20) (.ind 3 5) .fl),
    (0x22D006050C2C007B, .vfmaZg h .v .bf .rd 3 (.cap 20) (.ind 3 5) .fl),
    (0x160006050C280070, .vmin g .v .bf 3 (.cap 20) (.ind 3 5)),
    (0x2A00060500000040, .vabs g .v .bf 3 (.cap 20)),
    (0x32D006050C280570, .vcmp h .v .bf 3 (.cap 20) (.ind 3 5) 5),
    (0x32000E050C280072, .vcmpAll g .v .bf 7 (.cap 20) (.ind 3 5) 0),
    (0x360006050C2C007B, .vdot g .v .bf .rd 3 (.cap 20) (.ind 3 5) .fl),
    (0x3ED0060500000043, .vscan h .v .bf .rd 3 (.cap 20)),
    (0x4600060500000040, .vlog2 g .v .bf 3 (.cap 20)),
    (0x4E00060500000040, .vrsq g .v .bf 3 (.cap 20))] = true := by decide +kernel

/-- Words of the V slot, built field by field from R36 to R39 and the V map. -/
theorem test_decode_v1 : readsAll .v [
    (0x52D006050C2C0078, .vperm h .v 3 (.cap 20) (.ind 3 5) .fl),
    (0x5400060500680040, .vrotl g .v 3 (.cap 20) 13),
    (0x560006050C280071, .vimul g .v .w16 3 (.cap 20) (.ind 3 5)),
    (0x58D006050C280070, .vor h .v 3 (.cap 20) (.ind 3 5)),
    (0x5A0006050C280071, .vshl g .v .w16 3 (.cap 20) (.ind 3 5)),
    (0x5C00060000680700, .vidx g .v 3 13 7),
    (0x5DD00603C0680001, .vsetxAdd h .v 3 15 13),
    (0x5E00060000000000, .vpopq g .v 3),
    (0x61000603FFFFFFF5, .vstp g .v true 3 15 (.short 0x1FFFFFFA))] = true := by decide +kernel

/-- Words of the W slot, built field by field from R36 to R39 and the W map. -/
theorem test_decode_w0 : readsAll .w [
    (0x060006050C280073, .vsub g .w .bf .rd 3 (.cap 20) (.ind 3 5)),
    (0x0ED006050C2C007B, .vfma h .w .bf .rd 3 (.cap 20) (.ind 3 5) .fl),
    (0x1E0006050C280073, .vmulZg g .w .bf .rd 3 (.cap 20) (.ind 3 5)),
    (0x260006050C2C007B, .vfmsZg g .w .bf .rd 3 (.cap 20) (.ind 3 5) .fl),
    (0x1AD006050C280070, .vmax h .w .bf 3 (.cap 20) (.ind 3 5)),
    (0x2E00060500000040, .vneg g .w .bf 3 (.cap 20)),
    (0x32000E050C280571, .vcmpAny g .w .bf 7 (.cap 20) (.ind 3 5) 5),
    (0x51D006050C2C0079, .vsel h .w .w16 3 (.cap 20) (.ind 3 5) .fl),
    (0x3A00060500000043, .vred g .w .bf .rd 3 (.cap 20)),
    (0x4200060500000040, .vexp2 g .w .bf 3 (.cap 20)),
    (0x4AD0060500000040, .vrcp h .w .bf 3 (.cap 20)),
    (0x5000060500001043, .vcvt g .w .rd 3 (.cap 20) 0 16)] = true := by decide +kernel

/-- Words of the W slot, built field by field from R36 to R39 and the W map. -/
theorem test_decode_w1 : readsAll .w [
    (0x5300060500780041, .vbcast g .w .w16 3 (.cap 20) 15),
    (0x55D006050C280071, .viadd h .w .w16 3 (.cap 20) (.ind 3 5)),
    (0x570006050C280070, .vand g .w 3 (.cap 20) (.ind 3 5)),
    (0x590006050C280070, .vxor g .w 3 (.cap 20) (.ind 3 5)),
    (0x5BD006050C280071, .vshr h .w .w16 3 (.cap 20) (.ind 3 5)),
    (0x5D00060501F80040, .vsetx g .w 3 (.cap 20) 63),
    (0x5D00060000680002, .vsetxLi g .w 3 13),
    (0x60D00603FFFFFFF5, .vldp h .w true 3 15 (.short 0x1FFFFFFA)),
    (0x62000605BFFFFFF5, .vldps g .w true 3 22 (.short 0x1FFFFFFA))] = true := by decide +kernel

/-- Words of the M slot, built field by field from R36 to R39 and the M map. -/
theorem test_decode_m0 : readsAll .m [
    (0x0000000001100100, .mcfg g 34 1),
    (0x0100020000000000, .mzero g 1),
    (0x02D00003C0680000, .macc h 15 13),
    (0x03000003C0680000, .maccZg g 15 13),
    (0x04000003C0680000, .maccs g 15 13),
    (0x05D0020300280000, .mpush h 1 12 5 0),
    (0x0600020000000000, .mshift g 1),
    (0x0700080240000000, .mdrain g 4 9)] = true := by decide +kernel

/-- Words of the X slot, built field by field from R36 to R39 and the X map. -/
theorem test_decode_x0 : readsAll .x [
    (0x00000605BFF80001, .xadd g 3 22 (.lit 2047)),
    (0x01D00605BFF80001, .xmul h 3 22 (.lit 2047)),
    (0x02000605BFF80001, .xand g 3 22 (.lit 2047)),
    (0x03000605BFF80001, .xshl g 3 22 (.lit 2047)),
    (0x04D00605BFF80001, .xshr h 3 22 (.lit 2047)),
    (0x05000605BFFFFFF4, .xldp g 3 22 (.short 0x1FFFFFFA)),
    (0x0600000580000702, .xpush g .g64 22 7),
    (0x07D0060580000702, .xpushNb h .g64 3 22 7),
    (0x0800000580680702, .xscat g .g64 22 13 7),
    (0x0900060580680702, .xscatNb g .g64 3 22 13 7),
    (0x0AD0000580680702, .xscata h .g64 22 13 7),
    (0x0B00060580680702, .xscataNb g .g64 3 22 13 7)] = true := by decide +kernel

/-- Words of the X slot, built field by field from R36 to R39 and the X map. -/
theorem test_decode_x1 : readsAll .x [
    (0x0C00060580000700, .xhash g 3 22 7),
    (0x0DD0060580680700, .xins h 3 22 13 7),
    (0x0E00060580000701, .xwalk g true 3 22 7)] = true := by decide +kernel

/-- Words of the S slot, built field by field from R36 to R39 and the S map. -/
theorem test_decode_s0 : readsAll .s [
    (0x00D0000580680700, .sprune h 22 13 7),
    (0x0100000580680700, .sprunet g 22 13 7),
    (0x0200000580680700, .sregrow g 22 13 7),
    (0x03D0060580000000, .shdr h 3 22),
    (0x0300000580000701, .shdrW g 22 7),
    (0x0300000580000002, .shdrCk g 22),
    (0x04D0060580000000, .scheck h 3 22),
    (0x0500000580680000, .sexpand g 22 13)] = true := by decide +kernel

/-- Words of the E slot, built field by field from R36 to R39 and the E map. -/
theorem test_decode_e0 : readsAll .e [
    (0x000006003FFFFFF4, .eli g 3 (.short 0x1FFFFFFA)),
    (0x01D0060580680000, .eadd h 3 22 13),
    (0x0200060580000000, .emov g 3 22),
    (0x1400060000000080, .csrrd g 3 (.short 0x40)),
    (0x15D0000580000082, .csrwr h 22 (.short 0x41)),
    (0x07000A3FC001FFFF, .semsig g true 5 255 (.short 0xFFFF)),
    (0x0800003FC0000002, .semwait g 255 (.short 0x1)),
    (0x13D0000000000003, .fence h .sys .ar),
    (0x0E00060000000000, .phase g 3),
    (0x0F00060580780000, .launch g 3 22 15),
    (0x03D0060640380000, .copy h 3 25 7),
    (0x0400060580380000, .copyp g 3 22 7)] = true := by decide +kernel

/-- Words of the E slot, built field by field from R36 to R39 and the E map. -/
theorem test_decode_e1 : readsAll .e [
    (0x0500000580480000, .cwait g 22 9 0),
    (0x06D0060000480000, .tlrd h 3 9 0),
    (0x0600060000480001, .tlrdErr g 3 9 0),
    (0x0600060000480002, .tlrdErrc g 3 9 0),
    (0x09D2060580680700, .bpost h 259 22 13 7),
    (0x0A02060580000000, .bview g 259 22),
    (0x0A000601C0680001, .bviewWord g 3 7 13),
    (0x0BD0060580680700, .bread h 3 22 13 7),
    (0x0C00060580680000, .badv g 3 22 13),
    (0x0D00060580000000, .barr g 3 22),
    (0x16D0000580780500, .strset h 22 15 5),
    (0x1700000580780300, .strtap g 22 15 3)] = true := by decide +kernel

/-- Words of the E slot, built field by field from R36 to R39 and the E map. -/
theorem test_decode_e2 : readsAll .e [
    (0x1800000580380000, .ringsetGeom g 22 7),
    (0x18D0000580380100, .ringsetAdvance h 22 7),
    (0x1800060000380200, .ringsetRd g 3 7),
    (0x1900000580680000, .tlbinv g 22 13),
    (0x1AD0000580680000, .icflush h 22 13)] = true := by decide +kernel

/-- Words of the K slot, built field by field from R36 to R39 and the K map. -/
theorem test_decode_k0 : readsAll .k [
    (0x00D0060580000100, .kmov h .i .j 3 22),
    (0x0100060580004500, .kvec g .v .w 3 22),
    (0x0200060580682500, .kext g .f .w 3 22 13),
    (0x03D0060580684000, .kins h .v .i 3 22 13),
    (0x0400060580005300, .kbc g .w .e 3 22)] = true := by decide +kernel
/-! ## Ill-formed terms, one for each check of WellFormed -/

/-- Whether WellFormed refuses every term. -/
def allRefused (l : List Instr) : Bool := l.all (fun i => !wellFormed i)

/-- Terms of the C slot with one field outside its range. -/
theorem test_illformed_c0 : allRefused [
    .brq g true 64 (.short 0x1FFFFFFA),
    .jmp h 64,
    .call g 64 (.short 0x1FFFFFFA),
    .calli g 64 22,
    .calli g 3 64,
    .ret h 64,
    .suspend g 64 13,
    .suspend g 22 64,
    .br g (.short Imm.escape),
    .brq g true 22 (.short Imm.escape),
    .call g 3 (.short Imm.escape),
    .trap g (.short Imm.escape),
    .trap g (.short 65536)] = true := by decide +kernel

/-- Terms of the I slot with one field outside its range. -/
theorem test_illformed_i0 : allRefused [
    .sub g .i 64 22 13,
    .sub g .i 3 64 13,
    .sub g .i 3 22 64,
    .mul g .i 64 22 13,
    .mul g .i 3 64 13,
    .mul g .i 3 22 64,
    .mulhu h .i 64 22 13,
    .mulhu h .i 3 64 13,
    .mulhu h .i 3 22 64,
    .or g .i 64 22 13,
    .or g .i 3 64 13,
    .or g .i 3 22 64,
    .andn g .i 64 22 13,
    .andn g .i 3 64 13,
    .andn g .i 3 22 64,
    .shr h .i 64 22 13,
    .shr h .i 3 64 13,
    .shr h .i 3 22 64,
    .rot g .i 64 22 13,
    .rot g .i 3 64 13,
    .rot g .i 3 22 64,
    .max g .i 64 22 13,
    .max g .i 3 64 13,
    .max g .i 3 22 64,
    .maxu h .i 64 22 13,
    .maxu h .i 3 64 13,
    .maxu h .i 3 22 64,
    .popc g .i 64 22,
    .popc g .i 3 64,
    .bfi g .i 64 22 63 1,
    .bfi g .i 3 64 63 1,
    .bfi g .i 3 22 64 1,
    .cmp h .i 8 22 13 4,
    .cmp h .i 1 64 13 4,
    .cmp h .i 1 22 64 4,
    .cmp h .i 1 22 13 6,
    .ldg g .b4 true 64 22 (.short 0x1FFFFFFA),
    .ldg g .b4 true 3 64 (.short 0x1FFFFFFA),
    .stg h .b4 64 22 (.short 0x1FFFFFFA),
    .stg h .b4 3 64 (.short 0x1FFFFFFA)] = true := by decide +kernel

theorem test_illformed_i1 : allRefused [
    .ldga g .b4 .pkg 64 22 13,
    .ldga g .b4 .pkg 3 64 13,
    .ldga g .b4 .pkg 3 22 64,
    .stgl g .b4 .pkg 64 22 13,
    .stgl g .b4 .pkg 3 64 13,
    .stgl g .b4 .pkg 3 22 64,
    .pref h true 64 (.short 0x1FFFFFFA),
    .agadd h .w64 .rel 64 22 13,
    .agadd h .w64 .rel 3 64 13,
    .agadd h .w64 .rel 3 22 64,
    .agincw g .w64 .rel 64 22 13,
    .agincw g .w64 .rel 3 64 13,
    .agincw g .w64 .rel 3 22 64,
    .agaddb g .w64 .rel 516 64 13 7,
    .agaddb g .w64 .rel 516 22 64 7,
    .agaddb g .w64 .rel 516 22 13 64,
    .agcas h .w64 .rel 64 22 13 7,
    .agcas h .w64 .rel 3 64 13 7,
    .agcas h .w64 .rel 3 22 64 7,
    .agcas h .w64 .rel 3 22 13 64,
    .agxch g .w64 .rel 64 22 13,
    .agxch g .w64 .rel 3 64 13,
    .agxch g .w64 .rel 3 22 64,
    .agmin g .w64 .rel 64 22 13,
    .agmin g .w64 .rel 3 64 13,
    .agmin g .w64 .rel 3 22 64,
    .agmax h .w64 .rel 64 22 13,
    .agmax h .w64 .rel 3 64 13,
    .agmax h .w64 .rel 3 22 64,
    .agand g .w64 .rel 64 22 13,
    .agand g .w64 .rel 3 64 13,
    .agand g .w64 .rel 3 22 64,
    .agor g .w64 .rel 64 22 13,
    .agor g .w64 .rel 3 64 13,
    .agor g .w64 .rel 3 22 64,
    .agxor h .w64 .rel 64 22 13,
    .agxor h .w64 .rel 3 64 13,
    .agxor h .w64 .rel 3 22 64,
    .agfadd g .bf .rel 64 22 13,
    .agfadd g .bf .rel 3 64 13] = true := by decide +kernel

theorem test_illformed_i2 : allRefused [
    .agfadd g .bf .rel 3 22 64,
    .bfi g .i 3 22 63 0,
    .bfi g .i 3 22 63 65,
    .ldg g .b4 true 3 22 (.short Imm.escape),
    .ldg g .b8 true 3 22 (.short 0x1FFFFFFA),
    .stg h .b4 3 22 (.short Imm.escape),
    .pref h true 22 (.short Imm.escape),
    .agaddb g .w64 .rel 64 22 13 7] = true := by decide +kernel

/-- Terms of the J slot with one field outside its range. -/
theorem test_illformed_j0 : allRefused [
    .add g .j 64 22 13,
    .add g .j 3 64 13,
    .add g .j 3 22 64,
    .addi h .j 64 22 (.short 0x1FFFFFFA),
    .addi h .j 3 64 (.short 0x1FFFFFFA),
    .mulh g .j 64 22 13,
    .mulh g .j 3 64 13,
    .mulh g .j 3 22 64,
    .and g .j 64 22 13,
    .and g .j 3 64 13,
    .and g .j 3 22 64,
    .xor h .j 64 22 13,
    .xor h .j 3 64 13,
    .xor h .j 3 22 64,
    .shl g .j 64 22 13,
    .shl g .j 3 64 13,
    .shl g .j 3 22 64,
    .sar g .j 64 22 13,
    .sar g .j 3 64 13,
    .sar g .j 3 22 64,
    .min h .j 64 22 13,
    .min h .j 3 64 13,
    .min h .j 3 22 64,
    .minu g .j 64 22 13,
    .minu g .j 3 64 13,
    .minu g .j 3 22 64,
    .clz g .j 64 22,
    .clz g .j 3 64,
    .bfx h .j 64 22 8 12,
    .bfx h .j 3 64 8 12,
    .bfx h .j 3 22 64 12,
    .li g .j 64 (.short 0x1FFFFFFA),
    .sel g .j 64 22 13 7,
    .sel g .j 3 64 13 7,
    .sel g .j 3 22 64 7,
    .sel g .j 3 22 13 8,
    .ldp g .b4 true 64 22 (.short 0x1FFFFFFA),
    .ldp g .b4 true 3 64 (.short 0x1FFFFFFA),
    .stp g .b4 64 22 (.short 0x1FFFFFFA),
    .stp g .b4 3 64 (.short 0x1FFFFFFA)] = true := by decide +kernel

theorem test_illformed_j1 : allRefused [
    .ldpa h .b4 .pkg 64 22 13,
    .ldpa h .b4 .pkg 3 64 13,
    .ldpa h .b4 .pkg 3 22 64,
    .stpl g .b4 .pkg 64 22 13,
    .stpl g .b4 .pkg 3 64 13,
    .stpl g .b4 .pkg 3 22 64,
    .sqld g 4 64 (.short 0x1FFFFFFA),
    .apadd g .w64 .rel 64 22 13,
    .apadd g .w64 .rel 3 64 13,
    .apadd g .w64 .rel 3 22 64,
    .apincw h .w64 .rel 64 22 13,
    .apincw h .w64 .rel 3 64 13,
    .apincw h .w64 .rel 3 22 64,
    .apaddb g .w64 .rel 516 64 13 7,
    .apaddb g .w64 .rel 516 22 64 7,
    .apaddb g .w64 .rel 516 22 13 64,
    .apcas g .w64 .rel 64 22 13 7,
    .apcas g .w64 .rel 3 64 13 7,
    .apcas g .w64 .rel 3 22 64 7,
    .apcas g .w64 .rel 3 22 13 64,
    .apxch h .w64 .rel 64 22 13,
    .apxch h .w64 .rel 3 64 13,
    .apxch h .w64 .rel 3 22 64,
    .apmin g .w64 .rel 64 22 13,
    .apmin g .w64 .rel 3 64 13,
    .apmin g .w64 .rel 3 22 64,
    .apmax g .w64 .rel 64 22 13,
    .apmax g .w64 .rel 3 64 13,
    .apmax g .w64 .rel 3 22 64,
    .apfadd h .bf .rel 64 22 13,
    .apfadd h .bf .rel 3 64 13,
    .apfadd h .bf .rel 3 22 64,
    .addi h .j 3 22 (.short Imm.escape),
    .bfx h .j 3 22 8 0,
    .bfx h .j 3 22 8 65,
    .li g .j 3 (.short Imm.escape),
    .ldp g .b4 true 3 22 (.short Imm.escape),
    .ldp g .b8 true 3 22 (.short 0x1FFFFFFA),
    .stp g .b4 3 22 (.short Imm.escape),
    .sqld g 4 22 (.short Imm.escape)] = true := by decide +kernel

theorem test_illformed_j2 : allRefused [
    .sqld g 0 22 (.short 0x1FFFFFFA),
    .sqld g 5 22 (.short 0x1FFFFFFA),
    .apaddb g .w64 .rel 64 22 13 7] = true := by decide +kernel

/-- Terms of the F slot with one field outside its range. -/
theorem test_illformed_f0 : allRefused [
    .fadd g .bf .rd 64 22 13,
    .fadd g .bf .rd 3 64 13,
    .fadd g .bf .rd 3 22 64,
    .fsub g .bf .rd 64 22 13,
    .fsub g .bf .rd 3 64 13,
    .fsub g .bf .rd 3 22 64,
    .fmul h .bf .rd 64 22 13,
    .fmul h .bf .rd 3 64 13,
    .fmul h .bf .rd 3 22 64,
    .ffma g .bf .rd 64 22 13 7,
    .ffma g .bf .rd 3 64 13 7,
    .ffma g .bf .rd 3 22 64 7,
    .ffma g .bf .rd 3 22 13 64,
    .fdiv g .bf .rd 64 22 13,
    .fdiv g .bf .rd 3 64 13,
    .fdiv g .bf .rd 3 22 64,
    .fsqrt h .bf .rd 64 22,
    .fsqrt h .bf .rd 3 64,
    .frsq g .bf .rd 64 22,
    .frsq g .bf .rd 3 64,
    .fmin g .bf 64 22 13,
    .fmin g .bf 3 64 13,
    .fmin g .bf 3 22 64,
    .fmax h .bf 64 22 13,
    .fmax h .bf 3 64 13,
    .fmax h .bf 3 22 64,
    .fabs g .bf 64 22,
    .fabs g .bf 3 64,
    .fneg g .bf 64 22,
    .fneg g .bf 3 64,
    .fcmp h .bf 8 22 13 3,
    .fcmp h .bf 1 64 13 3,
    .fcmp h .bf 1 22 64 3,
    .fcmp h .bf 1 22 13 6,
    .fclass g .bf 8 22 341,
    .fclass g .bf 1 64 341,
    .fclass g .bf 1 22 512,
    .fcvt g .rd 64 22 0 16,
    .fcvt g .rd 3 64 0 16,
    .fsel h 64 22 13 7] = true := by decide +kernel

theorem test_illformed_f1 : allRefused [
    .fsel h 3 64 13 7,
    .fsel h 3 22 64 7,
    .fsel h 3 22 13 8,
    .fli g 64 (.short 0x1FFFFFFA),
    .fliHi g 64 (.short 0x1FFFFFFA),
    .fcvt g .rd 3 22 0 0,
    .fli g 3 (.short Imm.escape),
    .fliHi g 3 (.short Imm.escape)] = true := by decide +kernel

/-- Terms of the V slot with one field outside its range. -/
theorem test_illformed_v0 : allRefused [
    .vcmp h .v .bf 3 (.cap 20) (.ind 3 5) 6,
    .vcmpAll g .v .bf 7 (.cap 20) (.ind 3 5) 6,
    .vcmpAll g .v .bf 8 (.cap 20) (.ind 3 5) 0,
    .vrotl g .v 3 (.cap 20) 64,
    .vsetxAdd h .v 16 15 13,
    .vsetxAdd h .v 3 16 13,
    .vstp g .v true 3 16 (.short 0x1FFFFFFA),
    .vstp g .v true 3 15 (.short Imm.escape)] = true := by decide +kernel

/-- Terms of the W slot with one field outside its range. -/
theorem test_illformed_w0 : allRefused [
    .vcmpAny g .w .bf 7 (.cap 20) (.ind 3 5) 6,
    .vcmpAny g .w .bf 8 (.cap 20) (.ind 3 5) 5,
    .vsetx g .w 16 (.cap 20) 63,
    .vsetx g .w 3 (.cap 20) 64,
    .vsetxLi g .w 16 13,
    .vldp h .w true 3 16 (.short 0x1FFFFFFA),
    .vldps g .w true 3 256 (.short 0x1FFFFFFA),
    .vcvt g .w .rd 3 (.cap 20) 0 0,
    .vbcast g .w .w16 3 (.cap 20) 128,
    .vldp h .w true 3 15 (.short Imm.escape),
    .vldps g .w true 3 22 (.short Imm.escape)] = true := by decide +kernel

/-- Terms of the M slot with one field outside its range. -/
theorem test_illformed_m0 : allRefused [
    .mzero g 2,
    .macc h 16 13,
    .macc h 15 16,
    .maccZg g 16 13,
    .maccZg g 15 16,
    .maccs g 16 13,
    .maccs g 15 16,
    .mpush h 4 12 5 0,
    .mpush h 1 12 64 0,
    .mpush h 1 12 5 3,
    .mshift g 2,
    .mdrain g 8 9,
    .mdrain g 4 64,
    .mcfg g 256 1,
    .maccs g 3 3,
    .mpush h 1 16 5 2] = true := by decide +kernel

/-- Terms of the X slot with one field outside its range. -/
theorem test_illformed_x0 : allRefused [
    .xadd g 64 22 (.lit 2047),
    .xadd g 3 64 (.lit 2047),
    .xmul h 64 22 (.lit 2047),
    .xmul h 3 64 (.lit 2047),
    .xand g 64 22 (.lit 2047),
    .xand g 3 64 (.lit 2047),
    .xshl g 64 22 (.lit 2047),
    .xshl g 3 64 (.lit 2047),
    .xshr h 64 22 (.lit 2047),
    .xshr h 3 64 (.lit 2047),
    .xldp g 64 22 (.short 0x1FFFFFFA),
    .xldp g 3 64 (.short 0x1FFFFFFA),
    .xpush g .g64 64 7,
    .xpush g .g64 22 64,
    .xpushNb h .g64 8 22 7,
    .xpushNb h .g64 3 64 7,
    .xpushNb h .g64 3 22 64,
    .xscat g .g64 64 13 7,
    .xscat g .g64 22 64 7,
    .xscat g .g64 22 13 64,
    .xscatNb g .g64 8 22 13 7,
    .xscatNb g .g64 3 64 13 7,
    .xscatNb g .g64 3 22 64 7,
    .xscatNb g .g64 3 22 13 64,
    .xscata h .g64 64 13 7,
    .xscata h .g64 22 64 7,
    .xscata h .g64 22 13 64,
    .xscataNb g .g64 8 22 13 7,
    .xscataNb g .g64 3 64 13 7,
    .xscataNb g .g64 3 22 64 7,
    .xscataNb g .g64 3 22 13 64,
    .xhash g 64 22 7,
    .xhash g 3 64 7,
    .xhash g 3 22 64,
    .xins h 64 22 13 7,
    .xins h 3 64 13 7,
    .xins h 3 22 64 7,
    .xins h 3 22 13 64,
    .xwalk g true 3 64 7,
    .xwalk g true 3 22 64] = true := by decide +kernel

theorem test_illformed_x1 : allRefused [
    .xadd g 3 22 (.reg 64),
    .xmul h 3 22 (.reg 64),
    .xand g 3 22 (.reg 64),
    .xshl g 3 22 (.reg 64),
    .xshr h 3 22 (.reg 64),
    .xldp g 3 22 (.short Imm.escape),
    .xwalk g true 63 22 7,
    .xwalk g true 22 22 7,
    .xwalk g true 21 22 7] = true := by decide +kernel

/-- Terms of the S slot with one field outside its range. -/
theorem test_illformed_s0 : allRefused [
    .sprune h 32 13 7,
    .sprune h 22 32 7,
    .sprune h 22 13 32,
    .sprunet g 32 13 7,
    .sprunet g 22 32 7,
    .sprunet g 22 13 32,
    .sregrow g 32 13 7,
    .sregrow g 22 32 7,
    .sregrow g 22 13 32,
    .shdr h 32 22,
    .shdr h 3 32,
    .shdrW g 32 7,
    .shdrW g 22 32,
    .shdrCk g 32,
    .scheck h 8 22,
    .scheck h 3 32,
    .sexpand g 32 13,
    .sexpand g 22 32] = true := by decide +kernel

/-- Terms of the E slot with one field outside its range. -/
theorem test_illformed_e0 : allRefused [
    .eli g 32 (.short 0x1FFFFFFA),
    .eadd h 32 22 13,
    .eadd h 3 32 13,
    .eadd h 3 22 32,
    .emov g 32 22,
    .emov g 3 32,
    .csrrd g 32 (.short 0x40),
    .csrwr h 32 (.short 0x41),
    .semsig g true 32 255 (.short 0xFFFF),
    .semsig g true 5 256 (.short 0xFFFF),
    .semwait g 256 (.short 0x1),
    .phase g 32,
    .launch g 32 22 15,
    .launch g 3 32 15,
    .launch g 3 22 16,
    .copy h 32 25 7,
    .copy h 3 25 8,
    .copyp g 32 22 7,
    .copyp g 3 32 7,
    .copyp g 3 22 8,
    .cwait g 32 9 0,
    .cwait g 22 10 0,
    .tlrd h 32 9 0,
    .tlrd h 3 10 0,
    .tlrdErr g 32 9 0,
    .tlrdErr g 3 10 0,
    .tlrdErrc g 32 9 0,
    .tlrdErrc g 3 10 0,
    .bpost h 259 32 13 7,
    .bpost h 259 22 32 7,
    .bpost h 259 22 13 32,
    .bview g 259 32,
    .bviewWord g 32 7 13,
    .bviewWord g 3 8 13,
    .bviewWord g 3 7 32,
    .bread h 32 22 13 7,
    .bread h 3 32 13 7,
    .bread h 3 22 32 7,
    .bread h 3 22 13 32,
    .badv g 32 22 13] = true := by decide +kernel

theorem test_illformed_e1 : allRefused [
    .badv g 3 32 13,
    .badv g 3 22 32,
    .barr g 32 22,
    .barr g 3 64,
    .strset h 32 15 5,
    .strset h 22 16 5,
    .strset h 22 15 6,
    .strtap g 32 15 3,
    .strtap g 22 16 3,
    .strtap g 22 15 4,
    .ringsetGeom g 32 7,
    .ringsetGeom g 22 8,
    .ringsetAdvance h 32 7,
    .ringsetAdvance h 22 8,
    .ringsetRd g 32 7,
    .ringsetRd g 3 8,
    .tlbinv g 32 13,
    .tlbinv g 22 32,
    .icflush h 32 13,
    .icflush h 22 32,
    .eli g 3 (.short Imm.escape),
    .csrrd g 3 (.short Imm.escape),
    .csrrd g 3 (.short 0x7F),
    .csrwr h 22 (.short Imm.escape),
    .csrwr h 22 (.short 0x7F),
    .semsig g true 5 255 (.short Imm.escape),
    .semsig g true 5 255 (.short 65536),
    .semsig g false 1 255 (.short 0xFFFF),
    .semwait g 255 (.short Imm.escape),
    .semwait g 255 (.short 0),
    .copy h 3 26 7,
    .cwait g 22 9 1,
    .tlrd h 3 9 1,
    .tlrdErr g 3 9 1,
    .tlrdErrc g 3 9 256,
    .bpost h 32 22 13 7,
    .bview g 32 22] = true := by decide +kernel

/-- Terms of the K slot with one field outside its range. -/
theorem test_illformed_k0 : allRefused [
    .kmov h .j .j 3 22,
    .kmov h .v .j 3 22,
    .kmov h .i .w 3 22,
    .kmov h .e .j 32 22,
    .kmov h .i .j 3 64,
    .kvec g .w .w 3 22,
    .kvec g .i .w 3 22,
    .kvec g .v .j 3 22,
    .kvec g .xv .w 64 22,
    .kext g .v .w 3 22 13,
    .kext g .f .i 3 22 13,
    .kext g .f .w 3 22 64,
    .kins h .i .i 3 22 13,
    .kins h .v .w 3 22 13,
    .kins h .v .i 3 22 64,
    .kbc g .i .e 3 22,
    .kbc g .w .w 3 22] = true := by decide +kernel
/-- Events with one argument outside its range. -/
theorem test_illformed_event0 : allRefused [
    .bundleIssue 512 false,
    .bundleComplete 512 1,
    .bundleComplete 1 4,
    .loadDataReturn 512 1 1,
    .loadDataReturn 1 4 1,
    .seatSwitch 512,
    .quantumExpiry 512,
    .gearPoint 512,
    .walk 4 1 1,
    .walk 1 17 1,
    .walkComplete 4 1 1,
    .walkComplete 1 17 1,
    .atomicApply 512 1 1,
    .atomicApply 1 4 1,
    .atomicReply 512 1 1,
    .atomicReply 1 4 1,
    .requestResend 512 1 1,
    .requestResend 1 4 1,
    .phaseRelease 17 1 1,
    .boardSerialise 512 1,
    .boardSerialise 1 4,
    .boardReply 512 1,
    .boardReply 1 4,
    .barrierArrival 512 1,
    .barrierArrival 1 4,
    .barrierRelease 64,
    .scaleArrive 512 1 1,
    .scaleArrive 1 4 1,
    .ringTileFill 512 1,
    .ringTileFill 1 8,
    .sparsityCmdComplete 512,
    .gatherArrive 512 ⟨1, []⟩,
    .gatherArrive 1 ⟨4, []⟩,
    .scatterComplete 512 1 [],
    .scatterComplete 1 4 [],
    .checkedCheck 512 1,
    .checkedCheck 1 4,
    .trapEntry 512 1,
    .trapEntry 1 4,
    .suspendSpill 512 1] = true := by decide +kernel

theorem test_illformed_event1 : allRefused [
    .suspendSpill 1 4,
    .wakeReady 4 1,
    .resume 512 1,
    .resume 1 4,
    .seatRecord 4 1,
    .preemptRequest 512 1,
    .preemptRequest 1 4,
    .preemptTimeout 512 1,
    .preemptTimeout 1 4,
    .preemptSpill 512 1,
    .preemptSpill 1 4,
    .strandKill 512 1,
    .strandKill 1 4,
    .launchPacket 17 1,
    .launchPacket 1 16,
    .copyPacket 17 1,
    .copyPacket 1 16,
    .copyxPacket 17 1,
    .copyxPacket 1 16,
    .signalPacket 17 1,
    .signalPacket 1 16,
    .waitallPacket 17 1,
    .waitallPacket 1 16,
    .launchStart 17 1,
    .recordCreate 17 1 1 1 1,
    .recordCreate 1 1 4 1 1,
    .recordCreate 1 1 1 1 16,
    .priorityAgeing 17 1,
    .priorityAgeing 1 16,
    .budgetExpiry 17 1,
    .launchComplete 17 1,
    .crossDieTimeout 512 1 1,
    .crossDieTimeout 1 15 1,
    .tenancyKill 17,
    .fumarolePass 4,
    .fumaroleAbandon 4,
    .eventSend 4,
    .storeApply 512 1 1,
    .storeApply 1 4 1,
    .pairReturnToService 4 1] = true := by decide +kernel

theorem test_illformed_event2 : allRefused [
    .pairReturnToService 1 16,
    .scanSelfTestComplete 4 1 [],
    .scanSelfTestComplete 1 16 [],
    .semWaitComplete 512 1,
    .semWaitComplete 1 256,
    .resultWriteback 512,
    .bankOpComplete 512,
    .deferredTrap 512 1,
    .deferredTrap 1 4,
    .debugHalt 512 1,
    .debugHalt 1 4,
    .debugResume 512 1,
    .debugResume 1 4,
    .debugStep 512 1,
    .debugStep 1 4,
    .cancel 17 1,
    .tcbResetKill 17,
    .tcbResetUnfreeze 17,
    .pageRelease 17 0,
    .queueEnable 17 1 0,
    .queueEnable 1 16 0,
    .notifyWrite 17 1 1 0,
    .notifyWrite 1 16 1 0,
    .brdcfgCreate 4 1 0,
    .brdcfgCreate 1 256 0,
    .brdcfgFree 4 1,
    .brdcfgFree 1 256,
    .brdcfgGrant 4 1 0,
    .brdcfgGrant 1 256 0,
    .barcfgWrite 64 0,
    .recareaWrite 4 0,
    .tablebaseWrite 4 0,
    .regWrite 17 1 0,
    .peerLoss 65,
    .laneFault 16 1,
    .laneFault 1 9,
    .linkRetrain 16,
    .retrainTimeout 16,
    .flitReplay 16,
    .hostAccess 17 1 1 .read 1] = true := by decide +kernel

theorem test_illformed_event3 : allRefused [
    .hostAccess 1 1 0 .read 1,
    .hostAccess 1 1 9 .read 1,
    .atsInvalidate 17 1,
    .ueConsume 17 1 1 1 1 1,
    .ce 4 1,
    .scrub 4 [] [],
    .pairCheckpoint 4 1,
    .pairCheckpoint 1 16,
    .pairMismatch 4 1,
    .pairMismatch 1 16,
    .eventPost 4 1 1 1,
    .eventRetry 4,
    .spdmKeyBind 0 1,
    .spdmKeyBind 256 1,
    .spdmKeyBind 1 17,
    .peerRemoveDeclare 65,
    .linkUp 16,
    .linkRetrainComplete 16,
    .dieDebugHalt 4,
    .dieDebugResume 4,
    .routeTableWrite 64 0] = true := by decide +kernel
theorem test_illformed_event_rest : allRefused [.copyComplete (.chan 512 0) [], .copyComplete (.chan 0 8) [], .copyComplete (.queued 17 0) [],
  .podPhaseRelease 17 1 [], .gearWrite 4 0, .debugAccess 512 0 false .i 0 0, .debugAccess 0 4 false .i 0 0,
  .fabricRequestIn 65536 (.load 0 8), .fabricRequestIn 0 (.atomic .add 0 2 0 0 ⟨0, 0, 0, false⟩),
  .fabricRequestIn 0 (.atomic .faddBf 0 4 0 0 ⟨0, 0, 0, false⟩), .fabricRequestIn 0 (.atomic .add 0 8 0 0 ⟨64, 0, 0, false⟩),
  .fabricRequestIn 0 (.board 4 0 0 0 false ⟨0, 0, 0, false⟩), .fabricRequestIn 0 (.board 0 0 0 0 false ⟨0, 16384, 0, false⟩),
  .fabricRequestIn 0 (.board 0 0 0 0 false ⟨0, 0, 65536, false⟩)] = true := by decide +kernel
/-! ## States and operands that meet the hypotheses of the statements -/

/-- A bundle of the strand on seat 0 of core 0, with given instructions. -/
def bundle (is : List Instr) : Issue := { core := 0, seat := 0, pc := 0x10000, next := 0x10010, seq := 5, syls := is }

/-- The placed program's strand (log 6) with nothing under way, before a bundle issues. -/
def idle : State := { State.reset.placeProgram [] with agenda := [] }

/-- That state with a bundle being issued. -/
def issuing (is : List Instr) : State := { idle with iss := some (bundle is) }

/-- A change to the strand's seat. -/
def withSeat (s : State) (f : Seat → Seat) : State := s.modSeat 0 0 f

/-- What a test asks of an outcome. -/
def nextIs (o : Host.Outcome State Fault Refusal) (p : State → Bool) : Bool :=
  match o with
  | .next t => p t
  | .fault _ => false
  | .refused _ => false

/-- The hypothesis that most statements about a syllable have: its bundle issues and its guard holds. -/
theorem witness_acts : Acts (issuing []) (bundle []) g := ⟨rfl, by decide +kernel⟩

/-- A bundle that issues with a guard that does not hold: q5 is 0 and NOT taken, so NOT NOT. -/
theorem witness_false_guard : (issuing []).iss = some (bundle []) ∧ (issuing []).guard (bundle []) ⟨true, 0⟩ = false :=
  ⟨rfl, by decide +kernel⟩

theorem witness_StepKeepsMemoryCanonical : State.reset.Inv ∧ nextIs (step State.reset) (fun t => t.mem == []) = true :=
  ⟨rfl, by decide +kernel⟩

theorem witness_DecodeOfEncodeIsSame : wellFormed (.add g .i 63 0 63) = true ∧
    encode (.add g .i 63 0 63) = some (.i, 0x00007E0001F80000, none) ∧ DecCtx.full.claim = true ∧ DecCtx.full.lvl1 = false := by
  decide +kernel

theorem witness_StepRunsTheDecodedInstruction : (issuing [.li g .i 2 (.short 5)]).iss = some (bundle [.li g .i 2 (.short 5)]) ∧
    (bundle [.li g .i 2 (.short 5)]).syls = [.li g .i 2 (.short 5)] ∧ State.reset.iss = none := ⟨rfl, rfl, rfl⟩

/-- LI i2, 5 alone in a bundle (R98's first two words), placed to be fetched. -/
def placed : State := State.reset.withFetchWord 128 0x160004000000000AA000120000000000

theorem witness_IssuedBundleIsTheDecodedOne : placed.iss = none ∧ (placed.core 0).running = some 0 ∧
    nextIs (exec (.bundleIssue 0 true) placed) (fun t => match t.iss with
      | some u => u.syls == [.li g .i 2 (.short 5)] && u.next == 0x10010
      | none => false) = true := by
  refine ⟨rfl, rfl, by decide +kernel⟩

theorem witness_RegisterFilesAndTrapBank : ((⟨.q, 7⟩ : Reg).file = .q → (⟨.q, 7⟩ : Reg).n ≠ 0) ∧ (⟨.i, 63⟩ : Reg) ≠ ⟨.q, 7⟩ ∧ (56 : Nat) < 64 ∧
    (55 : Nat) < 64 ∧ (7 : Nat) < 8 := by decide

theorem witness_ResultsLandInOrder :
    ((issuing []).seat 0 0).flights = [] ∧ ((issuing []).seat 0 0).held = none ∧
    (let a : Flight := ⟨4, 1, 3, some ⟨.i, 2⟩, 7, 0, true, false⟩
     let b : Flight := ⟨4, 1, 4, some ⟨.i, 2⟩, 9, 0, true, false⟩
     a.dst = some ⟨.i, 2⟩ ∧ b.dst = some ⟨.i, 2⟩ ∧ a.ready ≤ 4 ∧ b.ready ≤ 4 ∧ a.ready = b.ready ∧ a.seq = b.seq ∧ a.pos < b.pos) := by
  decide +kernel

/-- A CALL whose two delay bundles, of two words each, stand in memory. -/
def calling : State :=
  { State.reset.placeProgram [0xC000100000000000, 0x03007E0000000010, 0xA000120000000000, 0x0200040080000002, 0xA000120000000000,
      0x0080000000000000] with agenda := [], iss := some (bundle [.call g 63 (.short 8)]) }

theorem witness_BranchAndCallForms : calling.iss = some (bundle [.call g 63 (.short 8)]) ∧
    calling.guard (bundle [.call g 63 (.short 8)]) g = true ∧ calling.linkPre (bundle [.call g 63 (.short 8)]) = .ok ∧
    calling.guard (bundle [.call g 63 (.short 8)]) ⟨true, 0⟩ = false := by
  refine ⟨rfl, ?_, ?_, ?_⟩ <;> decide +kernel

theorem witness_DelayBundlesLinkAndTarget :
    (calling.seat 0 0).strand = some placedStrand ∧ calling.bundlesUnwalked 0 0 0 1 2 0x10010 = none ∧
    calling.codeFetch 0 0 1 0x10010 false = .word 0xA000120000000000 ∧ calling.codeFetch 0 0 1 0x10020 false = .word 0xA000120000000000 ∧
    (bundle []).next.toNat = 0x10010 ∧
    (calling.seat 0 0).delay.count = 0 ∧ ({ bundle [] with ctl := .branch (some 0x10050) } : Issue).ctl = .branch (some 0x10050) ∧
    (bundle []).ctl = .none := by
  decide +kernel

theorem witness_BoundaryForms : (issuing []).tilePre (bundle []) = .ok ∧ (issuing []).haltPre (bundle []) = .ok ∧
    (withSeat (issuing []) (fun t => { t with tm := true })).tretPre (bundle []) = .ok ∧
    ((issuing []).seat 0 0).strand = some placedStrand ∧ ((issuing []).seat 0 0).tm = false ∧
    ((withSeat (issuing []) (fun t => { t with tm := true })).seat 0 0).tm = true := by
  decide +kernel

/-- IntegerArithmeticResults and IntegerUnaryAndCompareResults: R48's last condition code. -/
theorem witness_IntegerUnaryAndCompareResults : Acts (issuing []) (bundle []) g ∧ (5 : R11).toNat < 6 := ⟨witness_acts, by decide⟩
theorem witness_IntegerArithmeticResults : Acts (issuing []) (bundle []) g := witness_acts
theorem witness_CopiesBetweenFiles : Acts (issuing []) (bundle []) g ∧ bitAt 127 6 = true ∧ bitAt 63 6 = false := ⟨witness_acts, by decide⟩
theorem witness_ScalarFloatResults : Acts (issuing []) (bundle []) g := witness_acts
theorem witness_VectorFloatResults : Acts (issuing []) (bundle []) g := witness_acts
theorem witness_VectorIntegerResults : Acts (issuing []) (bundle []) g ∧ (63 : R11).toNat < 64 := ⟨witness_acts, by decide⟩

theorem witness_NanAndInvalidOperands : unpack (ftFmt .f32) false 0x7FC00000 = .nan ∧ unpack (ftFmt .h) true 0x7E00 = .nan ∧
    unpack (ftFmt .bf) false 0 ≠ .nan ∧ (0 : Nat) < 1 := by decide +kernel

theorem witness_RoundingOfValues : fp32 ∈ [fp32, fp16, bf16, e4m3, e5m2] ∧ e4m3 ∈ [fp32, fp16, bf16, e4m3, e5m2] ∧
    0xFF800000 < 2 ^ fp32.width ∧ unpack fp32 false 0xFF800000 ≠ .nan ∧ 0x7E < 2 ^ e4m3.width ∧ unpack e4m3 false 0x7E ≠ .nan := by
  decide +kernel

/-- A gather of no lane, on its way. -/
def xpush0 : IdxCmd :=
  { num := 1, ten := 0, lid := 1, idx := 0, seat := 0, mark := 0, op := 0, gran := 4, glob := false, lanes := [], data := 0, fmt := 0
    bundle := 0, seq := 0 }

theorem witness_VectorSourcesAndPops :
    (2 : Nat) < 3 ∧ ((issuing []).seat 0 0).strand = some placedStrand ∧
    (let s := withSeat (issuing []) (fun t => { t with dataq := [7, 9] })
     Acts s (bundle []) g ∧ (s.seat 0 0).dataq = 7 :: [9] ∧ s.popqPre (bundle []) 1 = .ok) ∧
    ((issuing []).seat 0 0).dataq = [] ∧ (issuing []).pushesOut (bundle []) = 0 ∧ (bundle []).checked = false ∧
    (let s := (issuing []).modCore 0 (fun k => { k with idx := [xpush0] })
     (s.seat 0 0).dataq = [] ∧ 0 < s.pushesOut (bundle [])) := by
  refine ⟨by decide, by decide +kernel, ⟨⟨rfl, by decide +kernel⟩, ?_⟩, ?_⟩ <;> decide +kernel
/-- Zero registers: a global address of 0, and a pool offset of 0 in the placed strand's window. -/
theorem witness_GlobalLoadsAndStores : Acts (issuing []) (bundle []) g ∧
    (∀ m, m < 4 → (issuing []).globalPre (bundle []) 0 8 m = .ok) := by
  refine ⟨witness_acts, by decide +kernel⟩

theorem witness_GlobalAccessUnderWay :
    ((issuing []).seat 0 0).strand = some placedStrand ∧ (bundle []).passed = false ∧
    (∀ m, m < 5 → (issuing []).translate 0 0 1 0x20000 (needOf m) = .ok 0x20000 0 0) ∧
    (let s := (issuing []).modCore 0 (fun k => { k with tlb := [] })
     s.translate 0 0 1 0x20000 (needOf 0) = .miss) ∧
    (let s := (issuing []).modCore 0 (fun k => { k with tlb := [⟨0, 0, 2 ^ 30, 0, 0, 0, true, false, false⟩] })
     ∃ r, s.translate 0 0 1 0x20000 (needOf 2) = .fail r) := by
  refine ⟨by decide +kernel, by decide +kernel, by decide +kernel, by decide +kernel, 2, by decide +kernel⟩

theorem witness_PoolLoadsAndStores : Acts (issuing []) (bundle []) g ∧ (issuing []).poolPre (bundle []) 0 8 8 = .ok ∧
    (issuing []).poolPre (bundle []) 0xFFF8 8 8 = .ok ∧ (issuing []).sqldPre (bundle []) 4 0 = .ok ∧
    (issuing []).lanePre (bundle []) 0 4 = .ok ∧ (issuing []).lanePre (bundle []) 0xFF00 4 = .ok := by
  refine ⟨witness_acts, ?_, ?_, ?_, ?_, ?_⟩ <;> decide +kernel

/-- The boundary values of R106 and R110: 2^56 and 2^56 − 1, the window's last bytes and one past them, −1. -/
theorem witness_AddressTraps : Acts (issuing []) (bundle []) g ∧ (bundle []).checked = false ∧
    (2 : Nat) ^ 56 ≤ 0x100000000000000 ∧ 0xFFFFFFFFFFFFFF < (2 : Nat) ^ 56 ∧ 0xFFFFFFFFFFFFFF % Sz.bytes .b2 ≠ 0 ∧
    (∀ h, (issuing []).unanswered 0 0 h < 64) ∧
    (issuing []).winSize (bundle []) = 0x10000 ∧ (-1 : Int) < 0 ∧ (0x10000 : Int) < 0xFFFD + 4 ∧ (0xFFFA : Int) + 4 ≤ 0x10000 ∧ 0xFFFA % 4 ≠ 0 := by
  refine ⟨witness_acts, rfl, by decide, by decide, by decide, ?_, by decide +kernel, by decide, by decide, by decide, by decide⟩
  intro h
  have : ((issuing []).seat 0 0).accs = [] := by decide +kernel
  simp [State.unanswered, this]

theorem witness_AtomicFormsAndValues : Acts (issuing []) (bundle []) g ∧ (issuing []).atomPre (bundle []) 0 8 = .ok ∧
    (issuing []).atomPre (bundle []) 0 4 = .ok ∧ (issuing []).atomPre (bundle []) 0 2 = .ok ∧
    (issuing []).poolPre (bundle []) 0 8 8 = .ok ∧ (issuing []).poolPre (bundle []) 0 2 2 = .ok ∧
    0xFFFFFFFF < 2 ^ 32 ∧ 0 < 2 ^ 32 ∧ 0 < 32 := by
  refine ⟨witness_acts, ?_, ?_, ?_, ?_, ?_, ?_, ?_, ?_⟩ <;> decide +kernel

theorem witness_SystemForms : Acts (issuing []) (bundle []) g ∧ (issuing []).fstatPre (bundle []) = .ok ∧
    (issuing []).rd (bundle []) .e 0 < 2 ^ 56 ∧ (issuing []).rd (bundle []) .e 0 % 65536 = 0 := by
  refine ⟨witness_acts, ?_, ?_, ?_⟩ <;> decide +kernel

theorem witness_ControlRegistersWritten : ((issuing []).seat 0 0).strand = some placedStrand ∧ ((issuing []).seat 0 0).nowFlags = 0 ∧
    0x067 ∈ [0x000, 0x001, 0x002, 0x003, 0x004, 0x005, 0x010, 0x020, 0x060, 0x061, 0x062, 0x063, 0x064, 0x065, 0x066, 0x067] := by
  decide +kernel

/-- A device-side queue that has been enabled. -/
def queued : State :=
  (issuing []).setTenancy 0 { (issuing []).tenancy 0 with queues := [(0, { served := some (0x40000, 4, true, 0, 0) })] }

theorem witness_SynchronisationFormsAndSemaphores : Acts (issuing []) (bundle []) g ∧
    (∀ sc ∈ [Scope.core, .die, .pkg, .sys], ∀ fk ∈ [FenceKind.acq, .rel, .ar], (issuing []).fencePre (bundle []) sc fk = .ok) ∧
    queued.launchPre (bundle []) 0 0 = .ok ∧
    (let s : State := { issuing [] with pkg := { (issuing []).pkg with bars := [(7, { en := true, ten := 0, count := 1 })] } }
     s.barrPre (bundle []) 7 = .ok) ∧
    255 < 256 ∧ 65535 < 65535 + 1 ∧ 65534 + 1 ≤ 65535 ∧
    (let k : Core := { sem := [(3, 5)] }
     k.semVal 3 = 5 ∧ k.tryWait 3 6 = none ∧ k.tryWait 3 5 = some { k with sem := [] }) := by
  refine ⟨witness_acts, ?_, ?_, ?_, ?_, ?_, ?_, ?_⟩ <;> decide +kernel

theorem witness_BoardFormsAndUnit :
    (let u : Issue := { bundle [] with reply := some [3, 7] }
     Acts { issuing [] with iss := some u } u g ∧ u.reply = some [3, 7]) ∧
    ((issuing []).seat 0 0).expert 6 = true ∧
    (let b : Board := { en := true, ten := 2, parts := 4, level := 5, slots := [(3, 9)], order := [3] }
     b.en = true ∧ b.ten = 2 ∧ b.ten ≠ 1 ∧ b.parts ≤ (4 : Word).toNat ∧ (3 : Word).toNat < b.parts ∧ (0 : Word).toNat < b.parts ∧
     (4 : Word).setWidth 32 ≠ b.level ∧ (5 : Word).setWidth 32 = b.level ∧ tfind b.slots 0 = none ∧ tfind b.slots 3 ≠ none) ∧
    ({} : Board).en = false := by
  refine ⟨⟨⟨rfl, ?_⟩, rfl⟩, ?_, ?_, rfl⟩ <;> decide +kernel

theorem witness_StreamAndRingForms : Acts (issuing []) (bundle []) g ∧ (issuing []).ringPre (bundle []) 0 0 = .ok ∧
    (issuing []).ringAdvPre (bundle []) 7 1 = .ok ∧ (0 : R11).toNat = 0 ∧ (5 : R11).toNat ≠ 0 := by
  refine ⟨witness_acts, ?_, ?_, ?_, ?_⟩ <;> decide +kernel

theorem witness_MatrixRowForms : (issuing []).iss = some (bundle []) ∧ (issuing []).guard (bundle []) g = true ∧
    (issuing []).guard (bundle []) ⟨true, 0⟩ = false ∧ (issuing []).mcfgPre (bundle []) = .ok ∧
    (issuing []).mpushPre (bundle []) 0 0 = .ok ∧ (issuing []).mpushPre (bundle []) 0 1 = .ok ∧
    (issuing []).drainPre (bundle []) 7 = .ok ∧ Passes { bundle [] with checked := true } ((issuing []).mpushPre (bundle []) 15 2) ∧
    (4 : R11).toNat.testBit 2 = true ∧ (2 : R11).toNat.testBit 1 = true ∧ (1 : R11).toNat.testBit 1 = false := by
  refine ⟨rfl, ?_, ?_, ?_, ?_, ?_, ?_, .inl rfl, ?_, ?_, ?_⟩ <;> decide +kernel

theorem witness_MatrixBeats : (issuing []).iss = some (bundle []) ∧ (issuing []).maccPre (bundle []) 0 1 = .ok ∧
    Passes { bundle [] with checked := true } ((issuing []).maccsPre (bundle []) 0 1) := by
  refine ⟨rfl, ?_, .inl rfl⟩ <;> decide +kernel

theorem witness_SparsityFormsAndCommands : Acts (issuing []) (bundle []) g ∧ (issuing []).shdrPre (bundle []) 0 = .ok ∧
    (let u : Issue := { bundle [] with checked := true }
     let s : State := { issuing [] with iss := some u }
     Acts s u g ∧ Passes u (s.sprunePre u 0 1 2) ∧ Passes u (s.sprunetPre u 0 1 2) ∧ Passes u (s.sregrowPre u 0 1 2) ∧
       Passes u (s.sexpandPre u 0 1)) ∧
    ((issuing []).seat 0 0).strand = some placedStrand ∧ 8 < 9 := by
  refine ⟨witness_acts, ?_, ⟨⟨rfl, ?_⟩, .inl rfl, .inl rfl, .inl rfl, .inl rfl⟩, ?_, ?_⟩ <;> decide +kernel

theorem witness_CopyForms :
    (let u : Issue := { bundle [] with checked := true }
     let s : State := { issuing [] with iss := some u }
     Acts s u g ∧ Passes u (s.copyPre u 7 (s.copyCmd u [])) ∧ Passes u (s.copypPre u 0 7)) :=
  ⟨⟨rfl, by decide +kernel⟩, .inl rfl, .inl rfl⟩

theorem witness_IndexForms : Acts (issuing []) (bundle []) g ∧ (issuing []).lanePre (bundle []) 0 4 = .ok ∧
    (issuing []).pushPre (bundle []) 0 .g4 0 0 = .ok ∧ (issuing []).pushPre (bundle []) 1 .g4 0 0 = .ok ∧
    (issuing []).pushPre (bundle []) 2 .g4 0 0 = .ok ∧ (∀ op, op < 3 → (issuing []).pushNbPre (bundle []) op .g4 0 0 = .ok) ∧
    (issuing []).idxFull (bundle []) = false ∧
    ((issuing []).modCore 0 (fun k => { k with
      idx := List.replicate 8 xpush0 })).idxFull (bundle []) = true ∧
    (issuing []).walkPre (bundle []) false 0 = .ok ∧ Passes { bundle [] with checked := true } ((issuing []).hashPre (bundle []) 0) := by
  refine ⟨witness_acts, ?_, ?_, ?_, ?_, ?_, ?_, ?_, ?_, .inl rfl⟩ <;> decide +kernel
theorem witness_ZerosAndNans :
    (∀ t ∈ [FVal.fin false 3 2, .fin true 6 1], ∃ n m e, t = .fin n m e ∧ (1 : Int) ≤ e) ∧ sumAt 1 [.fin false 3 2, .fin true 6 1] = 0 ∧
    unpack (ftFmt .bf) true 0x7FC0 = .nan ∧ (issuing []).iss = some (bundle []) ∧
    nextIs (exec (.vcmp g .v .f32 1 (.reg 2) (.reg 3) 0) (issuing [])) (fun t => (t.seat 0 0).flights.length == 1) = true := by
  refine ⟨?_, by decide, by decide +kernel, rfl, by decide +kernel⟩
  intro t ht
  simp at ht
  rcases ht with rfl | rfl
  · exact ⟨_, _, _, rfl, by decide⟩
  · exact ⟨_, _, _, rfl, by decide⟩

theorem witness_FclassTellsTheClass : Acts (issuing []) (bundle []) g ∧ (0x31 : Nat) = 0x30 + FT.code .h ∧
    (0x3100000010000000 : Word).toNat / 2 ^ 56 % 2 ^ 7 = 0x31 ∧ (0x3100000010000000 : Word).toNat / 2 ^ 28 % 2 ^ 2 ≠ 0 ∧ 255 < 256 := by
  refine ⟨witness_acts, ?_, ?_, ?_, ?_⟩ <;> decide

theorem witness_ZeroAndRotateRows : Acts (issuing []) (bundle []) g ∧ 63 < 64 ∧ ((issuing []).core 0).mx.bank = (0 : R11).toNat % 2 ∧
    ((issuing []).core 0).mx.bank ≠ (1 : R11).toNat % 2 := by
  refine ⟨witness_acts, ?_, ?_, ?_⟩ <;> decide +kernel

theorem witness_BitFieldForms : Acts (issuing []) (bundle []) g ∧ (63 : R11).toNat ≤ 63 ∧ 1 ≤ (64 : R11).toNat ∧ (64 : R11).toNat ≤ 64 ∧
    DecCtx.full.lvl1 = false ∧
    (let w : Word := 0x1500080142004100
     w.toNat / 2 ^ 56 % 2 ^ 7 = 0x15 ∧ 63 < w.toNat / 2 ^ 19 % 2 ^ 11 ∧ 64 < w.toNat / 2 ^ 8 % 2 ^ 11) ∧
    reads .i 0x1500080140400C00 = some (.bfi g .i 4 5 8 12) := by
  refine ⟨witness_acts, ?_, ?_, ?_, rfl, ?_, ?_⟩ <;> decide +kernel

/-- One access under way: a doubleword at 0x20000. -/
def acc0 : Machine.Acc :=
  { id := 4, seq := 1, pos := 1, kind := .load false, pool := false, va := 0x20000, bundle := 0x10000, n := 8, pas := some [0x20000], key := 0
    data := 0, data2 := 0, dst := some ⟨.i, 3⟩, dst2 := none, acq := false, rel := false, ordered := false, due := 0
    result := none, home := none }

/-- The idle state with that access, changed as asked. -/
def accessing (f : Machine.Acc → Machine.Acc) : State := withSeat idle (fun t => { t with accs := [f acc0] })

/-- Whether an access may perform: the premises of AccessesPerform. -/
def performs (f : Machine.Acc → Machine.Acc) : Bool :=
  let s := accessing f
  (s.die 0).halted.isNone && (s.seat 0 0).findAcc 4 == some (f acc0) && (s.seat 0 0).mayPerform (s.core 0).now (f acc0) &&
    s.homeAll (s.ownerOf 0 0).1 (f acc0).key (f acc0).parts == .ok

theorem witness_AccessesPerform :
    performs id = true ∧ performs (fun a => { a with kind := .load true, n := 1 }) = true ∧ performs (fun a => { a with kind := .store }) = true ∧
    performs (fun a => { a with kind := .atom .add }) = true ∧ acc0.due ≠ never ∧
    (let f : Machine.Acc → Machine.Acc := fun a => { a with kind := .vload, n := 4, pool := true, pas := some ((List.range 64).map (fun l => poolBase 0 + 4 * l)) }
     performs f = true ∧ performs (fun a => { f a with kind := .xldp }) = true ∧ performs (fun a => { f a with kind := .vstore }) = true) ∧
    performs (fun a => { a with kind := .sqld, pool := true, pas := some [poolBase 0] }) = true ∧
    performs (fun a => { a with kind := .atom .add, pas := some [hostPa 8] }) = true ∧ placeOf (hostPa 8) = .host ∧
    (Config.freeValue 0 % 2 = 1 ∨ Config.freeValue 0 % 2 = 0) ∧ acc0.accepted = none ∧ acc0.lost = none ∧ acc0.lanesLeft ≠ 0 := by
  refine ⟨?_, ?_, ?_, ?_, ?_, ⟨?_, ?_, ?_⟩, ?_, ?_, ?_, by omega, ?_, ?_, ?_⟩ <;> decide +kernel

theorem witness_RepliesAndProbes :
    (let a : Machine.Acc := { acc0 with kind := .atom .add, result := some 7 }
     let s := accessing (fun _ => a)
     (s.die 0).halted = none ∧ (s.seat 0 0).findAcc 4 = some a ∧ a.result = some 7 ∧ a.due ≤ (s.core 0).now) ∧
    (let a : Machine.Acc := { acc0 with kind := .atom .cas, pas := some [hbmBase 1 + 8], home := some (1, 70, 0), sent := some 0 }
     let s : State := { accessing (fun _ => a) with tbase := 2000 }
     (s.seat 0 0).findAcc 4 = some a ∧ a.home = some (1, 70, 0) ∧ a.sent.isSome = true ∧ a.result = none ∧ 0 + 2000 ≤ s.tbase ∧ (s.seat 0 0).mayAct a = true ∧ a.due ≠ never ∧
       tfind (s.die 1).replay ((16 * 0 + 0) * 64 + 70 % 64) = none ∧
       tfind ((s.modDie 1 (fun d => { d with replay := [(6, (70, [5]))] })).die 1).replay ((16 * 0 + 0) * 64 + 70 % 64) = some (70, [5])) ∧
    (∀ k ∈ [AccKind.store, .atom .add],
      let a : Machine.Acc := { acc0 with kind := k, pas := some [hostPa 0] }
      let s : State := { accessing (fun _ => a) with pkg := { idle.pkg with hostHeld := some 0 } }
      (s.seat 0 0).findAcc 4 = some a ∧ (s.seat 0 0).mayPerform (s.core 0).now a = true ∧ a.parts.length = 1 ∧ a.parts.all throughPort = true ∧
        a.accepted = none ∧ a.lost = none ∧ a.data2 = 0 ∧ a.due ≠ never ∧ s.homeAll (s.ownerOf 0 0).1 a.key a.parts = .silent) ∧
    (∀ k ∈ [AccKind.load true, .store, .atom .add],
      let a : Machine.Acc := { acc0 with kind := k, pas := some [hostPa 0], lost := some 64 }
      let s := accessing (fun _ => a)
      (s.die 0).halted = none ∧ (s.seat 0 0).findAcc 4 = some a ∧ a.lost = some 64 ∧ a.parts.length = 1 ∧
        (s.seat 0 0).mayPerform (s.core 0).now a = true ∧ a.due ≠ never) ∧
    (∀ k ∈ [AccKind.launch, .xhash, .xins, .xwalk false, .xwalk true],
      let a : Machine.Acc := { acc0 with kind := k }
      ((accessing (fun _ => a)).seat 0 0).mayPerform ((accessing (fun _ => a)).core 0).now a = true ∧ a.parts.length ≤ 1) := by
  refine ⟨?_, ?_, ?_, ?_, ?_⟩ <;> decide +kernel

theorem witness_WalkersAndEngines :
    (let s := accessing (fun a => { a with pas := none })
     (s.die 0).halted = none ∧ (s.die 0).walkOf 0 2 512 = none ∧ (s.die 0).walks.length < 512 ∧ s.missing 0 0 2 ≠ []) ∧
    (let s := idle.modDie 0 (fun d => { d with prefs := [(5, 0, 0x20000)] })
     (s.die 0).walkOf 0 2 512 = none ∧ (0, 2) ∈ s.pagesAsked 0) ∧
    (let w : Walk := ⟨0, 2, 1, [0x10000, 0, 0, 0]⟩
     let s := idle.modDie 0 (fun d => { d with walks := [w] })
     (s.die 0).halted = none ∧ (s.die 0).walkOf 0 2 16 = some w ∧ (s.rooted w).walkStop 0 0 (2 * 2 ^ 16) = none) ∧
    (let x : UnitCmd := ⟨1, .scheck, 0, 0, 0, 0, 1, 0, 0, 0, some ⟨.q, 1⟩, 0, false⟩
     let s := idle.modCore 0 (fun k => { k with unit := [x] })
     (s.die (0 / 128)).halted = none ∧ (s.core 0).unit = x :: [] ∧ x.dead = false ∧ s.marked 0 0 0 0 1 0 = true ∧ s.poison = []) ∧
    (let s : State := { idle with lines := [(5, { dirty := some 3 })] }
     tfind s.lines 5 = some { dirty := some 3 }) ∧
    (let f (sent : Option Nat) (pa : Nat) (a : Machine.Acc) : Machine.Acc := { a with pas := some [pa], sent := sent }
     let s (sent : Option Nat) (pa : Nat) : State := { accessing (f sent pa) with tbase := 20000 }
     (s (some 0) (hbmBase 3)).pkg.xdto = 20 ∧ ((s (some 0) (hbmBase 3)).seat 0 0).findAcc 4 = some (f (some 0) (hbmBase 3) acc0) ∧
       ((s (some 0) (hbmBase 3)).die 0).halted = none ∧ 0 + 1000 * 20 ≤ (s (some 0) (hbmBase 3)).tbase ∧
       responderOf 0 (hbmBase 3) = .die 3 ∧ 3 ∉ ((s (some 0) (hbmBase 3)).die 0).slow ∧
       responderOf 0 (hostPa 0) = .module 64 ∧ (s (some 0) (hostPa 0)).moduleHeld 64 = false ∧
       responderOf 0 (hbmBase 3) ≠ .own ∧ ((s none (hbmBase 3)).seat 0 0).mayAct (f none (hbmBase 3) acc0) = true ∧ acc0.due ≠ never) ∧
    (let h : Held := { iss := bundle [], board := some (0, 0x2000000000000, 0, 0), check := [], due := 0, answer := none, sent := some 0 }
     let s : State := { withSeat idle (fun t => { t with held := some h }) with tbase := 20000 }
     (s.seat 0 0).findAcc 4 = none ∧ (s.seat 0 0).held = some h ∧ (s.die 0).halted = none ∧ h.responder 0 = .die 2 ∧
       0 + 1000 * s.pkg.xdto ≤ s.tbase ∧ 2 ∉ (s.die 0).slow) := by
  refine ⟨?_, ?_, ?_, ?_, ?_, ?_, ?_⟩ <;> decide +kernel

/-- A gather of two lanes in the window, the second out of range. -/
def gather : IdxCmd :=
  { num := 1, ten := 0, lid := 1, idx := 0, seat := 0, mark := 0, op := 0, gran := 4, glob := false, lanes := [(0xFFFC, true), (0, false)]
    data := 0, fmt := 0, bundle := 0, seq := 0 }

/-- A plain copy of 64 bytes from 0x20000 to 0x30000 on channel 2. -/
def copying : CopyCmd := { num := 1, words := [BitVec.ofNat 64 (2 * 2 ^ 48), 0x20000, 0x30000], ten := 0, lid := 1 }

theorem witness_EngineCommandsComplete :
    (∀ op ∈ [0, 1, 2],
      let x : IdxCmd := { gather with op := op }
      let s := idle.modCore 0 (fun k => { k with idx := [x] })
      (s.die (0 / 128)).halted = none ∧ (s.core 0).idx.find? (fun y => y.seat == 0) = some x ∧ x.stuck = none ∧ x.dead = false ∧
        s.marked 0 0 x.mark x.ten x.lid x.idx = true ∧ x.op < 3 ∧
        (([1] : List Nat).foldl (if x.op = 0 then IdxRun.gather 0 else if x.op = 1 then IdxRun.scatter 0 else IdxRun.add 0) ⟨s, x, none⟩).stop = none ∧
        x.glob = false ∧ x.pushed ≤ (s.core 0).now ∧ s.poison = [] ∧
        (∀ l ∈ x.lanes, l.2 = true → l.1 + x.gran ≤ s.windowSize x.ten x.lid (0 / 128)) ∧ (s.seat 0 0).runs x.ten x.lid x.idx = true ∧
        (∀ l ∈ x.lanes, l.2 = true → inPool (s.windowPa x.ten x.lid (0 / 128) l.1) = true)) ∧
    (let s := idle.modCore 0 (fun k => { k with chans := [(2, [copying])] })
     let e : Eng := ⟨0, 0, 1, 0, 6, 1, [], none⟩
     tget (s.core 0).chans [] 2 = copying :: [] ∧ copying.stuck = none ∧ copying.dead = false ∧ s.marked 0 0 0 0 1 0 = true ∧ copying.status = 0 ∧
       copying.ended = none ∧ (s.copyMoves e copying [7]).stop = none ∧ (s.copyMoves e copying [7]).x.left ≠ [] ∧
       (s.copyMoves e copying []).stop = none ∧ (s.copyMoves e copying []).x.inc = 0) := by
  refine ⟨?_, ?_⟩ <;> decide +kernel

theorem witness_EngineCommandsComplete_rest :
    (let x : CopyCmd := { copying with words := [BitVec.ofNat 64 (2 * 2 ^ 48), 0x1000000000000000, 0x30000] }
     let s := idle.modCore 0 (fun k => { k with chans := [(2, [x])] })
     tget (s.core 0).chans [] 2 = x :: [] ∧ x.status = 0 ∧ x.ended = none ∧
       (match (s.copyMoves ⟨0, 0, 1, 0, 6, 1, [], none⟩ x []).stop with
         | some (.status n) => n != 0
         | _ => false) = true) ∧
    (let s : State := { idle with qcopies := [copying] }
     let p := s.copyMoves ⟨0, 0, 0, 0, 8192, copying.num, [], none⟩ copying []
     (s.die 0).halted = none ∧ s.qcopies = copying :: [] ∧ copying.ten = 0 ∧ copying.inc = 0 ∧ p.stop = none ∧ p.s.qcopies = s.qcopies) := by
  refine ⟨?_, ?_⟩ <;> decide +kernel
/-- A seat that waits on a semaphore of value 5, with no record on its die. -/
def semWaiting : State := (withSeat idle (fun t => { t with wait := some (.sem 3 5) })).modCore 0 (fun k => { k with sem := [(3, 5)] })

theorem semWaiting_recs : (semWaiting.die (0 / 128)).recs = [] := by decide +kernel

theorem witness_WaitsEndAndBarriersRelease :
    (let s := semWaiting
     (∀ r ∈ (s.die (0 / 128)).recs, ∀ ten, r.waitsSem 0 ten 3 = false) ∧ tget (s.core 0).semLast 0 3 % 4 = 0 ∧
       (s.seat 0 0).wait = some (.sem 3 5) ∧ 5 ≤ (s.core 0).semVal 3 ∧
       (∀ j, j < 4 → j ≠ 0 → (s.seat 0 j).wait = none ∧ (s.seat 0 j).bcw = .none)) ∧
    (idle.eachSeat State.arrivePhase).launch 0 1 = some placedLaunch ∧ placedLaunch.dom ≠ 5 ∧
    (let l : Launch := { placedLaunch with dom := 5 }
     let s : State := { (withSeat idle (fun t => { t with wait := some (.phase 2 1 false), phase := 0 })) with
       launches := [l], pkg := { idle.pkg with pod := [(0, 0x8000000000000000), (1, 3)] } }
     let s' := s.eachSeat State.arrivePhase
     (match s'.launch 0 1 with
       | some l' => l'.dom == 5 && l'.started && s'.homeOne (s'.podPa l' 0) 0 == .ok
       | none => false) = true ∧
       (∀ x ∈ s'.launches, x.ten = 0 → x.dom = 5 → x.started = true → x.noneMissing 0 = true) ∧
       (∃ x ∈ s'.launches, x.ten = 0 ∧ x.dom = 5 ∧ x.started = true ∧ 0 < x.here 0) ∧ s'.podChannel 0 = some 0 ∧ (tget s'.pkg.pod 0 1).getLsbD 1 = true ∧ (1, 7) ∈ [(1, (7 : Word))]) ∧
    (let s := withSeat idle (fun t => { t with wait := some (.barr 2 63 0 0 false) })
     (s.seat 0 0).wait = some (.barr 2 63 0 0 false) ∧ (s.die (0 / 128)).halted = none ∧
       (∀ a ∈ (s.seat 0 0).accs, a.performed = true ∨ a.accepted.isSome = true)) ∧
    (let s : State := { idle with pkg := { idle.pkg with bars := [(63, { due := [0] })] } }
     (tfind s.pkg.bars 63).isSome = true) ∧
    (let s : State := withSeat { idle with pkg := { idle.pkg with bars := [(63, { gen := 5 })] } } (fun t => { t with wait := some (.barr 2 63 5 0 true) })
     let b := s.bar 63
     (s.seat 0 0).wait = some (.barr 2 63 5 0 true) ∧ b.gen < 2 ^ 32 ∧ b.rst = 0 ∧ b.rst ≠ 1 ∧ (s.seat 0 0).restore = false ∧
       (BitVec.ofNat 32 b.gen - BitVec.ofNat 32 5).msb = false ∧ ¬(BitVec.ofNat 32 b.gen - BitVec.ofNat 32 6).msb = false) := by
  refine ⟨⟨?_, ?_⟩, ?_, ?_, ?_, ?_, ?_, ?_⟩
  · intro r hr
    rw [semWaiting_recs] at hr
    cases hr
  all_goals decide +kernel

/-- A bundle that holds for a board or for a check. -/
def held (board : Option (Nat × Word × Word × Word)) (check : List (Nat × Nat × Nat × Nat)) (answer : Option (Nat × List Nat)) : Held :=
  { iss := bundle [], board := board, check := check, due := 0, answer := answer }

def holding (h : Held) : State := withSeat idle (fun t => { t with held := some h })

theorem witness_HeldBundlesAndBoards :
    (∀ kind ∈ [0, 1, 2, 3],
      let h := held (some (kind, 0, 0, 0)) [] none
      let s := holding h
      (s.seat 0 0).held = some h ∧ h.answer = none ∧ h.check = [] ∧ (s.die (0 / 128)).halted = none ∧ (∀ a ∈ (s.seat 0 0).accs, a.performedAt false = true) ∧
        (s.sendBoard 0 0 h 0).2.boardHome 0 = .ok ∧
        ((s.modDie 2 (fun d => { d with halted := some 0 })).sendBoard 0 0 h 0x2000000000000).2.boardHome 0x2000000000000 = .silent) ∧
    (let h := held (some (1, 0x114000000000000, 0, 0)) [] none
     ((holding h).sendBoard 0 0 h 0x114000000000000).2.boardHome 0x114000000000000 = .lost 5 ∧ { h with sent := some 0 }.sent.isSome = true) ∧
    (∀ reason ∈ [0, 3, 5],
      let h := held (some (0, 0, 0, 0)) [] (some (reason, [1, 1]))
      let s := holding h
      (s.seat 0 0).held = some h ∧ h.due ≤ (s.core 0).now ∧ (s.die (0 / 128)).halted = none ∧ s.iss = none) ∧
    (let h := held none [(0x20000, 0x20000, 8, 2)] none
     let s := holding h
     (s.seat 0 0).held = some h ∧ (s.seat 0 0).strand = some placedStrand ∧ s.homeOne 0x20000 0 ≠ .silent ∧ (s.die (0 / 128)).halted = none ∧ s.iss = none ∧
       (s.heardFrom (0 / 128) 0x20000).raceAt 0 1 0 2 0x20000 8 = none ∧
       ((({ s with lines := [(0x800, { entries := [⟨0, 1, 9, 1, 0, 0, 0, 0⟩] })] } : State).heardFrom (0 / 128) 0x20000).raceAt 0 1 0 2 0x20000 8).isSome = true) ∧
    (let v : Word := 0x8010000000000000
     (tget (idle.die 0).boards {} 255).en = false ∧ v.getLsbD 63 = true ∧ v.toNat / 2 ^ 48 % 2 ^ 8 ≤ 16 ∧
       16 < (0x8011000000000000 : Word).toNat / 2 ^ 48 % 2 ^ 8 ∧
       (tget ((idle.modDie 0 (fun d => { d with boards := [(255, { en := true })] })).die 0).boards {} 255).en = true) := by
  refine ⟨?_, ?_, ?_, ?_, ?_⟩ <;> decide +kernel

/-! ### Core, trap and debugger events -/

/-- A strand's record at a trap. -/
def rec0 (seq : Nat) : TrapRec := { cause := 5, defer := true, info0 := 3, info1 := 0, info2 := 0, info3 := 0, seq := seq }

theorem witness_CoreEvents :
    placed.coreStill 0 = false ∧
    (let s' := (placed.settleSems 0).arriveGears 0
     let s0 := s'.refresh 0 0
     (placed.core 0).running = some 0 ∧ (placed.settleSems 0).outranked 0 0 = false ∧ (placed.settleSems 0).spent 0 0 = false ∧
       (s'.seat 0 0).strand.isSome = true ∧ s0.fpPending 0 0 = false ∧ (s0.seat 0 0).stalled ≤ (s0.core 0).now ∧ s0.seatOpen 0 0 = true ∧
       s0.overdue 0 0 = false ∧ (s0.seat 0 0).pend = none ∧
       (s0.seat 0 0).wait = none ∧ (s0.seat 0 0).deferred = [] ∧
       (match (s0.attempt 0 0 true).2 with
         | .issue u => u.pc == 0x10000
         | _ => false) = true) ∧
    (let s := withSeat idle (fun t => { t with leave := some .halt })
     let s' := s.beforeSpill 0 0
     s.coreStill 0 = false ∧ (s.seat 0 0).held = none ∧ (s.seat 0 0).leave = some .halt ∧ (s.seat 0 0).killed = none ∧ (s'.seat 0 0).leave = some .halt ∧ (s'.seat 0 0).killed = none ∧ s'.quiet 0 0 = true) ∧
    (let s := placed.modCore 0 (fun k => { k with running := none, bubbled := true, last := 3 })
     s.coreStill 0 = false ∧ (s.core 0).running = none ∧ (s.settleSems 0).seatReady 0 (s.core 0).last = false ∧ (s.core 0).bubbled = true ∧
       (s.settleSems 0).pickSeat 0 = some 0) ∧
    (let s := placed.modCore 0 (fun k => { k with running := none, last := 0 })
     s.coreStill 0 = false ∧ (s.core 0).running = none ∧ (s.core 0).gaveUp = false ∧ (s.settleSems 0).seatReady 0 (s.core 0).last = true) ∧
    (let k : Core := { gear := 2, pgear := 0, changed := some 70 }
     k.changed ≠ some 71 ∧ k.changed = some 70 ∧ k.gear = min 8 2 ∧ k.gear ≠ min 8 15 ∧ k.pgear = min 8 0 ∧ k.pgear ≠ min 8 9) := by
  refine ⟨?_, ?_, ?_, ?_, ?_, ?_⟩ <;> decide +kernel

/-- Two strands on core 0, the second with a priority of its own; the first runs and has issued some bundles. -/
def twoReady (prio run : Nat) : State :=
  let t := placed.seat 0 0
  (placed.modSeat 0 0 (fun t => { t with run := run })).modSeat 0 1 (fun _ => { t with strand := some { placedStrand with prio := prio } })

theorem witness_CoreEvents_switch :
    (let s := twoReady 5 0
     let s' := s.settleSems 0
     s.coreStill 0 = false ∧ (s.core 0).running = some 0 ∧ s'.pinned 0 0 = false ∧
       s'.otherReady 0 0 (s'.seatRank 0 0 + 1) = true ∧ s'.outranked 0 0 = true) ∧
    (let s := twoReady placedStrand.prio 4096
     s.coreStill 0 = false ∧ (s.core 0).running = some 0 ∧ 4096 ≤ (s.seat 0 0).run ∧ (s.seat 0 0).mode.modectl.toNat.testBit 4 = false ∧
       s.pinned 0 0 = false ∧ (s.settleSems 0).spent 0 0 = true ∧ s.otherReady 0 0 (s.seatRank 0 0) = true) := by
  refine ⟨?_, ?_⟩ <;> decide +kernel

theorem witness_CoreEvents_traps :
    (let p : PendingTrap := ⟨rec0 3, 0x10000, {}, none⟩
     let s := withSeat idle (fun t => { t with pend := some p })
     s.coreStill 0 = false ∧ (s.seat 0 0).pend = some p ∧ (s.seat 0 0).loading = false) ∧
    (let s := withSeat idle (fun t => { t with deferred := [rec0 3] })
     s.coreStill 0 = false ∧ (s.core 0).running = some 0 ∧ s.seatOpen 0 0 = true ∧ (s.seat 0 0).pend = none ∧ (s.seat 0 0).wait = none ∧
       (s.refresh 0 0).fpPending 0 0 = false ∧ (s.seat 0 0).stalled ≤ (s.core 0).now) := by
  decide +kernel

theorem witness_TrapEntryWritesTheTrapRegisters :
    (let p : PendingTrap := ⟨rec0 3, 0x10000, {}, none⟩
     let t := (withSeat idle (fun t => { t with deferred := [rec0 2] })).seat 0 0
     p.rcd.defer = true ∧ earliest (p.rcd :: t.deferred) = some (rec0 2) ∧ (t.reports p).1.rcd.cause < 2 ^ 8 ∧ (3 : Nat) < 4) ∧
    (let p : PendingTrap := ⟨{ rec0 3 with defer := false }, 0x10000, {}, some 0x10000⟩
     p.rcd.defer = false ∧ p.redo.isSome = true ∧ (idle.seat 0 0).deferred = []) ∧
    (let p : PendingTrap := ⟨{ rec0 3 with defer := false }, 0x10000, {}, none⟩
     p.rcd.defer = false ∧ p.redo = none) := by decide +kernel

/-- A seat just before its trap is taken. -/
def trapping (f : Seat → Seat) : Seat :=
  (({ ((withSeat idle f).returnWait 0 0).modSeat 0 0 (fun t => { t with holding := false, ported := false, counted := false }) with iss := none } : State)).seat 0 0

theorem witness_TrapTakenAndReturn :
    (trapping (fun t => { t with tm := true })).tm = true ∧ (trapping id).trap.vec.getLsbD 0 = false ∧
    (let t := trapping (fun t => { t with trap := { t.trap with vec := 0x8001 }, accs := [acc0] })
     t.tm = false ∧ t.trap.vec.getLsbD 0 = true ∧ t.loading = true) ∧
    (let t := trapping (fun t => { t with trap := { t.trap with vec := 0x8001 } })
     t.tm = false ∧ t.trap.vec.getLsbD 0 = true ∧ t.loading = false) ∧
    earliest ((withSeat idle (fun t => { t with deferred := [rec0 9, rec0 3, rec0 7] })).seat 0 0).deferred = some (rec0 3) ∧ (3 : Nat) < 4 := by
  refine ⟨?_, ?_, ?_, ?_, ?_, ?_⟩ <;> decide +kernel

theorem witness_DebuggerReadsAndWrites :
    idle.coreStill 0 = false ∧ idle.haltable 0 0 = true ∧ idle.resultsOut 0 0 = false ∧ (accessing id).resultsOut 0 0 = true ∧ (3 : Nat) < 4 ∧ (∀ p ∈ idle.tens, p.2.unwritten = []) ∧
    (let s := withSeat idle (fun t => { t with halted := true })
     s.coreStill 0 = false ∧ (s.seat 0 0).halted = true) ∧
    (idle.die 3).halted = none ∧ ((idle.modDie 3 (fun x => { x with halted := some 70 })).die 3).halted = some 70 ∧
    (63 : Nat) < 64 ∧ (31 : Nat) < 32 ∧ 127 < (idle.seat 0 0).alloc .v ∧ (7 : Nat) < 8 := by
  decide +kernel
/-- Memory mapped onto itself for tenancy 0: tables of levels 0 to 2 (R214, R215), a 1 GiB leaf with every permission. -/
def mapped : State :=
  { idle with
    mem := placeWords (placeWords (placeWords idle.mem 0 [0x1003]) 0x1000 [0x2003]) 0x2000 [0x1D]
    tens := tput idle.tens 0 { idle.tenancy 0 with root := 1 } }


/-! ### Strand events -/

/-- A record of a second strand, ready. -/
def record1 : Rec := { entry := 1, img := {}, strand := { placedStrand with idx := 1, prio := 1 }, ready := true }

/-- The die's record area holding that record, changed as asked. -/
def recorded (f : Rec → Rec) : State := idle.modDie 0 (fun d => { d with recs := [f record1] })

theorem witness_StrandEvents :
    (∀ l ∈ [Leave.suspend 0x5000000000000000 0x7FFFFFFF, .yield],
      let s := withSeat idle (fun t => { t with leave := some l })
      let s' := if l = .yield then s.beforeSpill 0 0 else s.refresh 0 0
      s.coreStill 0 = false ∧ (s'.seat 0 0).killed = none ∧ (s'.seat 0 0).held = none ∧ (s'.seat 0 0).spoiled = false ∧ s'.owed 0 0 = false ∧
        s'.quiet 0 0 = true ∧ (s.seat 0 0).leave = some l ∧ (s'.seat 0 0).leave = some l) ∧
    (let s := withSeat idle (fun t => { t with leave := some .preempt })
     let s' := s.beforeSpill 0 0
     s.coreStill 0 = false ∧ (s.seat 0 0).leave = some .preempt ∧ (s.seat 0 0).killed = none ∧ (s.seat 0 0).held = none ∧
       (s.seat 0 0).spoiled = false ∧ (s'.seat 0 0).pend = none ∧ (s'.seat 0 0).deferred = [] ∧ (s'.seat 0 0).accs = [] ∧ (s'.seat 0 0).sigs = [] ∧ s'.owed 0 0 = false ∧
       (s'.waitExit 0 0).isSome = true) ∧
    (let s := withSeat idle (fun t => { t with leave := some (.page 0x40000000 0), accs := [{ acc0 with pas := none, va := 0x40000000 }] })
     let s' := s.refresh 0 0
     s.coreStill 0 = false ∧ (s'.seat 0 0).killed = none ∧ (s'.seat 0 0).held = none ∧ (s'.seat 0 0).spoiled = false ∧ s'.owed 0 0 = false ∧
       (s.seat 0 0).leave ≠ some .yield ∧ (s'.seat 0 0).leave = some (.page 0x40000000 0) ∧ s'.onlyMissing 0 0 = true) ∧
    (let z : Exit := { wake := 0, live := 0x7FFFFFFF }
     (idle.seat 0 0).strand = some placedStrand ∧ (idle.die (0 / 128)).freeEntry = some 0 ∧
       idle.leaveStop 0 z (idle.exitRec 0 0 z placedStrand 0) = none ∧
       (let s : State := { idle with poison := [idle.entryPa 0 0 / 64] }
        s.leaveStop 0 z (s.exitRec 0 0 z placedStrand 0) = some (.err 2 (s.entryPa 0 0) (2 ^ 64 - 1)))) ∧
    (let f : Rec → Rec := fun r => { r with ready := false, wake := 0x5000000000000000 }
     let s := recorded f
     (s.die 0).recs.find? (fun r => r.entry == 1) = some (f record1) ∧ (s.die 0).halted = none ∧ (f record1).ready = false ∧
       s.wakeMet (f record1) = true ∧ ((f record1).only = none ∨ (f record1).kind ≠ 1)) ∧
    (let f : Rec → Rec := fun r => { r with ready := false, only := some 0, wake := 0x1003000100000000 }
     (f record1).ready = false ∧ (f record1).only = some 0 ∧ (f record1).kind = 1) := by
  refine ⟨?_, ?_, ?_, ?_, ?_, ?_⟩ <;> decide +kernel

theorem witness_StrandEvents_records :
    (let s := recorded id
     (s.die 0).recs.find? (fun r => r.entry == 1) = some record1 ∧ (s.die 0).halted = none ∧
       s.nextPlace 0 (s.listOf 0 record1) = some (record1, 1) ∧ s.entryStop 0 1 = none ∧ s.recGood 0 1 = true ∧
       (s.core 1).freeSeatNum = some 0 ∧ record1.fresh = false ∧ s.restoreStop record1 = none ∧
       (let s' : State := { s with mem := leWrite s.mem (s.entryPa 0 1) 1 1 }
        s'.nextPlace 0 (s'.listOf 0 record1) = some (record1, 1) ∧ s'.entryStop 0 1 = none ∧ s'.recGood 0 1 = false)) ∧
    (let s := recorded (fun r => { r with fresh := true })
     s.nextPlace 0 0 = some ({ record1 with fresh := true }, 1)) ∧
    (let s : State := { mapped.modDie 0 (fun d => { d with recs := [record1] }) with poison := [0x1000000 / 64] }
     s.nextPlace 0 (s.listOf 0 record1) = some (record1, 1) ∧ s.entryStop 0 1 = none ∧
       s.restoreStop record1 = some (.err 1 0x1000000 0x1000000)) := by
  refine ⟨?_, ?_, ?_⟩ <;> decide +kernel

theorem witness_StrandEvents_seats :
    (let s := withSeat idle (fun t => { t with restore := true })
     s.coreStill 0 = false ∧ (s.seat 0 0).restore = true ∧ (s.seat 0 0).strand.isSome = true ∧ (s.seat 0 0).killed = none ∧
       (s.seat 0 0).leave = none ∧ (s.seat 0 0).accs = []) ∧
    (let f : Rec → Rec := fun r => { r with only := some 0 }
     let s := recorded f
     s.coreStill 0 = false ∧ (s.seat 0 0).halted = false ∧ (s.seat 0 0).halting = false ∧
       (s.die (0 / 128)).recs.find? (fun r => (s.victims (0 / 128) r).contains (0, 0)) = some (f record1) ∧
       (∀ p ∈ s.victims (0 / 128) (f record1), p ≠ (0, 0) → s.victimBefore (f record1).strand.ten (0, 0) p = true)) ∧
    (let s : State := { withSeat idle (fun t => { t with preempt := some 0 }) with tbase := 50000 }
     s.coreStill 0 = false ∧ (s.seat 0 0).preempt = some 0 ∧ 0 + 50000 ≤ s.tbase ∧ (s.seat 0 0).strand.isSome = true ∧
       (s.seat 0 0).killed = none ∧ (s.seat 0 0).leave = none ∧ (s.seat 0 0).held = none ∧ (s.seat 0 0).pend = none ∧
       (s.seat 0 0).halted = false ∧ (s.seat 0 0).halting = false ∧ (s.seat 0 0).restore = false ∧ (s.seat 0 0).deferred = [] ∧ s.inTile 0 0 = false) ∧
    (let s := withSeat idle (fun t => { t with killed := some 6 })
     let s' := s.settle 0 0
     s.coreStill 0 = false ∧ (s.seat 0 0).killed = some 6 ∧ (s.seat 0 0).strand = some placedStrand ∧ (s'.seat 0 0).accs = [] ∧
       (s'.seat 0 0).sigs = [] ∧ (s'.core 0).working placedStrand = false) := by
  refine ⟨?_, ?_, ?_, ?_⟩ <;> decide +kernel

/-! ### Launch, tenancy and host events -/

/-- Queue 1 of tenancy 0 with a packet in its first slot. -/
def withPacket (ws : List Word) : State :=
  { mapped with
    mem := placeWords mapped.mem 0x40000 ws
    tens := tput mapped.tens 0 { mapped.tenancy 0 with queues := [(1, { served := some (0x40000, 2, false, 0x50008, 0x50000) })] } }

/-- Whether the packet is served, and what a test asks of it. -/
def servedIs (s : State) (f : State → Packet → Bool) : Bool :=
  let s0 := if s.serves 0 then s.probeQueue 0 1 else s
  match s0.served 0 1 with
  | some p => f s0 p
  | none => false

/-- Whether a range of tenancy 0 answers, or with which reason it fails. -/
def answers (s : State) (need : Need) (va n : Nat) : Bool :=
  match s.agentRange 0 need va n with
  | .ok _ => true
  | .error _ => false

def failsWith (s : State) (need : Need) (va n : Nat) : Bool :=
  match s.agentRange 0 need va n with
  | .error (.fail _) => true
  | .error _ => false
  | .ok _ => false

/-- The launch that a packet asks for. -/
def launchIn (s : State) (p : Packet) : Launch :=
  let s' := s.takePacket 0 1 p
  let n := (s'.issueCompl 0 p.compl).1
  let s1 := (s'.issueCompl 0 p.compl).2
  p.launch 0 1 ((s1.tenancy 0).keys + 1) (s.packetPrio 0 1 p) n ((s1.tenancy 0).expert.toNat % 2 ^ 11) (tget (s.tenancy 0).queues {} 1).since

/-- A LAUNCH packet with a body word 4. -/
def launchPacket (w4 : Word) : List Word := [0x8001000000000000, 0x10000, 0, 0, w4, 0xFF, 0, 0]

theorem witness_LaunchEvents_packets :
    (let s := withPacket (launchPacket 0)
     servedIs s (fun s p => p.type == 1 && !p.launchOk (launchIn s p)) = true) ∧
    (let s := withPacket (launchPacket 0x0000088000000000)
     servedIs s (fun s p => p.type == 1 && p.launchOk (launchIn s p) && !(launchIn s p).modeOk) = true) ∧
    (let s := withPacket (launchPacket 0x0000008000000000)
     servedIs s (fun s p => p.type == 1 && p.launchOk (launchIn s p) && (launchIn s p).modeOk) = true) ∧
    servedIs (withPacket [0x8002000000000000]) (fun _ p => p.type == 2) = true ∧
    servedIs (withPacket [0x8003000000000000]) (fun _ p => p.type == 3) = true ∧
    (let s := withPacket [0x8004000000000000, 0x60000, 7, 0, 0, 0xFF, 0, 0]
     servedIs s (fun s p => p.type == 4 && p.signalOk &&
       answers ((s.takePacket 0 1 p).issueCompl 0 p.compl).2 .write (p.word 1) 8) = true) ∧
    servedIs (withPacket [0x8004000000000001, 0x60000, 7, 0, 0, 0xFF, 0, 0]) (fun _ p => p.type == 4 && !p.signalOk) = true ∧
    servedIs (withPacket [0x8005000000000000]) (fun _ p => p.type == 5) = true := by
  refine ⟨?_, ?_, ?_, ?_, ?_, ?_, ?_, ?_⟩ <;> decide +kernel

/-- A second launch, not yet started, changed as asked. -/
def launching (f : Launch → Launch) : Launch :=
  f { placedLaunch with key := 2, lid := 0, queue := 1, started := false, switch := none, window := [], created := [], svc := 0 }

def withLaunch (f : Launch → Launch) : State := { idle with launches := idle.launches ++ [launching f] }

theorem witness_LaunchEvents_starts :
    (let f : Launch → Launch := fun l => { l with pool := 0x10000000 }
     let s := withLaunch f
     s.byKey 0 2 = some (launching f) ∧ s.alive 0 = true ∧ (launching f).started = false ∧ (launching f).deps.all (s.depMet 0) = true ∧
       ∃ d ∈ (launching f).dies, (s.die d).largestWindow < (launching f).pool) ∧
    (let f : Launch → Launch := fun l => { l with svc := 3 }
     let s : State := { withLaunch f with svclvl := 1, svcFail := true }
     s.byKey 0 2 = some (launching f) ∧ s.alive 0 = true ∧ (launching f).started = false ∧ (launching f).deps.all (s.depMet 0) = true ∧
       (∀ d ∈ (launching f).dies, (launching f).pool ≤ (s.die d).largestWindow) ∧ s.svcFail = true ∧ s.svclvl < (launching f).svc) ∧
    (let s := withLaunch id
     s.byKey 0 2 = some (launching id) ∧ s.alive 0 = true ∧ (launching id).started = false ∧ (launching id).deps.all (s.depMet 0) = true ∧
       (∀ d ∈ (launching id).dies, (launching id).pool ≤ (s.die d).largestWindow) ∧ s.canStart (launching id) = true) ∧
    (let f : Launch → Launch := fun l => { l with started := true, lid := 2, status := 8, rerun := true, ended := [0] }
     let s := withLaunch f
     s.byKey 0 2 = some (launching f) ∧ s.alive 0 = true ∧ (launching f).finished = true ∧ (launching f).outcome = 8 ∧
       (launching f).rerun = true ∧ (launching f).again = false) ∧
    (let f : Launch → Launch := fun l => { l with started := true, lid := 2, ended := [0] }
     let s := withLaunch f
     s.byKey 0 2 = some (launching f) ∧ s.alive 0 = true ∧ (launching f).finished = true ∧ (launching f).rerun = false) := by
  refine ⟨?_, ?_, ?_, ?_, ?_⟩ <;> decide +kernel

theorem witness_LaunchEvents_runs :
    (let f : Launch → Launch := fun l => { l with started := true, lid := 2 }
     let s := withLaunch f
     s.launch 0 2 = some (launching f) ∧ (launching f).started = true ∧ s.alive 0 = true ∧ (s.die 0).halted = none ∧ 0 ∈ (launching f).dies ∧
       (∀ r ∈ (s.die 0).waiting, r.ten ≠ 0) ∧ tfind (launching f).window 0 = none ∧ s.windowFree 0 0x20000 (launching f).pool = true ∧
       (launching f).switch = none) ∧
    (let f : Launch → Launch := fun l => { l with started := true, lid := 2, window := [(0, 0x20000)] }
     let s := withLaunch f
     s.launch 0 2 = some (launching f) ∧ (launching f).started = true ∧ s.alive 0 = true ∧ (s.die 0).halted = none ∧ 0 ∈ (launching f).dies ∧
       (∀ r ∈ (s.die 0).waiting, r.ten ≠ 0) ∧ ∀ k ∈ (launching f).dies, (tfind (launching f).window k).isSome = true) ∧
    idle.launch 0 1 = some placedLaunch ∧ placedLaunch.switch.isSome = true ∧
    (let s := withPacket []
     (s.die 0).halted = none ∧ (tfind (s.tenancy 0).queues 1).isSome = true) ∧
    (let f : Launch → Launch := fun l => { l with started := true, lid := 2, switch := some 0, budget := 4 }
     let s : State := { withLaunch f with tbase := 16 }
     s.byKey 0 2 = some (launching f) ∧ (launching f).budget ≠ 0 ∧ 0 + 2 ^ (launching f).budget ≤ s.tbase) := by
  refine ⟨?_, ?_, ?_, ?_, ?_, ?_⟩ <;> decide +kernel

/-- The table-update ring at the start of host memory, with one command. -/
def ringed (ws : List Word) : State :=
  let s : State := { idle with mem := placeWords idle.mem (hostPa 0x10000) ws }
  { s with pkg := { s.pkg with tueRbase := 0x10000, tueRsize := 16, tueWidx := 1 } }

/-- Whether the ring's next command is good, and its operation. -/
def headIs (s : State) (op : Nat) : Bool :=
  match s.tueHead with
  | some x => !x.bad s.pkg.tueNext && x.op == op && (x.op != 2 || 0 < x.value)
  | none => false

theorem witness_TenancyAndRegisterEvents :
    (15 : Nat) < 16 ∧ ((withPacket []).queueOf 0 1).isSome = true ∧ (withPacket []).agentWaits 0 .write 0x40000 8 = false ∧ idle.pkg.hostUp = true ∧
    (let s := idle.modDie 2 (fun d => { d with boards := [(9, { en := true, ten := 0 })] })
     (tget (s.die 2).boards {} 9).en = true) ∧
    (∀ k, k < 4 → (idle.die k).halted = none) ∧
    headIs (ringed [0x0100000000000000, 0x2000, 0x1D, 1]) 1 = true ∧
    headIs (ringed [0x0200000000000000, 0x20000, 1, 1]) 2 = true ∧
    headIs (ringed [0x0300000000000000, 0, 0, 1]) 3 = true ∧
    ((State.reset.die 1).recs = [] ∧ State.reset.windowsOn 1 = [] ∧ ∀ p ∈ State.reset.cores, p.1 / 128 = 1 → p.2.residents = []) ∧
    (0x1FFFF < 0x20000 ∨ 0x31000 ≤ (0x1FFFF : Nat)) ∧ (16 : Nat) ≤ 16 ∧ (0xFFF : Nat) < 0x1000 ∧ (63 : Nat) < 64 ∧
    (0x8000000000000001 : Word).getLsbD 63 = true ∧ (tget idle.pkg.route 0 63).getLsbD 63 = false := by
  refine ⟨by decide, ?_, ?_, ?_, ?_, ?_, ?_, ?_, ?_, ?_, by decide, by decide, by decide, by decide, by decide, ?_⟩ <;> decide +kernel

/-! ### Host, fabric, reliability and package events; every syllable -/

theorem witness_HostAndFabricEvents :
    mapped.pkg.hostUp = true ∧ mapped.pkg.hostHeld = none ∧
    answers (mapped.agentWalks 0 0x3000 8) .read 0x3000 8 = true ∧ answers (mapped.agentWalks 0 0x303C 8) .write 0x303C 8 = true ∧
    failsWith (idle.agentWalks 0 0x3000 8) .read 0x3000 8 = true ∧ failsWith (idle.agentWalks 0 0x3000 8) .write 0x3000 8 = true ∧
    answers mapped .read 0x3000 8 = true ∧ answers mapped .write 0x303C 8 = true ∧
    (match mapped.agentRange 0 .atomic 0x3000 8 with
      | .ok ps => ps.map Prod.fst == [0x3000] && ownHome ps
      | .error _ => false) = true ∧ accRefused (.atom .smax) 0x3000 = none ∧
    (tget idle.pkg.keymap 0 3).getLsbD 63 = false ∧
    (let s : State := { idle with pkg := { idle.pkg with keymap := [(3, 0x8000000000000000)] } }
     (tget s.pkg.keymap 0 3).getLsbD 63 = true) ∧
    idle.hostPending 0 5 = false ∧
    (let s : State := { idle with pkg := { idle.pkg with route := [(5, 0x8000000000000001)] } }
     (tget s.pkg.route 0 5).getLsbD 63 = true) ∧
    ({ idle.pkg with hostUp := false }).hostUp = false := by
  refine ⟨?_, ?_, ?_, ?_, ?_, ?_, ?_, ?_, ?_, ?_, ?_, ?_, ?_, ?_, ?_⟩ <;> decide +kernel

/-- A package whose port 2 has a lane register, and has been held since some tick. -/
def ported (w : Nat) (l : List (Nat × Nat)) : State :=
  { idle with pkg := { idle.pkg with lanes := [(2, BitVec.ofNat 64 w)], portHeld := l }, tbase := 150000 }

theorem witness_HostAndFabricEvents_links :
    ((ported 0x0F []).pkg.lane 2).testBit 7 = false ∧
    (let w := (ported 0x8F []).pkg.lane 2
     w.testBit 7 = true ∧ w.testBit 6 = false ∧ w % 16 = 15) ∧
    (let w := (ported 0x83 []).pkg.lane 2
     w.testBit 7 = true ∧ w.testBit 6 = false ∧ w % 16 ≠ 15 ∧ w % 16 ≠ 8) ∧
    tfind (ported 0xC3 [(2, 0)]).pkg.portHeld 2 = some 0 ∧ (ported 0xC3 [(2, 0)]).tbase ≤ 0 + 150000 ∧
    (let s : State := { idle with pkg := { idle.pkg with hostHeld := some 0 } }
     s.pkg.hostHeld = some 0) := by
  refine ⟨?_, ?_, ?_, ?_, ?_, ?_⟩ <;> decide +kernel

/-- A change to cluster 3 of die 1. -/
def clustered (f : Cluster → Cluster) : State := (State.reset.modCluster 1 3 f)

theorem witness_ReliabilityEvents :
    (1 = 1 ∨ 1 = 2) ∧
    (let s : State := { State.reset with tbase := 86400000000000 }
     (s.die 1).halted = none ∧ (s.die 1).scrubbed + s.pkg.scrubint.toNat * 1000000000 ≤ s.tbase) ∧
    (let s : State := { State.reset with tbase := 150000000000, pkg := { State.reset.pkg with fumDie := 1 } }
     (s.die 1).passCluster = none ∧ s.pkg.fumDie = 1 ∧ s.pkg.fumLast + s.pkg.passTicks ≤ s.tbase) ∧
    (let s : State := { clustered (fun x => { x with drain := .pass 0 }) with tbase := 10000000 }
     (s.die 1).passCluster = some (3, 0) ∧ s.vacant 1 3 = true ∧ s.enginesDone 1 3 = true ∧ 0 + 10000000 ≤ s.tbase) ∧
    (let s := clustered (fun x => { x with drain := .scan 5 })
     (s.cluster 1 3).drain = .scan 5 ∧ 8 ∈ [8] ∧ ∀ j, j < 8 → (s.cluster 1 3).physOf j ∉ [8] ++ (s.cluster 1 3).pending) ∧
    (State.reset.cluster 1 3).drain = .none := by
  refine ⟨by decide, ?_, ?_, ?_, ?_, ?_⟩ <;> decide +kernel

theorem witness_ReliabilityEvents_pairs :
    (let s : State := { clustered id with cyc := 256 }
     (s.cluster 1 3).paired = true ∧ (s.cluster 1 3).retry = none ∧ 256 * ((s.cluster 1 3).ckpt + 1) ≤ s.cyc ∧ (s.cluster 1 3).mism = [] ∧
       (s.cluster 1 3).drain = .none) ∧
    (let s : State := { clustered (fun x => { x with mism := [7, 3] }) with tbase := 2 ^ 30 + 2 }
     (s.cluster 1 3).paired = true ∧ (s.cluster 1 3).mism = 7 :: 3 :: [] ∧ s.tbase < 7 + 2 ^ 30 ∧ s.tbase < 3 + 2 ^ 30) ∧
    (let s : State := { clustered (fun x => { x with retry := some 0, drain := .pair 9 }) with cyc := 256 }
     (s.cluster 1 3).paired = true ∧ (s.cluster 1 3).retry = some 0 ∧ (s.cluster 1 3).drain = .pair 9 ∧ s.vacant 1 3 = true ∧ 0 + 256 ≤ s.cyc) ∧
    (let s : State := { State.reset.modDie 1 (fun d => { d with faultBuf := [⟨0x10, 0xFF, 3, 2, 0, []⟩] }) with
       pkg := { State.reset.pkg with evqSize := 16 } }
     (s.die 1).faultBuf = [⟨0x10, 0xFF, 3, 2, 0, []⟩] ∧ (s.die 1).summary.any = false ∧ s.hostSpace = true ∧ s.pkg.hostHeld = none ∧
       (s.die 1).halted = none) ∧
    (let s : State := { State.reset with tens := [(3, { frozen := true })] }
     ∃ p ∈ s.tens, p.2.frozen = true) := by
  refine ⟨?_, ?_, ?_, ?_, ?_⟩ <;> decide +kernel

theorem witness_PackageEvents :
    State.reset.svcFail = false ∧ ({ State.reset.pkg with images := [(0, 0), (1, 0), (2, 0)] } : Pkg).measured = true ∧ State.reset.svclvl = 0 ∧
    State.reset.tbase < 30 * 10 ^ 9 ∧ State.reset.pkg.measured = false ∧ (∀ x ∈ State.reset.pkg.images, x.1 ≠ 2) ∧ (State.reset.core 5).absent = false ∧
    inPool 0 = false ∧ (0 : Nat) < 255 ∧ (255 : Nat) ≤ 255 ∧ (16 : Nat) ≤ 16 ∧ (255, 16) ∉ State.reset.bound ∧
    ({ State.reset with svcFail := true } : State).svcFail = true := by
  decide +kernel

theorem witness_FalseGuardHasNoEffect : guardOf (.add ⟨true, 0⟩ .i 2 3 4) = some ⟨true, 0⟩ ∧ (issuing []).iss = some (bundle []) ∧
    (issuing []).guard (bundle []) ⟨true, 0⟩ = false ∧
    ∀ a b, Instr.add ⟨true, 0⟩ .i 2 3 4 ≠ .macc ⟨true, 0⟩ a b ∧ Instr.add ⟨true, 0⟩ .i 2 3 4 ≠ .maccZg ⟨true, 0⟩ a b ∧
      Instr.add ⟨true, 0⟩ .i 2 3 4 ≠ .maccs ⟨true, 0⟩ a b ∧ Instr.add ⟨true, 0⟩ .i 2 3 4 ≠ .mdrain ⟨true, 0⟩ a b :=
  ⟨rfl, rfl, by decide +kernel, fun _ _ => ⟨nofun, nofun, nofun, nofun⟩⟩

theorem witness_SyllablesStoreAndWriteLater :
    let u := { bundle [] with checked := true }
    let s : State := { idle with iss := some u }
    guardOf (.add g .i 2 3 4) = some g ∧
      (∀ d a b c, Instr.add g .i 2 3 4 ≠ .copy g d a b ∧ Instr.add g .i 2 3 4 ≠ .copyp g d a b ∧
        Instr.add g .i 2 3 4 ≠ .macc g a b ∧ Instr.add g .i 2 3 4 ≠ .maccZg g a b ∧ Instr.add g .i 2 3 4 ≠ .maccs g a b ∧
        Instr.add g .i 2 3 4 ≠ .mpush g d a b c) ∧ s.iss = some u ∧ u.checked = true ∧ nextIs (exec (.add g .i 2 3 4) s) (fun t => t.mem == s.mem) = true ∧
      (0 : Nat) ≠ u.core + 1 := by
  refine ⟨rfl, fun _ _ _ _ => ⟨nofun, nofun, nofun, nofun, nofun, nofun⟩, rfl, rfl, ?_, ?_⟩ <;> decide +kernel
/-! ## The worked examples of the spec, and reset -/

theorem test_reset_inv : State.reset.Inv := by rfl

/-- R35, R98: the bundle of one LI, placed and stepped: i2 becomes 5, and the seat goes on at the next bundle. -/
theorem test_step_runs_li : nextIs (step placed) (fun t =>
    (t.seat 0 0).pc == 0x10010 && (t.seat 0 0).flights.any (fun x => x.dst == some ⟨.i, 2⟩ && x.val == 5)) = true := by decide +kernel

/-- R103's example: BFX of 0xAB_CD12 at bit 8, 12 bits. -/
theorem test_bfx : nextIs (exec (.bfx g .i 4 5 8 12) (withSeat (issuing []) (fun t => { t with regs := writeReg t.regs ⟨.i, 5⟩ 0xABCD12 })))
    (fun s => (s.seat 0 0).flights.map (fun x => (x.dst, x.val)) == [(some ⟨.i, 4⟩, 0xBCD)]) = true := by decide +kernel

/-- R61: 460.0 and 470.0 into E4M3, saturating and not, and under RZ. -/
theorem test_e4m3 : convElem false true .rne 0 3 0x43E60000 = ⟨0x7E, flNX⟩ ∧ convElem false true .rne 0 3 0x43EB0000 = ⟨0x7E, flOF + flNX⟩ ∧
    convElem false false .rne 0 3 0x43EB0000 = ⟨0x7F, flOF + flNX⟩ ∧ (convElem false false .rz 0 3 0x43EB0000).bits = 0x7E := by
  decide +kernel

/-- R136's example: lanes 460.0, −0.001 and NaN, the others 1.0, into the second part of v2. -/
theorem test_vcvt :
    let a : Vec := BitVec.ofNat 2048 (packList 32 ([0x43E60000, 0xBA83126F, 0x7FC00000] ++ List.replicate 61 0x3F800000))
    let r := vcvt false true .rne 0 3 1 (BitVec.ofNat 2048 (2 ^ 2048 - 1)) a
    elem r.1 8 63 = 0xFF ∧ elem r.1 8 64 = 0x7E ∧ elem r.1 8 65 = 0x81 ∧ elem r.1 8 66 = 0x7F ∧ elem r.1 8 67 = 0x38 ∧ elem r.1 8 127 = 0x38 ∧
      elem r.1 8 128 = 0xFF ∧ r.2.foldl (fun x y => x ||| y) 0 = flNX + flUF := by decide +kernel

/-- R59's example: the 32 values into a KB3 block. -/
theorem test_kb3 :
    let xs : List Nat := [0x40400000, 0xC0200000, 0x3F000000, 0x3E800000, 0x3F800000, 0x3FC00000, 0, 0xBF400000,
      0xC0600000, 0x3F19999A, 0x40000000, 0x3E99999A, 0x3ECCCCCD, 0x3E4CCCCD, 0x3E000000, 0xBE99999A,
      0x3F000000, 0x3F000000, 0x3F000000, 0x3F000000, 0, 0, 0, 0, 0x3FA00000, 0x3E000000, 0xBF800000, 0x3F333333,
      0x80000000, 0x3DCCCCCD, 0x3D4CCCCD, 0]
    let r := kbEncode 7 (fun i => unpack fp32 false (xs.getD i 0))
    r.1 = 0x00C382000492C5308FC1A033DEC481 ∧ ((List.range 32).map r.2).foldl (fun x y => x ||| y) 0 = flOF + flNX := by decide +kernel

/-- R72's example: the tree over 2^24, 1, −2^24, 1 gives 1, and the scan's element 1 is 2^24. -/
theorem test_vred_vscan :
    let a : Vec := BitVec.ofNat 2048 (packList 32 [0x4B800000, 0x3F800000, 0xCB800000, 0x3F800000])
    (vRed .f32 .rne false a).bits = 0x3F800000 ∧ (vScan .f32 .rne false a)[1]? = some ⟨0x4B800000, flNX⟩ ∧
      ((vScan .f32 .rne false a)[3]?.map FRes.bits) = some 0x3F800000 := by decide +kernel

/-- R75's example: 1 + 3×2 + (−4)×0.5 = 5, no flag. -/
theorem test_macc_sum : maccSum (unpack fp32 false 0x3F800000) [mulVal (.fin false 3 0) (.fin false 2 0), mulVal (.fin true 4 0) (.fin false 1 (-1))] =
    ⟨0x40A00000, 0⟩ := by decide +kernel

/-- R245's example: BF16 1.0 plus 2^−8, and plus 3 × 2^−8. -/
theorem test_agfadd_bf : atomNew .faddBf 16 0x3F80 0x3B80 0 = (0x3F80, true) ∧ atomNew .faddBf 16 0x3F80 0x3C40 0 = (0x3F82, true) := by
  decide +kernel

/-- R250's example: AGINCW with bound 9 on 7 stores 8. -/
theorem test_agincw : atomNew .incw 32 7 9 0 = (8, true) ∧ atomNew .incw 32 9 9 0 = (0, true) := by decide +kernel

/-- R320's example: the slots that keys hash to among eight. -/
theorem test_xhash : [1, 2, 10, 9, 7].map (xhashOf 3) = [4, 1, 1, 4, 2] := by decide +kernel

/-- R178's example: after seat 1, seats 0 and 2 of equal priority: seat 2; seat 0 when its priority is higher. -/
theorem test_pick_seat :
    let four (p : Nat) : State :=
      let t := placed.seat 0 0
      let at0 (prio : Nat) : Seat := { t with strand := some { placedStrand with prio := prio } }
      placed.modCore 0 (fun k => { k with running := none, last := 1, seats := [(0, at0 p), (2, at0 1)] })
    (four 1).pickSeat 0 = some 2 ∧ (four 2).pickSeat 0 = some 0 := by decide +kernel

/-- Log 1: memory holds nothing at reset, a write of what an unlisted address reads as lists nothing, and a word is stored low byte first. -/
theorem test_memory : leWrite [] 0x10 2 0x0102 = [(0x10, 2), (0x11, 1)] ∧ leWrite [(0x10, 2), (0x11, 1)] 0x10 1 0 = [(0x11, 1)] ∧
    leRead [(0x10, 2), (0x11, 1)] 0x10 8 = 0x0102 := by decide +kernel
end Sys2Proof.Tests
end

section
/-! Exact zeros and NaNs (R65): the sign of an exact sum, minima and maxima, compares, and the results that a compare puts under way. -/

namespace Sys2Proof.Machine

open Sys2Proof

/-! ## The sum of finite terms does not depend on the step it is counted in -/

/-- Counted in a finer step, the sum is the same number of coarser steps, as long as the coarser step divides every term that is not zero. -/
theorem sumAt_eq_pow_mul_sumAt {lo k : Int} {ts : List FVal} (hlo : lo ≤ k) (hk : ∀ n m e, .fin n m e ∈ ts → m = 0 ∨ k ≤ e) :
    sumAt lo ts = 2 ^ (k - lo).toNat * sumAt k ts := by
  induction ts with
  | nil => simp [sumAt]
  | cons t r ih =>
    have ih := ih (fun n m e ht => hk n m e (List.mem_cons_of_mem t ht))
    cases t with
    | nan => exact ih
    | inf _ => exact ih
    | fin n m e =>
      have hm : m * 2 ^ (e - lo).toNat = 2 ^ (k - lo).toNat * (m * 2 ^ (e - k).toNat) := by
        rcases hk n m e List.mem_cons_self with rfl | hke
        · simp
        · rw [show (e - lo).toNat = (k - lo).toNat + (e - k).toNat by omega, pow_add]
          ring
      simp only [sumAt, ih, hm]
      push_cast
      ring

/-- Zero terms sum to zero in any step. -/
theorem sumAt_eq_zero_of_zero_terms (k : Int) {ts : List FVal} (h : ∀ n m e, .fin n m e ∈ ts → m = 0) : sumAt k ts = 0 := by
  induction ts with
  | nil => rfl
  | cons t r ih =>
    have ih := ih (fun n m e ht => h n m e (List.mem_cons_of_mem t ht))
    cases t with
    | nan => exact ih
    | inf _ => exact ih
    | fin n m e =>
      obtain rfl := h n m e List.mem_cons_self
      simp [sumAt, ih]

theorem minExp_cons_fin {n : Bool} {m : Nat} {e : Int} {r : List FVal} (hm : m ≠ 0) :
    minExp (.fin n m e :: r) = some ((minExp r).elim e (min e)) := by
  rw [minExp, if_neg hm]
  cases minExp r <;> rfl

/-- `minExp` finds no exponent only when every finite term is zero. -/
theorem eq_zero_of_minExp_eq_none {ts : List FVal} (h : minExp ts = none) : ∀ n m e, .fin n m e ∈ ts → m = 0 := by
  induction ts with
  | nil => simp
  | cons t r ih =>
    cases t with
    | nan => simpa using ih h
    | inf _ => simpa using ih h
    | fin n m e =>
      have hm : m = 0 := by
        by_contra hm
        simp [minExp_cons_fin hm] at h
      have hzero := ih (by simpa [minExp, hm] using h)
      grind

/-- An exponent that `minExp` finds is that of one of the terms, and is not above that of any term that is not zero. -/
theorem minExp_eq_some_least {ts : List FVal} {k : Int} (h : minExp ts = some k) :
    (∃ n m, .fin n m k ∈ ts) ∧ ∀ n m e, .fin n m e ∈ ts → m = 0 ∨ k ≤ e := by
  induction ts generalizing k with
  | nil => simp [minExp] at h
  | cons t r ih =>
    cases t with
    | nan => simpa using ih h
    | inf _ => simpa using ih h
    | fin n m e =>
      by_cases hm : m = 0
      · have hleast := ih (by simpa [minExp, hm] using h)
        grind
      · rw [minExp_cons_fin hm] at h
        cases hr : minExp r with
        | none =>
          have hzero := eq_zero_of_minExp_eq_none hr
          grind
        | some j =>
          have hleast := ih hr
          grind

/-- A sum that is zero counted in a step that divides every finite term is zero in the step `sumVal` counts it in. -/
theorem sumAt_minExp_eq_zero {lo : Int} {ts : List FVal} (hlo : ∀ n m e, .fin n m e ∈ ts → lo ≤ e) (h : sumAt lo ts = 0) :
    sumAt ((minExp ts).getD 0) ts = 0 := by
  cases hk : minExp ts with
  | none => exact sumAt_eq_zero_of_zero_terms _ (eq_zero_of_minExp_eq_none hk)
  | some k =>
    obtain ⟨⟨n, m, hmem⟩, hdiv⟩ := minExp_eq_some_least hk
    rw [sumAt_eq_pow_mul_sumAt (hlo n m k hmem) hdiv] at h
    simpa using h

/-! ## The sign of an exact zero sum -/

/-- Finite terms that sum to zero give a zero, of the sign that R65 states. -/
theorem sumVal_of_zero_sum (rm : RM) {lo : Int} {ts : List FVal} (hfin : ∀ t ∈ ts, ∃ n m e, t = .fin n m e ∧ lo ≤ e) (h : sumAt lo ts = 0) :
    sumVal rm ts = ⟨.fin (ts.all FVal.isNegZero || rm == .rd) 0 0, 0⟩ := by
  have hnan : ts.any FVal.isNan = false := by
    refine List.any_eq_false.2 fun t ht => ?_
    obtain ⟨n, m, e, rfl, -⟩ := hfin t ht
    simp [FVal.isNan]
  have hinf (b : Bool) : ts.any (FVal.isInf b) = false := by
    refine List.any_eq_false.2 fun t ht => ?_
    obtain ⟨n, m, e, rfl, -⟩ := hfin t ht
    simp [FVal.isInf]
  have hlo : ∀ n m e, .fin n m e ∈ ts → lo ≤ e := by
    intro n m e ht
    obtain ⟨_, _, _, heq, hle⟩ := hfin _ ht
    cases heq
    exact hle
  simp [sumVal, hnan, hinf, sumAt_minExp_eq_zero hlo h]

theorem FVal.isNegZero_iff (x : FVal) : x.isNegZero = true ↔ ∃ e, x = .fin true 0 e := by
  cases x <;> simp [FVal.isNegZero]

/-- The sign `sumVal` gives an exact zero is − exactly when all terms are −0 or the rounding is down. -/
theorem zeroSumNeg_iff (rm : RM) (ts : List FVal) :
    (ts.all FVal.isNegZero || rm == .rd) = true ↔ (∀ t ∈ ts, ∃ e, t = .fin true 0 e) ∨ rm = .rd := by
  simp [List.all_eq_true, FVal.isNegZero_iff]

/-! ## Minima and maxima -/

@[simp] theorem minMaxVal_nan_left (mx : Bool) (x : FVal) : minMaxVal mx .nan x = x := rfl

@[simp] theorem minMaxVal_nan_right (mx : Bool) (x : FVal) : minMaxVal mx x .nan = x := by cases x <;> rfl

@[simp] theorem valLt_zeros (a b : Bool) (e k : Int) : valLt (.fin a 0 e) (.fin b 0 k) = false := rfl

/-- Of two zeros the one with the − sign is below (R65). -/
@[simp] theorem valBelow_zeros (a b : Bool) (e k : Int) : valBelow (.fin a 0 e) (.fin b 0 k) = a := by simp [valBelow]

/-- Of two zeros the first is taken when its sign is the one asked for. -/
theorem minMaxVal_zeros (mx a b : Bool) (e k : Int) :
    minMaxVal mx (.fin a 0 e) (.fin b 0 k) = if a != mx then .fin a 0 e else .fin b 0 k := by
  simp [minMaxVal, FVal.isNan]

/-- Two NaNs give the canonical NaN of the format, with no flag. -/
theorem fMinMax_of_nans (f : FFmt) (z mx : Bool) {a b : Nat} (ha : unpack f z a = .nan) (hb : unpack f z b = .nan) :
    fMinMax f z mx a b = ⟨f.nan, 0⟩ := by
  simp [fMinMax, ha, hb, roundVal]

/-! ## Compares -/

/-- Two zeros compare as equal, whatever their signs. -/
theorem cmpVal_zeros (cc : Nat) (a b : Bool) (e k : Int) :
    cmpVal cc (.fin a 0 e) (.fin b 0 k) = (cc != 1 && cc != 2 && cc != 4) := by
  rcases cc with _ | _ | _ | _ | _ | cc <;> simp [cmpVal, FVal.isNan]

/-- With a NaN operand only NE and the unordered condition hold. -/
theorem cmpVal_of_nan (cc : Nat) {x y : FVal} (h : x = .nan ∨ y = .nan) : cmpVal cc x y = (cc == 1 || cc == 4) := by
  have hun : (x.isNan || y.isNan) = true := by rcases h with rfl | rfl <;> simp [FVal.isNan]
  rcases cc with _ | _ | _ | _ | _ | cc <;> simp [cmpVal, hun]

/-! ## Results under way without a flag -/

theorem mem_insertFlight {x y : Flight} {l : List Flight} : y ∈ insertFlight x l ↔ y = x ∨ y ∈ l := by
  induction l with
  | nil => simp [insertFlight]
  | cons z r ih =>
    simp only [insertFlight]
    split
    · simp [ih, or_left_comm]
    · simp

/-- From seat `t` to seat `t'` no trap became pending, and no result that carries a flag was put under way. -/
def Seat.AddsNoFlag (t t' : Seat) : Prop := t'.deferred = t.deferred ∧ ∀ y ∈ t'.flights, y ∈ t.flights ∨ y.fl = 0

theorem Seat.AddsNoFlag.refl (t : Seat) : t.AddsNoFlag t := ⟨rfl, fun _ => .inl⟩

theorem Seat.AddsNoFlag.trans {t t' t'' : Seat} (h : t.AddsNoFlag t') (h' : t'.AddsNoFlag t'') : t.AddsNoFlag t'' :=
  ⟨h'.1.trans h.1, fun y hy => (h'.2 y hy).elim (h.2 y) .inr⟩

/-- A result of the F, V or W slot without flags. -/
theorem addsNoFlag_resultFpu (s : State) (u : Issue) (pos lat : Nat) (f : File) (n val : Nat) :
    (s.seat u.core u.seat).AddsNoFlag ((s.resultFpu u pos lat f n val).seat u.core u.seat) := by
  simp only [State.resultFpu, State.fly, State.seat_modSeat, and_self, if_true]
  refine ⟨rfl, fun y hy => ?_⟩
  rcases mem_insertFlight.1 hy with rfl | hy
  · exact .inr rfl
  · exact .inl hy

/-- A capture changes the hold latches only (R24). -/
theorem addsNoFlag_capture (s : State) (u : Issue) (x : VW) (k : Nat) (v : VSrc) (val : Vec) :
    (s.seat u.core u.seat).AddsNoFlag ((s.capture u x k v val).seat u.core u.seat) := by
  cases v with
  | cap n =>
    simp only [State.capture, State.seat_modSeat, and_self, if_true]
    exact ⟨rfl, fun _ => .inl⟩
  | reg _ | latch | fl | ind _ _ => exact .refl _

theorem addsNoFlag_captures (s : State) (u : Issue) (x : VW) (k : Nat) (src : List VSrc) (vals : List Vec) :
    (s.seat u.core u.seat).AddsNoFlag ((s.captures u x k src vals).seat u.core u.seat) := by
  induction src generalizing s k vals with
  | nil => exact .refl _
  | cons v r ih =>
    cases vals with
    | nil => exact .refl _
    | cons a b => exact (addsNoFlag_capture s u x k v a).trans (ih _ _ _)

/-- An F form that writes a predicate or a whole register. -/
theorem addsNoFlag_fPlain {s r : State} {u : Issue} {g : Guard} {lat n : Nat} {f : File} {k : Issue → Nat} (hu : s.iss = some u)
    (h : fPlain s g lat f n k = .next r) : (s.seat u.core u.seat).AddsNoFlag (r.seat u.core u.seat) := by
  rw [fPlain, simple, onIssue_of _ hu] at h
  cases h
  split
  · exact addsNoFlag_resultFpu ..
  · exact .refl _

/-- A V or W form whose effect, once its captures are made, adds no flag. -/
theorem addsNoFlag_vecForm {s r : State} {u : Issue} {g : Guard} {x : VW} {src : List VSrc} {k : Issue → List Vec → State → State}
    (hu : s.iss = some u) (hk : ∀ vs s', (State.seat s' u.core u.seat).AddsNoFlag ((k u vs s').seat u.core u.seat))
    (h : vecForm s g x src k = .next r) : (s.seat u.core u.seat).AddsNoFlag (r.seat u.core u.seat) := by
  rw [vecForm, onIssue_of _ hu] at h
  cases h
  dsimp only
  split
  · exact (addsNoFlag_captures ..).trans (hk ..)
  · exact addsNoFlag_captures ..

theorem exec_fcmp (g : Guard) (t : FT) (d a b cc : R11) (s : State) : exec (.fcmp g t d a b cc) s = execFcmp g t d a b cc s := rfl

theorem exec_vcmp (g : Guard) (x : VW) (t : FT) (d cc : R11) (v w : VSrc) (s : State) :
    exec (.vcmp g x t d v w cc) s = execVcmp g x t d v w cc s := rfl

theorem exec_vcmpAny (g : Guard) (x : VW) (t : FT) (d cc : R11) (v w : VSrc) (s : State) :
    exec (.vcmpAny g x t d v w cc) s = execVcmpAny g x t d v w cc s := rfl

theorem exec_vcmpAll (g : Guard) (x : VW) (t : FT) (d cc : R11) (v w : VSrc) (s : State) :
    exec (.vcmpAll g x t d v w cc) s = execVcmpAll g x t d v w cc s := rfl

/-- R65: no compare of the F, V or W slot raises a flag. -/
theorem addsNoFlag_compare {s r : State} {u : Issue} (g : Guard) (x : VW) (t : FT) (d a b cc : R11) (v w : VSrc) (hu : s.iss = some u)
    (h : exec (.fcmp g t d a b cc) s = .next r ∨ exec (.vcmp g x t d v w cc) s = .next r ∨ exec (.vcmpAny g x t d v w cc) s = .next r ∨
      exec (.vcmpAll g x t d v w cc) s = .next r) : (s.seat u.core u.seat).AddsNoFlag (r.seat u.core u.seat) := by
  rcases h with h | h | h | h
  · rw [exec_fcmp, execFcmp] at h
    exact addsNoFlag_fPlain hu h
  · rw [exec_vcmp, execVcmp] at h
    exact addsNoFlag_vecForm hu (fun _ _ => addsNoFlag_resultFpu ..) h
  · rw [exec_vcmpAny, execVcmpAny, vCmpPred] at h
    exact addsNoFlag_vecForm hu (fun _ _ => addsNoFlag_resultFpu ..) h
  · rw [exec_vcmpAll, execVcmpAll, vCmpPred] at h
    exact addsNoFlag_vecForm hu (fun _ _ => addsNoFlag_resultFpu ..) h

/-- Settles O37, clause by clause of R65. -/
theorem zerosAndNans : Obligations.ZerosAndNans := by
  unfold Obligations.ZerosAndNans
  refine ⟨?_, fun a b e k => rfl, fun e k => ?_, fun mx x => ⟨minMaxVal_nan_left mx x, minMaxVal_nan_right mx x⟩,
    fun t z mx a b => fMinMax_of_nans _ z mx, fun a b e k => ?_, fun x y h => ?_,
    fun s r u g x t d a b cc v w hu => addsNoFlag_compare g x t d a b cc v w hu⟩
  · intro rm ts lo _ hfin hsum
    rw [← zeroSumNeg_iff, sumVal_of_zero_sum rm hfin hsum]
    exact ⟨fun h => by rw [h], fun h => by rw [Bool.eq_false_of_not_eq_true h]⟩
  · simp [minMaxVal_zeros]
  · simp [cmpVal_zeros]
  · simp [cmpVal_of_nan _ h]

end Sys2Proof.Machine
end

section
/-! Bit fields (R103): the field that BFX takes out, the field that BFI puts in, and the check at decode of the literals that place them. -/

namespace Sys2Proof.Machine

open Sys2Proof

/-! ## The two values -/

/-- A field of a 64-bit word is a 64-bit word. -/
theorem bfx_lt {x : Nat} (hx : x < 2 ^ 64) (pos len : Nat) : bfx x pos len < 2 ^ 64 :=
  ((Nat.mod_le _ _).trans (Nat.div_le_self _ _)).trans_lt hx

/-- A number with a field replaced, as the bits above the field, the field and the bits below it. -/
theorem setField_eq (x lo n v : Nat) : setField x lo n v = 2 ^ lo * (2 ^ n * (x / 2 ^ lo / 2 ^ n) + v % 2 ^ n) + x % 2 ^ lo := by
  have hx : x = 2 ^ lo * (2 ^ n * (x / 2 ^ lo / 2 ^ n) + field x lo n) + x % 2 ^ lo := by
    rw [field, Nat.div_add_mod, Nat.div_add_mod]
  have hsub : x - field x lo n * 2 ^ lo = 2 ^ lo * (2 ^ n * (x / 2 ^ lo / 2 ^ n)) + x % 2 ^ lo := by
    rw [Nat.mul_add, Nat.mul_comm _ (field x lo n)] at hx
    omega
  rw [setField, hsub, Nat.mul_add, Nat.mul_comm (v % 2 ^ n)]
  omega

/-- The bits of a number with a field replaced. -/
theorem testBit_setField (x lo n v i : Nat) :
    (setField x lo n v).testBit i = if lo ≤ i ∧ i < lo + n then v.testBit (i - lo) else x.testBit i := by
  rw [setField_eq, Nat.testBit_two_pow_mul_add _ (Nat.mod_lt _ (by positivity))]
  rcases Nat.lt_or_ge i lo with hlo | hlo
  · simp [hlo, Nat.not_le.mpr hlo, Nat.testBit_mod_two_pow]
  rw [if_neg (by omega), Nat.testBit_two_pow_mul_add _ (Nat.mod_lt _ (by positivity))]
  rcases Nat.lt_or_ge (i - lo) n with hn | hn
  · simp [hn, hlo, show i < lo + n by omega, Nat.testBit_mod_two_pow]
  · rw [if_neg (by omega), if_neg (by omega), Nat.testBit_div_two_pow, Nat.testBit_div_two_pow]
    congr 1
    omega

/-- The bits of R103's mask, len ones from bit pos on. -/
theorem getLsbD_fieldMask (pos len i : Nat) :
    (BitVec.ofNat 64 ((2 ^ len - 1) * 2 ^ pos)).getLsbD i = (decide (i < 64) && decide (pos ≤ i ∧ i < pos + len)) := by
  rw [BitVec.getLsbD_ofNat, Nat.testBit_mul_two_pow, Nat.testBit_two_pow_sub_one]
  by_cases h : pos ≤ i
  · simp only [h, decide_true, Bool.true_and, true_and, show i - pos < len ↔ i < pos + len by omega]
  · simp [h]

/-- R103: the word that BFI writes is the old word outside the mask, and the shifted one under it. -/
theorem bfi_toNat_eq_masked (D A : Word) {pos : Nat} (len : Nat) (hp : pos ≤ 63) :
    let mask : Word := BitVec.ofNat 64 ((2 ^ len - 1) * 2 ^ pos)
    bfi D.toNat A.toNat pos len = ((D &&& ~~~mask) ||| ((A <<< pos) &&& mask)).toNat := by
  intro mask
  refine Nat.eq_of_testBit_eq fun i => ?_
  rw [bfi, testBit_setField, BitVec.testBit_toNat, BitVec.testBit_toNat, BitVec.testBit_toNat]
  simp only [BitVec.getLsbD_or, BitVec.getLsbD_and, BitVec.getLsbD_not, BitVec.getLsbD_shiftLeft, mask, getLsbD_fieldMask]
  rcases Nat.lt_or_ge i 64 with hi | hi
  · by_cases hin : pos ≤ i ∧ i < pos + len
    · simp [hi, hin, show ¬ i < pos by omega, show i < pos + min len (64 - pos) by omega]
    · simp [hi, hin, show ¬ (pos ≤ i ∧ i < pos + min len (64 - pos)) by omega]
  · rw [if_neg (by omega)]
    simp [Nat.not_lt.mpr hi, BitVec.getLsbD_of_ge D i hi]

/-- An integer form whose guard holds, by the word it writes. -/
theorem intForm_of_acts {s : State} {u : Issue} {g : Guard} (x : IJ) (d : R11) {k : Issue → Nat} {v : Word} (h : Acts s u g)
    (hv : k u = v.toNat) : intForm s g x d k = .next (intResult s u x d v) := by
  rw [intForm, simple_of_acts _ h, hv, intResult]

theorem exec_bfx_of_acts {s : State} {u : Issue} {g : Guard} (x : IJ) (d a pos len : R11) (h : Acts s u g) :
    exec (.bfx g x d a pos len) s =
      .next (intResult s u x d (BitVec.ofNat 64 (bfx (intReg s u x a).toNat pos.toNat len.toNat))) := by
  refine intForm_of_acts x d h ?_
  rw [intReg_toNat, BitVec.toNat_ofNat, Nat.mod_eq_of_lt (bfx_lt (ijRead_lt ..) ..)]

theorem exec_bfi_of_acts {s : State} {u : Issue} {g : Guard} (x : IJ) (d a : R11) {pos : R11} (len : R11) (h : Acts s u g)
    (hp : pos.toNat ≤ 63) :
    let mask : Word := BitVec.ofNat 64 ((2 ^ len.toNat - 1) * 2 ^ pos.toNat)
    exec (.bfi g x d a pos len) s =
      .next (intResult s u x d ((intReg s u x d &&& ~~~mask) ||| ((intReg s u x a <<< pos.toNat) &&& mask))) := by
  refine intForm_of_acts x d h ?_
  rw [← bfi_toNat_eq_masked _ _ _ hp, intReg_toNat, intReg_toNat]

/-! ## Decode -/

theorem toNat_extractLsb' (w : Word) (lo n : Nat) : (w.extractLsb' lo n).toNat = w.toNat / 2 ^ lo % 2 ^ n := by
  rw [BitVec.extractLsb'_toNat, Nat.shiftRight_eq_div_pow]

theorem minCode_eq_zero {a b : Nat} : minCode a b = 0 ↔ a = 0 ∧ b = 0 := by
  unfold minCode
  split_ifs <;> omega

/-- A literal whose field passes step 4b is in its range. -/
theorem le_of_useBad_lit_eq_zero {k x lo hi : Nat} {mode : BitVec 2} (hk : k ≠ 0) (h : useBad k x mode (.lit lo hi) = 0) : lo ≤ x ∧ x ≤ hi := by
  simp only [useBad] at h
  split at h
  · exact absurd h hk
  · rename_i hb
    simpa using hb

/-- In a layout-R syllable that passes step 4b, fields b and c pass it. -/
theorem useBad_eq_zero_of_rsvCode_eq_zero {m : Form} {f : Fields} {e : Bool} (hl : m.layI = false) (h : rsvCode m f e = 0) :
    useBad 3 f.b.toNat f.mb m.b = 0 ∧ useBad 4 f.c.toNat f.mc m.c = 0 := by
  simp only [rsvCode, hl, Bool.false_eq_true, if_false, minCode_eq_zero] at h
  obtain ⟨_, _, _, hb, hc, _⟩ := h
  exact ⟨hb, hc⟩

/-- A syllable that violates step 4b raises ILLBUNDLE with subcode RSV (R42). -/
theorem decodeSyl_of_rsvCode_ne_zero {ctx : DecCtx} {slot : Slot} {w : Word} {ext : Option (BitVec 63)} {m : Form}
    (hl : ctx.lvl1 = false) (hm : formOf ctx.fa ctx.fb slot (Fields.of w) ext = some m) (hr : rsvCode m (Fields.of w) ext.isSome ≠ 0) :
    ∃ fld, decodeSyl ctx slot w ext = .error (illBundle 2 slot.pos fld) := by
  obtain ⟨k, hk⟩ := Nat.exists_eq_succ_of_ne_zero hr
  exact ⟨k + 1, by simp [decodeSyl, hm, hl, hk]⟩

/-- What a syllable that decodes is made of. -/
theorem decodeSyl_eq_ok {ctx : DecCtx} {slot : Slot} {w : Word} {ext : Option (BitVec 63)} {x : Syl} (h : decodeSyl ctx slot w ext = .ok x) :
    ∃ m, formOf ctx.fa ctx.fb slot (Fields.of w) ext = some m ∧ mkInstr slot (Fields.of w) ext = some x.instr ∧
      x.reads = synReads m (Fields.of w) := by
  simp only [decodeSyl] at h
  split at h
  · cases h
  rename_i m hm
  repeat' split at h
  all_goals cases h
  rename_i i hi
  exact ⟨m, hm, hi, rfl⟩

/-- The form of BFX and of BFI, in slot I or J: b and c are the literals of R103. -/
theorem formOf_bitField {fa fb : Nat} {slot : Slot} {f : Fields} (ext : Option (BitVec 63)) (hs : slot = .i ∨ slot = .j)
    (ho : f.op.toNat = 0x14 ∨ f.op.toNat = 0x15) :
    ∃ m, formOf fa fb slot f ext = some m ∧ m.layI = false ∧ m.b = .lit 0 63 ∧ m.c = .lit 1 64 := by
  rcases hs with rfl | rfl <;> rcases ho with ho | ho <;> simp only [formOf, ho] <;> exact ⟨_, rfl, rfl, rfl, rfl⟩

/-- R103: a BFX or BFI whose literals are out of range fails step 4b. -/
theorem decodeSyl_bitField_out_of_range {ctx : DecCtx} {slot : Slot} {w : Word} (ext : Option (BitVec 63)) (hl : ctx.lvl1 = false)
    (hs : slot = .i ∨ slot = .j) (ho : (Fields.of w).op.toNat = 0x14 ∨ (Fields.of w).op.toNat = 0x15)
    (hlit : 63 < (Fields.of w).b.toNat ∨ (Fields.of w).c.toNat = 0 ∨ 64 < (Fields.of w).c.toNat) :
    ∃ fld, decodeSyl ctx slot w ext = .error (illBundle 2 slot.pos fld) := by
  obtain ⟨m, hm, hI, hb, hc⟩ := formOf_bitField ext hs ho
  refine decodeSyl_of_rsvCode_ne_zero hl hm fun hr => ?_
  obtain ⟨hpos, hlen⟩ := useBad_eq_zero_of_rsvCode_eq_zero hI hr
  rw [hb] at hpos
  rw [hc] at hlen
  have hpos := le_of_useBad_lit_eq_zero (by decide) hpos
  have hlen := le_of_useBad_lit_eq_zero (by decide) hlen
  omega

/-- In the integer block, only opcode 0x15 is BFI, and its X[d] is field d. -/
theorem mkInt_eq_bfi {x y : IJ} {op : Nat} {f : Fields} {ext : Option (BitVec 63)} {g : Guard} {d a pos len : R11}
    (h : mkInt x op f ext = some (.bfi g y d a pos len)) : op = 0x15 ∧ f.d = d := by
  unfold mkInt at h
  split at h <;> cases h
  exact ⟨rfl, rfl⟩

/-- In slot I, only opcode 0x15 is BFI, and its X[d] is field d. -/
theorem mkI_eq_bfi {y : IJ} {op : Nat} {f : Fields} {ext : Option (BitVec 63)} {g : Guard} {d a pos len : R11}
    (h : mkI op f ext = some (.bfi g y d a pos len)) : op = 0x15 ∧ f.d = d := by
  by_cases hop : op < 0x20
  · rw [mkI, if_pos hop] at h
    exact mkInt_eq_bfi h
  · rw [mkI, if_neg hop] at h
    simp only [ite_eq_iff, Option.some.injEq, reduceCtorEq, and_false, or_false] at h

/-- BFI reads its own destination (R103). -/
theorem mem_synReads_bfi {fa fb : Nat} {f : Fields} {ext : Option (BitVec 63)} {m : Form} (hm : formOf fa fb .i f ext = some m)
    (ho : f.op.toNat = 0x15) : .reg .i f.d.toNat ∈ synReads m f := by
  simp only [formOf, ho] at hm
  cases hm
  simp [synReads]

/-- Settles O41, clause by clause of R103. -/
theorem bitFieldForms : Obligations.BitFieldForms := by
  unfold Obligations.BitFieldForms
  refine ⟨fun s u g x d a pos len hu hp _ _ => ⟨exec_bfx_of_acts x d a pos len hu, exec_bfi_of_acts x d a len hu hp⟩,
    fun ctx slot w ext hl hs ho hlit => ?_, fun ctx w ext x g d a pos len hx hi => ?_, fun ctx hl => ?_⟩
  · simp only [← toNat_extractLsb'] at ho hlit
    exact decodeSyl_bitField_out_of_range ext hl hs ho hlit
  · obtain ⟨m, hm, hinstr, hreads⟩ := decodeSyl_eq_ok hx
    rw [hi] at hinstr
    obtain ⟨hop, rfl⟩ := mkI_eq_bfi hinstr
    rw [hreads]
    exact mem_synReads_bfi hm hop
  · simp only [decodeSyl, hl]
    exact ⟨_, rfl, rfl⟩

end Sys2Proof.Machine
end

section
/-! FCLASS (R122): the class of the stored bits by their fields, the word whose mask field is too wide for its nine bits, and why no FP16 value that
comes from E4M3 is an infinity. -/

namespace Sys2Proof.Machine

open Sys2Proof

/-! ## The class by the fields of the encoding -/

/-- R54: in a format with infinities, what the largest, the zero and every other exponent field stand for. FTZ is off. -/
theorem unpack_eq_by_exponent {f : FFmt} (hf : f.e4 = false) (x : Nat) :
    let neg := x.testBit (f.ew + f.fw)
    let e := x / 2 ^ f.fw % 2 ^ f.ew
    let m := x % 2 ^ f.fw
    unpack f false x =
      if e = 2 ^ f.ew - 1 then (if m = 0 then .inf neg else .nan)
      else if e = 0 then .fin neg m f.qmin
      else .fin neg (2 ^ f.fw + m) (f.qmin + (e - 1 : Nat)) := by
  simp [unpack, hf, field, bitAt_testBit]

/-- R122's table, in a format with infinities. -/
theorem classOf_eq_by_fields {f : FFmt} (hf : f.e4 = false) (x : Nat) :
    let neg := x.testBit (f.ew + f.fw)
    let e := x / 2 ^ f.fw % 2 ^ f.ew
    let m := x % 2 ^ f.fw
    classOf f x =
      if e = 2 ^ f.ew - 1 then (if m ≠ 0 then 8 else if neg then 0 else 7)
      else if e = 0 then (if m = 0 then (if neg then 3 else 4) else if neg then 2 else 5)
      else if neg then 1 else 6 := by
  have hm : x % 2 ^ f.fw < 2 ^ f.fw := Nat.mod_lt _ (by positivity)
  dsimp only
  rw [classOf, unpack_eq_by_exponent hf]
  generalize x / 2 ^ f.fw % 2 ^ f.ew = e, x.testBit _ = neg, x % 2 ^ f.fw = m at hm ⊢
  by_cases htop : e = 2 ^ f.ew - 1
  · by_cases hz : m = 0 <;> simp [htop, hz]
  rw [if_neg htop, if_neg htop]
  by_cases hsub : e = 0
  · simp [hsub, hm]
  · simp [hsub]

theorem ftFmt_e4 (t : FT) : (ftFmt t).e4 = false := by cases t <;> rfl

theorem ftFmt_width (t : FT) : (ftFmt t).width = ftWidth t := by cases t <;> rfl

/-- FCLASS under a guard that holds. -/
theorem exec_fclass_of_acts {s : State} {u : Issue} {g : Guard} (t : FT) (d a mask : R11) (h : Acts s u g) :
    exec (.fclass g t d a mask) s =
      .next (s.resultFpu u 3 4 .q (d.toNat % 8) (b2n (mask.toNat.testBit (classOf (ftFmt t) (s.frd u (ftWidth t) a))))) := by
  rw [← bitAt_testBit]
  exact simple_of_acts _ h

/-! ## Decode -/

/-- A syllable that decodes has passed step 4b. -/
theorem rsvCode_eq_zero_of_decodeSyl_eq_ok {ctx : DecCtx} {slot : Slot} {w : Word} {ext : Option (BitVec 63)} {m : Form} {x : Syl}
    (hm : formOf ctx.fa ctx.fb slot (Fields.of w) ext = some m) (h : decodeSyl ctx slot w ext = .ok x) : rsvCode m (Fields.of w) ext.isSome = 0 := by
  by_contra hr
  obtain ⟨k, hk⟩ := Nat.exists_eq_succ_of_ne_zero hr
  simp only [decodeSyl, hm, hk] at h
  split at h <;> cases h

/-- The form of FCLASS: field b is its mask of nine bits. -/
theorem formOf_fclass {fa fb : Nat} {f : Fields} {t : FT} (ext : Option (BitVec 63)) (ho : f.op.toNat = 0x30 + t.code) :
    ∃ m, formOf fa fb .f f ext = some m ∧ m.layI = false ∧ m.b = .lit 0 511 := by
  cases t <;> simp only [formOf, ho] <;> exact ⟨_, rfl, rfl, rfl⟩

/-- The mask of an FCLASS that decodes. -/
theorem b_le_of_decodeSyl_fclass {ctx : DecCtx} {w : Word} {ext : Option (BitVec 63)} {t : FT} {x : Syl}
    (ho : (Fields.of w).op.toNat = 0x30 + t.code) (h : decodeSyl ctx .f w ext = .ok x) : (Fields.of w).b.toNat ≤ 511 := by
  obtain ⟨m, hm, hI, hb⟩ := formOf_fclass ext ho
  obtain ⟨hmask, _⟩ := useBad_eq_zero_of_rsvCode_eq_zero hI (rsvCode_eq_zero_of_decodeSyl_eq_ok hm h)
  rw [hb] at hmask
  exact (le_of_useBad_lit_eq_zero (by decide) hmask).2

/-! ## E4M3 into FP16 -/

theorem fp16_inf : fp16.inf = 31 * 2 ^ 10 := by decide

/-- R53: E4M3 has no infinities, and its finite values are at most 15 steps of 2^5 and whole multiples of 2^(−9). -/
theorem unpack_e4m3_cases (z : Bool) (x : Nat) :
    unpack e4m3 z x = .nan ∨ ∃ neg m e, unpack e4m3 z x = .fin neg m e ∧ m < 2 ^ 4 ∧ -9 ≤ e ∧ e ≤ 5 := by
  have hfr : field x 0 3 < 8 := Nat.mod_lt _ (by decide)
  have hex : field x 3 4 < 16 := Nat.mod_lt _ (by decide)
  have hq : e4m3.qmin = -9 := by decide
  have hfl : e4m3.flushes = false := by decide
  simp only [unpack, hq, hfl, Bool.and_false]
  simp only [e4m3, Bool.not_true, Bool.false_and, Bool.false_eq_true, if_false]
  split
  · exact .inl rfl
  split
  · exact .inr ⟨_, _, _, rfl, by omega, by omega, by omega⟩
  · exact .inr ⟨_, _, _, rfl, by omega, by omega, by omega⟩

/-- A shift that is not to the right loses nothing. -/
theorem roundShift_of_nonpos (rm : RM) (neg : Bool) (m : Nat) {sh : Int} (h : sh ≤ 0) : roundShift rm neg m sh = (m * 2 ^ (-sh).toNat, false) :=
  if_pos h

/-- A value with no more significant bits than a format holds, and whose exponent is that of a normal number below the topmost, is encoded exactly. -/
theorem roundFin_of_normal {f : FFmt} (rm : RM) (ftz sat neg : Bool) {m : Nat} {e : Int} (hm : m ≠ 0) (hfit : Nat.log2 m ≤ f.fw)
    (hlo : f.qmin ≤ Nat.log2 m + e - f.fw) (hhi : Nat.log2 m + e - f.fw < f.qmax) :
    (roundFin f rm ftz sat neg m e).bits =
      f.signBit neg + (Nat.log2 m + e - f.fw - f.qmin).toNat * 2 ^ f.fw + m * 2 ^ (f.fw - Nat.log2 m) := by
  have hn : 2 ^ f.fw ≤ m * 2 ^ (f.fw - Nat.log2 m) :=
    calc 2 ^ f.fw = 2 ^ Nat.log2 m * 2 ^ (f.fw - Nat.log2 m) := by rw [← pow_add, Nat.add_sub_cancel' hfit]
      _ ≤ m * 2 ^ (f.fw - Nat.log2 m) := Nat.mul_le_mul_right _ (Nat.log2_self_le hm)
  have hsh : (-((Nat.log2 m : Int) + e - f.fw - e)).toNat = f.fw - Nat.log2 m := by omega
  simp only [roundFin, max_eq_left hlo]
  rw [roundShift_of_nonpos _ _ _ (by omega), hsh]
  simp [not_lt.mpr hhi.le, hhi.ne, Nat.not_lt.mpr hn]

/-- Every number of E4M3 but zero is a normal number of FP16. -/
theorem roundFin_fp16_lt_inf (rm : RM) (ftz sat neg : Bool) {m : Nat} {e : Int} (hm : m ≠ 0) (hm' : m < 2 ^ 4) (he : -9 ≤ e) (he' : e ≤ 5) :
    ∃ k < fp16.inf, (roundFin fp16 rm ftz sat neg m e).bits = fp16.signBit neg + k := by
  have hl : Nat.log2 m < 4 := (Nat.log2_lt hm).2 hm'
  have hmin : fp16.qmin = -24 := by decide
  have hmax : fp16.qmax = 5 := by decide
  have hfw : fp16.fw = 10 := rfl
  have hn : m * 2 ^ (10 - Nat.log2 m) < 2 ^ 11 :=
    calc m * 2 ^ (10 - Nat.log2 m) < 2 ^ (Nat.log2 m + 1) * 2 ^ (10 - Nat.log2 m) :=
          Nat.mul_lt_mul_of_pos_right Nat.lt_log2_self (by positivity)
      _ = 2 ^ 11 := by rw [← pow_add]; congr 1; omega
  rw [roundFin_of_normal rm ftz sat neg hm (by omega) (by omega) (by omega), Nat.add_assoc, hfw, hmin, fp16_inf]
  exact ⟨_, by omega, rfl⟩

theorem convElem_e4m3_fp16_eq (z sat : Bool) (rm : RM) (x : Nat) :
    convElem z sat rm 3 1 x = roundVal fp16 rm z sat (unpack e4m3 z x) := by
  simp [convElem, convVal, convSource, codeFmt]

/-- What a conversion from E4M3 to FP16 gives: the canonical NaN, or a signed magnitude below that of an infinity. -/
theorem convElem_e4m3_fp16_bits (z sat : Bool) (rm : RM) (x : Nat) :
    (convElem z sat rm 3 1 x).bits = fp16.nan ∨ ∃ neg, ∃ k < fp16.inf, (convElem z sat rm 3 1 x).bits = fp16.signBit neg + k := by
  rw [convElem_e4m3_fp16_eq]
  rcases unpack_e4m3_cases z x with hv | ⟨neg, m, e, hv, hm, he, he'⟩
  · left
    rw [hv, roundVal]
  · right
    rw [hv, roundVal]
    refine ⟨neg, ?_⟩
    split
    · exact ⟨0, by decide, (Nat.add_zero _).symm⟩
    · rename_i hm0
      exact roundFin_fp16_lt_inf rm _ sat neg hm0 hm he he'

/-- Neither the canonical NaN nor a magnitude below an infinity's is of the class of +∞. -/
theorem classOf_fp16_ne_seven {y : Nat} (h : y = fp16.nan ∨ ∃ neg, ∃ k < fp16.inf, y = fp16.signBit neg + k) : classOf fp16 y ≠ 7 := by
  rcases h with rfl | ⟨neg, k, hk, rfl⟩
  · decide
  rw [fp16_inf] at hk
  have hexp : (fp16.signBit neg + k) / 2 ^ fp16.fw % 2 ^ fp16.ew ≠ 2 ^ fp16.ew - 1 := by
    have hfw : fp16.fw = 10 := rfl
    have hew : fp16.ew = 5 := rfl
    have hsign : fp16.signBit neg = 0 ∨ fp16.signBit neg = 2 ^ 15 := by cases neg <;> decide
    rw [hfw, hew]
    omega
  rw [classOf_eq_by_fields rfl, if_neg hexp]
  split_ifs <;> decide

/-- Settles O38, clause by clause of R122. -/
theorem fclassTellsTheClass : Obligations.FclassTellsTheClass := by
  unfold Obligations.FclassTellsTheClass
  refine ⟨fun s u g t d a mask hu => ?_, fun ctx w ext t x ho hb hx => ?_, fun z sat rm x _ => classOf_fp16_ne_seven (convElem_e4m3_fp16_bits z sat rm x)⟩
  · rw [exec_fclass_of_acts t d a mask hu, classOf_eq_by_fields (ftFmt_e4 t), State.frd, ← ftFmt_width]
    rfl
  · rw [← toNat_extractLsb'] at ho
    have hmask := b_le_of_decodeSyl_fclass ho hx
    simp only [Fields.of, toNat_extractLsb'] at hmask
    omega

end Sys2Proof.Machine
end

section
/-! MZERO and MSHIFT (R270): what a bank holds after an operation is put on it, what a rotation does to its rows, and the order that 64 rotations
restore. -/

namespace Sys2Proof.Machine

open Sys2Proof

/-! ## Rotations -/

/-- A table after one entry for each key of a list has been set, the value a function of the key. -/
theorem tget_foldl_tset {α : Type} [DecidableEq α] (d : α) (f : Nat → α) (l : List Nat) (t : Tab α) (i : Nat) :
    tget (l.foldl (fun a k => tset a d k (f k)) t) d i = if i ∈ l then f i else tget t d i := by
  induction l generalizing t with
  | nil => simp
  | cons k r ih =>
    rw [List.foldl_cons, ih, tget_tset]
    by_cases hr : i ∈ r
    · simp [hr]
    · by_cases hk : i = k <;> simp [hr, hk]

theorem tget_rotateBank (t : Tab Vec) {i : Nat} (hi : i < 64) : tget (rotateBank t) 0 i = tget t 0 ((i + 1) % 64) := by
  rw [rotateBank, tget_foldl_tset, if_pos (List.mem_range.2 hi)]

theorem tget_iterate_rotateBank (t : Tab Vec) (n : Nat) {i : Nat} (hi : i < 64) :
    tget (rotateBank^[n] t) 0 i = tget t 0 ((i + n) % 64) := by
  induction n generalizing i with
  | zero => rw [Function.iterate_zero_apply, Nat.add_zero, Nat.mod_eq_of_lt hi]
  | succ n ih =>
    rw [Function.iterate_succ_apply', tget_rotateBank _ hi, ih (Nat.mod_lt _ (by decide)), Nat.mod_add_mod, Nat.add_right_comm, Nat.add_assoc]

/-! ## Banks after an operation -/

@[simp] theorem Matrix.latest_push_self (m : Matrix) (now lat b : Nat) (rows : Tab Vec) : (m.push now lat b rows).latest b = rows := by
  simp [Matrix.latest, Matrix.push]

theorem Matrix.latest_push_of_ne (m : Matrix) (now lat : Nat) {b b' : Nat} (rows : Tab Vec) (h : b' ≠ b) :
    (m.push now lat b rows).latest b' = m.latest b' := by
  simp [Matrix.latest, Matrix.push, Matrix.bankRows, h.symm]

/-- The accumulator banks do not depend on the shadow bank. -/
theorem Matrix.latest_withShadow (m : Matrix) (rows : Tab Vec) (b : Nat) : { m with h := rows }.latest b = m.latest b := rfl

/-- A result put under way leaves the matrix state as it is. -/
@[simp] theorem State.mx_fly (s : State) (u : Issue) (pos lat : Nat) (dst : Option Reg) (val fl : Nat) (fixed fpu : Bool) (c : Nat) :
    ((s.fly u pos lat dst val fl fixed fpu).core c).mx = (s.core c).mx := by
  rw [State.fly, State.core_modSeat]
  by_cases h : c = u.core <;> simp [h]

@[simp] theorem State.mx_modMx (s : State) (u : Issue) (f : Matrix → Matrix) : ((s.modMx u f).core u.core).mx = f (s.core u.core).mx := by
  simp [State.modMx]

@[simp] theorem State.mx_bankMod (s : State) (u : Issue) (b : Nat) (f : Tab Vec → Tab Vec) :
    ((s.bankMod u b f).core u.core).mx = (s.core u.core).mx.push (s.core u.core).now 2 b (f ((s.core u.core).mx.latest b)) := by
  simp [State.bankMod, State.bankOp]

/-! ## The two instructions -/

/-- MZERO under a guard that holds: the matrix state gains a cleared bank, and loses the shadow bank when the bank is the configured one. -/
theorem exec_mzero_of_acts {s : State} {u : Issue} {g : Guard} (d : R11) (h : Acts s u g) :
    ∃ t, exec (.mzero g d) s = .next t ∧
      (t.core u.core).mx = { (s.core u.core).mx.push (s.core u.core).now 2 (d.toNat % 2) [] with
        h := if (s.core u.core).mx.bank = d.toNat % 2 then [] else (s.core u.core).mx.h } := by
  refine ⟨_, simple_of_acts _ h, ?_⟩
  rw [State.mx_modMx, State.mx_bankMod]
  by_cases hb : (s.core u.core).mx.bank = d.toNat % 2 <;> simp [bankOf, Matrix.push, hb]

/-- MSHIFT under a guard that holds: the matrix state gains the rotation of the bank as its latest operation leaves it. -/
theorem exec_mshift_of_acts {s : State} {u : Issue} {g : Guard} (d : R11) (h : Acts s u g) :
    ∃ t, exec (.mshift g d) s = .next t ∧
      (t.core u.core).mx = (s.core u.core).mx.push (s.core u.core).now 2 (d.toNat % 2) (rotateBank ((s.core u.core).mx.latest (d.toNat % 2))) :=
  ⟨_, simple_of_acts _ h, State.mx_bankMod ..⟩

/-- Settles O39, clause by clause of R270. -/
theorem zeroAndRotateRows : Obligations.ZeroAndRotateRows := by
  unfold Obligations.ZeroAndRotateRows
  refine ⟨fun s u g d h => ⟨?_, ?_⟩, fun rows i hi => ?_⟩
  · obtain ⟨t, ht, hm⟩ := exec_mzero_of_acts d h
    refine ⟨t, ht, ?_⟩
    simp only [hm, Matrix.latest_withShadow]
    refine ⟨fun i => ?_, fun b hb => Matrix.latest_push_of_ne _ _ _ _ hb, fun hb i => ?_, fun hb => if_neg hb⟩
    · rw [Matrix.latest_push_self, tget_nil]
    · rw [if_pos hb, tget_nil]
  · obtain ⟨t, ht, hm⟩ := exec_mshift_of_acts d h
    refine ⟨t, ht, ?_⟩
    simp only [hm]
    refine ⟨fun i hi => ?_, fun b hb => Matrix.latest_push_of_ne _ _ _ _ hb, rfl⟩
    rw [Matrix.latest_push_self, tget_rotateBank _ hi]
  · rw [List.foldl_const, List.length_range, tget_iterate_rotateBank _ _ hi, Nat.add_mod_right, Nat.mod_eq_of_lt hi]

end Sys2Proof.Machine
end

section
/-! The metadata checksum (R284): the bytes of a row's mask as one number holds them, the rotation of a byte, and the header's fields that place
the masks. -/

namespace Sys2Proof.Machine

open Sys2Proof

/-- Byte j of a little-endian read is the byte of memory j addresses on (R4). -/
theorem field_leRead (mem : Tab Byte) (a : Nat) {n j : Nat} (hj : j < n) :
    field (leRead mem a n) (8 * j) 8 = (Memory.byte mem (a + j)).toNat := by
  induction n generalizing a j with
  | zero => omega
  | succ n ih =>
    have hbyte : (Memory.byte mem a).toNat < 256 := (Memory.byte mem a).isLt
    rw [leRead, ← Memory.byte]
    cases j with
    | zero =>
      simp only [field, Nat.mul_zero, pow_zero, Nat.div_one, Nat.add_zero]
      omega
    | succ j =>
      have hdrop : ((Memory.byte mem a).toNat + 256 * leRead mem (a + 1) n) / 2 ^ (8 * (j + 1)) = leRead mem (a + 1) n / 2 ^ (8 * j) := by
        rw [Nat.mul_succ, pow_add, Nat.mul_comm (2 ^ (8 * j)), ← Nat.div_div_eq_div_mul]
        congr 1
        omega
      rw [field, hdrop, ← field, ih (a + 1) (by omega), Nat.add_assoc, Nat.add_comm 1]

/-- A byte rotated left by fewer than 8 bits, as the shift up and the shift down joined. -/
theorem rotl8_eq_shifts {x k : Nat} (hx : x < 2 ^ 8) (hk : k < 8) : rotl8 x k = (x <<< k ||| x >>> (8 - k)) % 2 ^ 8 := by
  have hsplit : 2 ^ 8 = 2 ^ k * 2 ^ (8 - k) := by rw [← pow_add, Nat.add_sub_cancel' hk.le]
  have hlow : x >>> (8 - k) < 2 ^ k := by
    rw [Nat.shiftRight_eq_div_pow]
    exact Nat.div_lt_of_lt_mul (by rwa [Nat.mul_comm, ← hsplit])
  have hhigh : x <<< k % 2 ^ 8 = 2 ^ k * (x % 2 ^ (8 - k)) := by
    rw [Nat.shiftLeft_eq, Nat.mul_comm, hsplit, Nat.mul_mod_mul_left]
  have hlow' : x >>> (8 - k) % 2 ^ 8 = x >>> (8 - k) := Nat.mod_eq_of_lt (hlow.trans (Nat.pow_lt_pow_right (by omega) hk))
  rw [rotl8, show 256 = 2 ^ 8 from rfl, Nat.or_mod_two_pow, hlow', hhigh, ← Nat.two_pow_add_eq_or_of_lt hlow, ← hhigh,
    Nat.shiftLeft_eq, Nat.shiftRight_eq_div_pow]

/-- The checksum of masks read from memory, byte by byte: row i's mask stands at address at0 i. -/
theorem cksOf_leRead (mem : Tab Byte) (kt m : Nat) (at0 : Nat → Nat) :
    cksOf kt m ((List.range 64).map fun i => leRead mem (at0 i) (cdiv kt 8)) =
      (List.range 64).foldl (fun cks i => (List.range (cdiv kt 8)).foldl (fun cks j =>
        cks ^^^ rotl8 (Memory.byte mem (at0 i + j)).toNat (8 * j / m % 8)) cks) 0 := by
  rw [cksOf, List.foldl_map]
  refine List.foldl_ext _ _ _ fun cks i _ => List.foldl_ext _ _ _ fun cks j hj => ?_
  rw [field_leRead mem _ (List.mem_range.1 hj)]

/-- Settles O40: the masks lie where the header says, each byte of a row's number is a byte of memory, and the model's rotation is R284's. -/
theorem checksumOfMasks : Obligations.ChecksumOfMasks := by
  unfold Obligations.ChecksumOfMasks
  intro mem T h off kt m ms rot
  have hoff : hdrOff h = off := by simp [hdrOff, field, off]
  have hms : hdrMs h = ms := rfl
  have hkt : hdrKt h = kt := rfl
  rw [tileMasks, hoff, hms, hkt, cksOf_leRead]
  refine List.foldl_ext _ _ _ fun cks i _ => List.foldl_ext _ _ _ fun cks j _ => ?_
  rw [rotl8_eq_shifts (Memory.byte mem _).isLt (Nat.mod_lt _ (by omega)), ← Nat.add_assoc T]

end Sys2Proof.Machine
end

section
/-! A step (R15): every instruction and event answers a next state that keeps memory's canonical form, and what a step runs. -/

namespace Sys2Proof.Machine
set_option Elab.async false

open Sys2Proof

/-- Every instruction and every event keeps memory's canonical form, by its own law. -/
theorem exec_keeps (i : Instr) (s : State) (hs : Memory.wf s.mem = true) : Keeps (exec i s) :=
  match i with
  | .br g imm => execBr_keeps g imm s hs
  | .brq g z a imm => execBrq_keeps g z a imm s hs
  | .jmp g a => execJmp_keeps g a s hs
  | .call g d imm => execCall_keeps g d imm s hs
  | .calli g d a => execCalli_keeps g d a s hs
  | .ret g a => execRet_keeps g a s hs
  | .suspend g a b => execSuspend_keeps g a b s hs
  | .yield g => execYield_keeps g s hs
  | .halt g => execHalt_keeps g s hs
  | .trap g imm => execTrap_keeps g imm s hs
  | .tret g => execTret_keeps g s hs
  | .brk g => execBrk_keeps g s hs
  | .add g x d a b => execAdd_keeps g x d a b s hs
  | .sub g x d a b => execSub_keeps g x d a b s hs
  | .addi g x d a imm => execAddi_keeps g x d a imm s hs
  | .mul g x d a b => execMul_keeps g x d a b s hs
  | .mulh g x d a b => execMulh_keeps g x d a b s hs
  | .mulhu g x d a b => execMulhu_keeps g x d a b s hs
  | .and g x d a b => execAnd_keeps g x d a b s hs
  | .or g x d a b => execOr_keeps g x d a b s hs
  | .xor g x d a b => execXor_keeps g x d a b s hs
  | .andn g x d a b => execAndn_keeps g x d a b s hs
  | .shl g x d a b => execShl_keeps g x d a b s hs
  | .shr g x d a b => execShr_keeps g x d a b s hs
  | .sar g x d a b => execSar_keeps g x d a b s hs
  | .rot g x d a b => execRot_keeps g x d a b s hs
  | .min g x d a b => execMin_keeps g x d a b s hs
  | .max g x d a b => execMax_keeps g x d a b s hs
  | .minu g x d a b => execMinu_keeps g x d a b s hs
  | .maxu g x d a b => execMaxu_keeps g x d a b s hs
  | .clz g x d a => execClz_keeps g x d a s hs
  | .popc g x d a => execPopc_keeps g x d a s hs
  | .bfx g x d a pos len => execBfx_keeps g x d a pos len s hs
  | .bfi g x d a pos len => execBfi_keeps g x d a pos len s hs
  | .li g x d imm => execLi_keeps g x d imm s hs
  | .cmp g x d a b cc => execCmp_keeps g x d a b cc s hs
  | .sel g x d a b c => execSel_keeps g x d a b c s hs
  | .ldg g z sx d a imm => execLdg_keeps g z sx d a imm s hs
  | .stg g z d a imm => execStg_keeps g z d a imm s hs
  | .ldga g z sc d a b => execLdga_keeps g z sc d a b s hs
  | .stgl g z sc d a b => execStgl_keeps g z sc d a b s hs
  | .pref g wr a imm => execPref_keeps g wr a imm s hs
  | .ldp g z sx d a imm => execLdp_keeps g z sx d a imm s hs
  | .stp g z d a imm => execStp_keeps g z d a imm s hs
  | .ldpa g z sc d a b => execLdpa_keeps g z sc d a b s hs
  | .stpl g z sc d a b => execStpl_keeps g z sc d a b s hs
  | .sqld g d a imm => execSqld_keeps g d a imm s hs
  | .agadd g w o d a b => execAgadd_keeps g w o d a b s hs
  | .agincw g w o d a b => execAgincw_keeps g w o d a b s hs
  | .agaddb g w o d a b c => execAgaddb_keeps g w o d a b c s hs
  | .agcas g w o d a b c => execAgcas_keeps g w o d a b c s hs
  | .agxch g w o d a b => execAgxch_keeps g w o d a b s hs
  | .agmin g w o d a b => execAgmin_keeps g w o d a b s hs
  | .agmax g w o d a b => execAgmax_keeps g w o d a b s hs
  | .agand g w o d a b => execAgand_keeps g w o d a b s hs
  | .agor g w o d a b => execAgor_keeps g w o d a b s hs
  | .agxor g w o d a b => execAgxor_keeps g w o d a b s hs
  | .agfadd g w o d a b => execAgfadd_keeps g w o d a b s hs
  | .apadd g w o d a b => execApadd_keeps g w o d a b s hs
  | .apincw g w o d a b => execApincw_keeps g w o d a b s hs
  | .apaddb g w o d a b c => execApaddb_keeps g w o d a b c s hs
  | .apcas g w o d a b c => execApcas_keeps g w o d a b c s hs
  | .apxch g w o d a b => execApxch_keeps g w o d a b s hs
  | .apmin g w o d a b => execApmin_keeps g w o d a b s hs
  | .apmax g w o d a b => execApmax_keeps g w o d a b s hs
  | .apfadd g w o d a b => execApfadd_keeps g w o d a b s hs
  | .fadd g t rm d a b => execFadd_keeps g t rm d a b s hs
  | .fsub g t rm d a b => execFsub_keeps g t rm d a b s hs
  | .fmul g t rm d a b => execFmul_keeps g t rm d a b s hs
  | .ffma g t rm d a b c => execFfma_keeps g t rm d a b c s hs
  | .fdiv g t rm d a b => execFdiv_keeps g t rm d a b s hs
  | .fsqrt g t rm d a => execFsqrt_keeps g t rm d a s hs
  | .frsq g t rm d a => execFrsq_keeps g t rm d a s hs
  | .fmin g t d a b => execFmin_keeps g t d a b s hs
  | .fmax g t d a b => execFmax_keeps g t d a b s hs
  | .fabs g t d a => execFabs_keeps g t d a s hs
  | .fneg g t d a => execFneg_keeps g t d a s hs
  | .fcmp g t d a b cc => execFcmp_keeps g t d a b cc s hs
  | .fclass g t d a mask => execFclass_keeps g t d a mask s hs
  | .fcvt g rm d a b c => execFcvt_keeps g rm d a b c s hs
  | .fsel g d a b c => execFsel_keeps g d a b c s hs
  | .fli g d imm => execFli_keeps g d imm s hs
  | .fliHi g d imm => execFliHi_keeps g d imm s hs
  | .vadd g sd t rm d a b => execVadd_keeps g sd t rm d a b s hs
  | .vsub g sd t rm d a b => execVsub_keeps g sd t rm d a b s hs
  | .vmul g sd t rm d a b => execVmul_keeps g sd t rm d a b s hs
  | .vfma g sd t rm d a b c => execVfma_keeps g sd t rm d a b c s hs
  | .vfms g sd t rm d a b c => execVfms_keeps g sd t rm d a b c s hs
  | .vmulZg g sd t rm d a b => execVmulZg_keeps g sd t rm d a b s hs
  | .vfmaZg g sd t rm d a b c => execVfmaZg_keeps g sd t rm d a b c s hs
  | .vfmsZg g sd t rm d a b c => execVfmsZg_keeps g sd t rm d a b c s hs
  | .vmin g sd t d a b => execVmin_keeps g sd t d a b s hs
  | .vmax g sd t d a b => execVmax_keeps g sd t d a b s hs
  | .vabs g sd t d a => execVabs_keeps g sd t d a s hs
  | .vneg g sd t d a => execVneg_keeps g sd t d a s hs
  | .vcmp g sd t d a b cc => execVcmp_keeps g sd t d a b cc s hs
  | .vcmpAny g sd t d a b cc => execVcmpAny_keeps g sd t d a b cc s hs
  | .vcmpAll g sd t d a b cc => execVcmpAll_keeps g sd t d a b cc s hs
  | .vsel g sd w d a b c => execVsel_keeps g sd w d a b c s hs
  | .vdot g sd t rm d a b c => execVdot_keeps g sd t rm d a b c s hs
  | .vred g sd t rm d a => execVred_keeps g sd t rm d a s hs
  | .vscan g sd t rm d a => execVscan_keeps g sd t rm d a s hs
  | .vexp2 g sd t d a => execVexp2_keeps g sd t d a s hs
  | .vlog2 g sd t d a => execVlog2_keeps g sd t d a s hs
  | .vrcp g sd t d a => execVrcp_keeps g sd t d a s hs
  | .vrsq g sd t d a => execVrsq_keeps g sd t d a s hs
  | .vcvt g sd rm d a b c => execVcvt_keeps g sd rm d a b c s hs
  | .vperm g sd d a b c => execVperm_keeps g sd d a b c s hs
  | .vbcast g sd w d a b => execVbcast_keeps g sd w d a b s hs
  | .vrotl g sd d a b => execVrotl_keeps g sd d a b s hs
  | .viadd g sd w d a b => execViadd_keeps g sd w d a b s hs
  | .vimul g sd w d a b => execVimul_keeps g sd w d a b s hs
  | .vand g sd d a b => execVand_keeps g sd d a b s hs
  | .vor g sd d a b => execVor_keeps g sd d a b s hs
  | .vxor g sd d a b => execVxor_keeps g sd d a b s hs
  | .vshl g sd w d a b => execVshl_keeps g sd w d a b s hs
  | .vshr g sd w d a b => execVshr_keeps g sd w d a b s hs
  | .vidx g sd d b c => execVidx_keeps g sd d b c s hs
  | .vsetx g sd d a b => execVsetx_keeps g sd d a b s hs
  | .vsetxAdd g sd d a b => execVsetxAdd_keeps g sd d a b s hs
  | .vsetxLi g sd d b => execVsetxLi_keeps g sd d b s hs
  | .vpopq g sd d => execVpopq_keeps g sd d s hs
  | .vldp g sd s4 d a imm => execVldp_keeps g sd s4 d a imm s hs
  | .vstp g sd s4 d a imm => execVstp_keeps g sd s4 d a imm s hs
  | .vldps g sd s4 d a imm => execVldps_keeps g sd s4 d a imm s hs
  | .kmov g df sf d a => execKmov_keeps g df sf d a s hs
  | .kvec g df sf d a => execKvec_keeps g df sf d a s hs
  | .kext g df sf d a b => execKext_keeps g df sf d a b s hs
  | .kins g df sf d a b => execKins_keeps g df sf d a b s hs
  | .kbc g df sf d a => execKbc_keeps g df sf d a s hs
  | .eli g d imm => execEli_keeps g d imm s hs
  | .eadd g d a b => execEadd_keeps g d a b s hs
  | .emov g d a => execEmov_keeps g d a s hs
  | .csrrd g d imm => execCsrrd_keeps g d imm s hs
  | .csrwr g a imm => execCsrwr_keeps g a imm s hs
  | .semsig g ret d a imm => execSemsig_keeps g ret d a imm s hs
  | .semwait g a imm => execSemwait_keeps g a imm s hs
  | .fence g sc k => execFence_keeps g sc k s hs
  | .phase g d => execPhase_keeps g d s hs
  | .launch g d a b => execLaunch_keeps g d a b s hs
  | .copy g d a b => execCopy_keeps g d a b s hs
  | .copyp g d a b => execCopyp_keeps g d a b s hs
  | .cwait g a b c => execCwait_keeps g a b c s hs
  | .tlrd g d b c => execTlrd_keeps g d b c s hs
  | .tlrdErr g d b c => execTlrdErr_keeps g d b c s hs
  | .tlrdErrc g d b c => execTlrdErrc_keeps g d b c s hs
  | .bpost g d a b c => execBpost_keeps g d a b c s hs
  | .bview g d a => execBview_keeps g d a s hs
  | .bviewWord g d a b => execBviewWord_keeps g d a b s hs
  | .bread g d a b c => execBread_keeps g d a b c s hs
  | .badv g d a b => execBadv_keeps g d a b s hs
  | .barr g d a => execBarr_keeps g d a s hs
  | .strset g a b c => execStrset_keeps g a b c s hs
  | .strtap g a b c => execStrtap_keeps g a b c s hs
  | .ringsetGeom g a b => execRingsetGeom_keeps g a b s hs
  | .ringsetAdvance g a b => execRingsetAdvance_keeps g a b s hs
  | .ringsetRd g d b => execRingsetRd_keeps g d b s hs
  | .tlbinv g a b => execTlbinv_keeps g a b s hs
  | .icflush g a b => execIcflush_keeps g a b s hs
  | .mcfg g b c => execMcfg_keeps g b c s hs
  | .mzero g d => execMzero_keeps g d s hs
  | .macc g a b => execMacc_keeps g a b s hs
  | .maccZg g a b => execMaccZg_keeps g a b s hs
  | .maccs g a b => execMaccs_keeps g a b s hs
  | .mpush g d a b c => execMpush_keeps g d a b c s hs
  | .mshift g d => execMshift_keeps g d s hs
  | .mdrain g d a => execMdrain_keeps g d a s hs
  | .sprune g a b c => execSprune_keeps g a b c s hs
  | .sprunet g a b c => execSprunet_keeps g a b c s hs
  | .sregrow g a b c => execSregrow_keeps g a b c s hs
  | .shdr g d a => execShdr_keeps g d a s hs
  | .shdrW g a c => execShdrW_keeps g a c s hs
  | .shdrCk g a => execShdrCk_keeps g a s hs
  | .scheck g d a => execScheck_keeps g d a s hs
  | .sexpand g a b => execSexpand_keeps g a b s hs
  | .xadd g d a b => execXadd_keeps g d a b s hs
  | .xmul g d a b => execXmul_keeps g d a b s hs
  | .xand g d a b => execXand_keeps g d a b s hs
  | .xshl g d a b => execXshl_keeps g d a b s hs
  | .xshr g d a b => execXshr_keeps g d a b s hs
  | .xldp g d a imm => execXldp_keeps g d a imm s hs
  | .xpush g gr a c => execXpush_keeps g gr a c s hs
  | .xpushNb g gr d a c => execXpushNb_keeps g gr d a c s hs
  | .xscat g gr a b c => execXscat_keeps g gr a b c s hs
  | .xscatNb g gr d a b c => execXscatNb_keeps g gr d a b c s hs
  | .xscata g gr a b c => execXscata_keeps g gr a b c s hs
  | .xscataNb g gr d a b c => execXscataNb_keeps g gr d a b c s hs
  | .xhash g d a c => execXhash_keeps g d a c s hs
  | .xins g d a b c => execXins_keeps g d a b c s hs
  | .xwalk g csr d a c => execXwalk_keeps g csr d a c s hs
  | .bundleIssue core fresh => execBundleIssue_keeps core fresh s hs
  | .bundleComplete core seat => execBundleComplete_keeps core seat s hs
  | .loadDataReturn core seat id => execLoadDataReturn_keeps core seat id s hs
  | .seatSwitch core => execSeatSwitch_keeps core s hs
  | .quantumExpiry core => execQuantumExpiry_keeps core s hs
  | .gearPoint core => execGearPoint_keeps core s hs
  | .walk die ten page => execWalk_keeps die ten page s hs
  | .walkComplete die ten page => execWalkComplete_keeps die ten page s hs
  | .atomicApply core seat id => execAtomicApply_keeps core seat id s hs
  | .atomicReply core seat id => execAtomicReply_keeps core seat id s hs
  | .requestResend core seat id => execRequestResend_keeps core seat id s hs
  | .phaseRelease ten lid grp => execPhaseRelease_keeps ten lid grp s hs
  | .boardSerialise core seat => execBoardSerialise_keeps core seat s hs
  | .boardReply core seat => execBoardReply_keeps core seat s hs
  | .barrierArrival core seat => execBarrierArrival_keeps core seat s hs
  | .barrierRelease id => execBarrierRelease_keeps id s hs
  | .scaleArrive core seat id => execScaleArrive_keeps core seat id s hs
  | .ringTileFill core ring => execRingTileFill_keeps core ring s hs
  | .sparsityCmdComplete core => execSparsityCmdComplete_keeps core s hs
  | .gatherArrive core part => execGatherArrive_keeps core part s hs
  | .scatterComplete core seat order => execScatterComplete_keeps core seat order s hs
  | .copyComplete r order => execCopyComplete_keeps r order s hs
  | .checkedCheck core seat => execCheckedCheck_keeps core seat s hs
  | .trapEntry core seat => execTrapEntry_keeps core seat s hs
  | .suspendSpill core seat => execSuspendSpill_keeps core seat s hs
  | .wakeReady die rec => execWakeReady_keeps die rec s hs
  | .resume core seat => execResume_keeps core seat s hs
  | .seatRecord die rec => execSeatRecord_keeps die rec s hs
  | .preemptRequest core seat => execPreemptRequest_keeps core seat s hs
  | .preemptTimeout core seat => execPreemptTimeout_keeps core seat s hs
  | .preemptSpill core seat => execPreemptSpill_keeps core seat s hs
  | .strandKill core seat => execStrandKill_keeps core seat s hs
  | .launchPacket ten q => execLaunchPacket_keeps ten q s hs
  | .copyPacket ten q => execCopyPacket_keeps ten q s hs
  | .copyxPacket ten q => execCopyxPacket_keeps ten q s hs
  | .signalPacket ten q => execSignalPacket_keeps ten q s hs
  | .waitallPacket ten q => execWaitallPacket_keeps ten q s hs
  | .launchStart ten key => execLaunchStart_keeps ten key s hs
  | .recordCreate ten lid die base cluster => execRecordCreate_keeps ten lid die base cluster s hs
  | .priorityAgeing ten q => execPriorityAgeing_keeps ten q s hs
  | .budgetExpiry ten key => execBudgetExpiry_keeps ten key s hs
  | .launchComplete ten key => execLaunchComplete_keeps ten key s hs
  | .crossDieTimeout core agent id => execCrossDieTimeout_keeps core agent id s hs
  | .podPhaseRelease ten lid peers => execPodPhaseRelease_keeps ten lid peers s hs
  | .tenancyKill ten => execTenancyKill_keeps ten s hs
  | .fumarolePass die => execFumarolePass_keeps die s hs
  | .fumaroleAbandon die => execFumaroleAbandon_keeps die s hs
  | .eventSend die => execEventSend_keeps die s hs
  | .storeApply core seat id => execStoreApply_keeps core seat id s hs
  | .pairReturnToService die cluster => execPairReturnToService_keeps die cluster s hs
  | .scanSelfTestComplete die cluster failed => execScanSelfTestComplete_keeps die cluster failed s hs
  | .semWaitComplete core sem => execSemWaitComplete_keeps core sem s hs
  | .resultWriteback core => execResultWriteback_keeps core s hs
  | .gearWrite die value => execGearWrite_keeps die value s hs
  | .bankOpComplete core => execBankOpComplete_keeps core s hs
  | .deferredTrap core seat => execDeferredTrap_keeps core seat s hs
  | .debugHalt core seat => execDebugHalt_keeps core seat s hs
  | .debugResume core seat => execDebugResume_keeps core seat s hs
  | .debugStep core seat => execDebugStep_keeps core seat s hs
  | .debugAccess core seat wr what n value => execDebugAccess_keeps core seat wr what n value s hs
  | .cancel ten lid => execCancel_keeps ten lid s hs
  | .tcbResetKill ten => execTcbResetKill_keeps ten s hs
  | .tcbResetUnfreeze ten => execTcbResetUnfreeze_keeps ten s hs
  | .pageRelease ten value => execPageRelease_keeps ten value s hs
  | .queueEnable ten q value => execQueueEnable_keeps ten q value s hs
  | .notifyWrite ten q slot header => execNotifyWrite_keeps ten q slot header s hs
  | .tueWrite => execTueWrite_keeps s hs
  | .flushva => execFlushva_keeps s hs
  | .flushten => execFlushten_keeps s hs
  | .tueRbaseWrite value => execTueRbaseWrite_keeps value s hs
  | .brdcfgCreate die b value => execBrdcfgCreate_keeps die b value s hs
  | .brdcfgFree die b => execBrdcfgFree_keeps die b s hs
  | .brdcfgGrant die b value => execBrdcfgGrant_keeps die b value s hs
  | .barcfgWrite id value => execBarcfgWrite_keeps id value s hs
  | .recareaWrite die value => execRecareaWrite_keeps die value s hs
  | .tablebaseWrite die value => execTablebaseWrite_keeps die value s hs
  | .xdtoWrite value => execXdtoWrite_keeps value s hs
  | .keydatWrite value => execKeydatWrite_keeps value s hs
  | .regWrite fn off value => execRegWrite_keeps fn off value s hs
  | .peerLoss m => execPeerLoss_keeps m s hs
  | .laneFault port lane => execLaneFault_keeps port lane s hs
  | .linkRetrain port => execLinkRetrain_keeps port s hs
  | .retrainTimeout port => execRetrainTimeout_keeps port s hs
  | .flitReplay port => execFlitReplay_keeps port s hs
  | .fabricRequestIn key req => execFabricRequestIn_keeps key req s hs
  | .hostAccess fn va n op value => execHostAccess_keeps fn va n op value s hs
  | .atsInvalidate fn page => execAtsInvalidate_keeps fn page s hs
  | .pcieLinkDegrade => execPcieLinkDegrade_keeps s hs
  | .ueConsume ten lid cls agent pa va => execUeConsume_keeps ten lid cls agent pa va s hs
  | .ce die place => execCe_keeps die place s hs
  | .scrub die ce ue => execScrub_keeps die ce ue s hs
  | .pairCheckpoint die cluster => execPairCheckpoint_keeps die cluster s hs
  | .pairMismatch die cluster => execPairMismatch_keeps die cluster s hs
  | .eventPost die ty ten place => execEventPost_keeps die ty ten place s hs
  | .eventRetry die => execEventRetry_keeps die s hs
  | .packageReset => execPackageReset_keeps s hs
  | .bringupLevel => execBringupLevel_keeps s hs
  | .bringupFail => execBringupFail_keeps s hs
  | .measuredBoot image digest valid => execMeasuredBoot_keeps image digest valid s hs
  | .spdmKeyBind key ten => execSpdmKeyBind_keeps key ten s hs
  | .peerRemoveDeclare m => execPeerRemoveDeclare_keeps m s hs
  | .lineWriteBack line => execLineWriteBack_keeps line s hs
  | .linkUp port => execLinkUp_keeps port s hs
  | .linkRetrainComplete port => execLinkRetrainComplete_keeps port s hs
  | .pcieRetrainComplete => execPcieRetrainComplete_keeps s hs
  | .hostLinkReturn => execHostLinkReturn_keeps s hs
  | .dieDebugHalt die => execDieDebugHalt_keeps die s hs
  | .dieDebugResume die => execDieDebugResume_keeps die s hs
  | .routeTableWrite m value => execRouteTableWrite_keeps m value s hs

/-- The syllables of a bundle keep it, one after the other. -/
theorem runSyls_keeps (l : List Instr) (s : State) (hs : Memory.wf s.mem = true) : Keeps (runSyls l s) := by
  induction l generalizing s with
  | nil => exact (keeps_next s).2 hs
  | cons i r ih =>
    obtain ⟨t, ht, hwf⟩ := exec_keeps i s hs
    rw [runSyls, ht]
    dsimp only
    split
    · exact (keeps_next t).2 hwf
    · exact ih t hwf

theorem State.runIssue_keeps (s : State) (hs : Memory.wf s.mem = true) : Keeps s.runIssue := by
  unfold State.runIssue
  split
  · exact (keeps_next s).2 hs
  · rename_i u _
    obtain ⟨t, ht, hwf⟩ := runSyls_keeps (issueOrder u.syls) s hs
    rw [ht, keeps_next, State.closeIssue_mem]
    exact hwf

theorem State.runEvent_keeps (s : State) (i : Instr) (hs : Memory.wf s.mem = true) : Keeps (s.runEvent i) := by
  obtain ⟨t, ht, hwf⟩ := exec_keeps i s hs
  rw [State.runEvent, ht]
  exact t.runIssue_keeps hwf

theorem step_keeps (s : State) (hs : Memory.wf s.mem = true) : Keeps (step s) := by
  unfold step
  split
  · exact s.runIssue_keeps hs
  · exact State.runEvent_keeps _ _ (by rwa [State.nextEvent_mem])

/-- Settles O2: every arm of `exec` keeps the form, and so do the runs of syllables and events that a step is made of. -/
theorem stepKeepsMemoryCanonical : Obligations.StepKeepsMemoryCanonical := by
  unfold Obligations.StepKeepsMemoryCanonical
  intro s t hs hstep
  obtain ⟨t', ht', hwf⟩ := step_keeps s hs
  rw [hstep] at ht'
  cases ht'
  exact hwf

/-! ## What a step runs -/

/-- One syllable is in its execution order whatever its slot (log 8). -/
theorem issueOrder_singleton (i : Instr) : issueOrder [i] = [i] := by
  cases h : Instr.isC i <;> simp [issueOrder, h]

theorem runSyls_singleton (i : Instr) (s : State) : runSyls [i] s = exec i s := by
  cases h : exec i s <;> simp [runSyls, h]

theorem State.runIssue_of_some {s : State} {u : Issue} (h : s.iss = some u) :
    s.runIssue = match runSyls (issueOrder u.syls) s with
      | .next t => .next t.closeIssue
      | .fault x => .fault x
      | .refused x => .refused x := by
  simp [State.runIssue, h] <;> rfl

/-- Settles O4: a bundle of one syllable runs exec of it, and an event is followed by the bundle that it lets issue. -/
theorem stepRunsTheDecodedInstruction : Obligations.StepRunsTheDecodedInstruction := by
  unfold Obligations.StepRunsTheDecodedInstruction
  refine ⟨fun s u i hu hi => ?_, fun s hs => ?_⟩
  · have hstep : step s = s.runIssue := by simp [step, hu]
    rw [hstep, State.runIssue_of_some hu, hi, issueOrder_singleton, runSyls_singleton] <;> cases exec i s <;> rfl
  · have hstep : step s = s.nextEvent.2.runEvent s.nextEvent.1 := by simp [step, hs]
    rw [hstep, State.runEvent]
    cases exec s.nextEvent.1 s.nextEvent.2 with
    | next t => rfl
    | fault x => rfl
    | refused x => rfl

end Sys2Proof.Machine
end

section
/-! Decode undoes encode (R35 to R47), for every syllable at once. -/

namespace Sys2Proof
set_option Elab.async false

open Sys2Proof.Machine

/-- The law of each constructor of an instruction. -/
theorem encoding_statement (i : Instr) : Laws.Encoding.Statement i :=
  match i with
  | .br g imm => Laws.Encoding.br g imm
  | .brq g z a imm => Laws.Encoding.brq g z a imm
  | .jmp g a => Laws.Encoding.jmp g a
  | .call g d imm => Laws.Encoding.call g d imm
  | .calli g d a => Laws.Encoding.calli g d a
  | .ret g a => Laws.Encoding.ret g a
  | .suspend g a b => Laws.Encoding.suspend g a b
  | .yield g => Laws.Encoding.yield g
  | .halt g => Laws.Encoding.halt g
  | .trap g imm => Laws.Encoding.trap g imm
  | .tret g => Laws.Encoding.tret g
  | .brk g => Laws.Encoding.brk g
  | .add g x d a b => Laws.Encoding.add g x d a b
  | .sub g x d a b => Laws.Encoding.sub g x d a b
  | .addi g x d a imm => Laws.Encoding.addi g x d a imm
  | .mul g x d a b => Laws.Encoding.mul g x d a b
  | .mulh g x d a b => Laws.Encoding.mulh g x d a b
  | .mulhu g x d a b => Laws.Encoding.mulhu g x d a b
  | .and g x d a b => Laws.Encoding.and g x d a b
  | .or g x d a b => Laws.Encoding.or g x d a b
  | .xor g x d a b => Laws.Encoding.xor g x d a b
  | .andn g x d a b => Laws.Encoding.andn g x d a b
  | .shl g x d a b => Laws.Encoding.shl g x d a b
  | .shr g x d a b => Laws.Encoding.shr g x d a b
  | .sar g x d a b => Laws.Encoding.sar g x d a b
  | .rot g x d a b => Laws.Encoding.rot g x d a b
  | .min g x d a b => Laws.Encoding.min g x d a b
  | .max g x d a b => Laws.Encoding.max g x d a b
  | .minu g x d a b => Laws.Encoding.minu g x d a b
  | .maxu g x d a b => Laws.Encoding.maxu g x d a b
  | .clz g x d a => Laws.Encoding.clz g x d a
  | .popc g x d a => Laws.Encoding.popc g x d a
  | .bfx g x d a pos len => Laws.Encoding.bfx g x d a pos len
  | .bfi g x d a pos len => Laws.Encoding.bfi g x d a pos len
  | .li g x d imm => Laws.Encoding.li g x d imm
  | .cmp g x d a b cc => Laws.Encoding.cmp g x d a b cc
  | .sel g x d a b c => Laws.Encoding.sel g x d a b c
  | .ldg g z sx d a imm => Laws.Encoding.ldg g z sx d a imm
  | .stg g z d a imm => Laws.Encoding.stg g z d a imm
  | .ldga g z sc d a b => Laws.Encoding.ldga g z sc d a b
  | .stgl g z sc d a b => Laws.Encoding.stgl g z sc d a b
  | .pref g wr a imm => Laws.Encoding.pref g wr a imm
  | .ldp g z sx d a imm => Laws.Encoding.ldp g z sx d a imm
  | .stp g z d a imm => Laws.Encoding.stp g z d a imm
  | .ldpa g z sc d a b => Laws.Encoding.ldpa g z sc d a b
  | .stpl g z sc d a b => Laws.Encoding.stpl g z sc d a b
  | .sqld g d a imm => Laws.Encoding.sqld g d a imm
  | .agadd g w o d a b => Laws.Encoding.agadd g w o d a b
  | .agincw g w o d a b => Laws.Encoding.agincw g w o d a b
  | .agaddb g w o d a b c => Laws.Encoding.agaddb g w o d a b c
  | .agcas g w o d a b c => Laws.Encoding.agcas g w o d a b c
  | .agxch g w o d a b => Laws.Encoding.agxch g w o d a b
  | .agmin g w o d a b => Laws.Encoding.agmin g w o d a b
  | .agmax g w o d a b => Laws.Encoding.agmax g w o d a b
  | .agand g w o d a b => Laws.Encoding.agand g w o d a b
  | .agor g w o d a b => Laws.Encoding.agor g w o d a b
  | .agxor g w o d a b => Laws.Encoding.agxor g w o d a b
  | .agfadd g w o d a b => Laws.Encoding.agfadd g w o d a b
  | .apadd g w o d a b => Laws.Encoding.apadd g w o d a b
  | .apincw g w o d a b => Laws.Encoding.apincw g w o d a b
  | .apaddb g w o d a b c => Laws.Encoding.apaddb g w o d a b c
  | .apcas g w o d a b c => Laws.Encoding.apcas g w o d a b c
  | .apxch g w o d a b => Laws.Encoding.apxch g w o d a b
  | .apmin g w o d a b => Laws.Encoding.apmin g w o d a b
  | .apmax g w o d a b => Laws.Encoding.apmax g w o d a b
  | .apfadd g w o d a b => Laws.Encoding.apfadd g w o d a b
  | .fadd g t rm d a b => Laws.Encoding.fadd g t rm d a b
  | .fsub g t rm d a b => Laws.Encoding.fsub g t rm d a b
  | .fmul g t rm d a b => Laws.Encoding.fmul g t rm d a b
  | .ffma g t rm d a b c => Laws.Encoding.ffma g t rm d a b c
  | .fdiv g t rm d a b => Laws.Encoding.fdiv g t rm d a b
  | .fsqrt g t rm d a => Laws.Encoding.fsqrt g t rm d a
  | .frsq g t rm d a => Laws.Encoding.frsq g t rm d a
  | .fmin g t d a b => Laws.Encoding.fmin g t d a b
  | .fmax g t d a b => Laws.Encoding.fmax g t d a b
  | .fabs g t d a => Laws.Encoding.fabs g t d a
  | .fneg g t d a => Laws.Encoding.fneg g t d a
  | .fcmp g t d a b cc => Laws.Encoding.fcmp g t d a b cc
  | .fclass g t d a mask => Laws.Encoding.fclass g t d a mask
  | .fcvt g rm d a b c => Laws.Encoding.fcvt g rm d a b c
  | .fsel g d a b c => Laws.Encoding.fsel g d a b c
  | .fli g d imm => Laws.Encoding.fli g d imm
  | .fliHi g d imm => Laws.Encoding.fliHi g d imm
  | .vadd g sd t rm d a b => Laws.Encoding.vadd g sd t rm d a b
  | .vsub g sd t rm d a b => Laws.Encoding.vsub g sd t rm d a b
  | .vmul g sd t rm d a b => Laws.Encoding.vmul g sd t rm d a b
  | .vfma g sd t rm d a b c => Laws.Encoding.vfma g sd t rm d a b c
  | .vfms g sd t rm d a b c => Laws.Encoding.vfms g sd t rm d a b c
  | .vmulZg g sd t rm d a b => Laws.Encoding.vmulZg g sd t rm d a b
  | .vfmaZg g sd t rm d a b c => Laws.Encoding.vfmaZg g sd t rm d a b c
  | .vfmsZg g sd t rm d a b c => Laws.Encoding.vfmsZg g sd t rm d a b c
  | .vmin g sd t d a b => Laws.Encoding.vmin g sd t d a b
  | .vmax g sd t d a b => Laws.Encoding.vmax g sd t d a b
  | .vabs g sd t d a => Laws.Encoding.vabs g sd t d a
  | .vneg g sd t d a => Laws.Encoding.vneg g sd t d a
  | .vcmp g sd t d a b cc => Laws.Encoding.vcmp g sd t d a b cc
  | .vcmpAny g sd t d a b cc => Laws.Encoding.vcmpAny g sd t d a b cc
  | .vcmpAll g sd t d a b cc => Laws.Encoding.vcmpAll g sd t d a b cc
  | .vsel g sd w d a b c => Laws.Encoding.vsel g sd w d a b c
  | .vdot g sd t rm d a b c => Laws.Encoding.vdot g sd t rm d a b c
  | .vred g sd t rm d a => Laws.Encoding.vred g sd t rm d a
  | .vscan g sd t rm d a => Laws.Encoding.vscan g sd t rm d a
  | .vexp2 g sd t d a => Laws.Encoding.vexp2 g sd t d a
  | .vlog2 g sd t d a => Laws.Encoding.vlog2 g sd t d a
  | .vrcp g sd t d a => Laws.Encoding.vrcp g sd t d a
  | .vrsq g sd t d a => Laws.Encoding.vrsq g sd t d a
  | .vcvt g sd rm d a b c => Laws.Encoding.vcvt g sd rm d a b c
  | .vperm g sd d a b c => Laws.Encoding.vperm g sd d a b c
  | .vbcast g sd w d a b => Laws.Encoding.vbcast g sd w d a b
  | .vrotl g sd d a b => Laws.Encoding.vrotl g sd d a b
  | .viadd g sd w d a b => Laws.Encoding.viadd g sd w d a b
  | .vimul g sd w d a b => Laws.Encoding.vimul g sd w d a b
  | .vand g sd d a b => Laws.Encoding.vand g sd d a b
  | .vor g sd d a b => Laws.Encoding.vor g sd d a b
  | .vxor g sd d a b => Laws.Encoding.vxor g sd d a b
  | .vshl g sd w d a b => Laws.Encoding.vshl g sd w d a b
  | .vshr g sd w d a b => Laws.Encoding.vshr g sd w d a b
  | .vidx g sd d b c => Laws.Encoding.vidx g sd d b c
  | .vsetx g sd d a b => Laws.Encoding.vsetx g sd d a b
  | .vsetxAdd g sd d a b => Laws.Encoding.vsetxAdd g sd d a b
  | .vsetxLi g sd d b => Laws.Encoding.vsetxLi g sd d b
  | .vpopq g sd d => Laws.Encoding.vpopq g sd d
  | .vldp g sd s4 d a imm => Laws.Encoding.vldp g sd s4 d a imm
  | .vstp g sd s4 d a imm => Laws.Encoding.vstp g sd s4 d a imm
  | .vldps g sd s4 d a imm => Laws.Encoding.vldps g sd s4 d a imm
  | .kmov g df sf d a => Laws.Encoding.kmov g df sf d a
  | .kvec g df sf d a => Laws.Encoding.kvec g df sf d a
  | .kext g df sf d a b => Laws.Encoding.kext g df sf d a b
  | .kins g df sf d a b => Laws.Encoding.kins g df sf d a b
  | .kbc g df sf d a => Laws.Encoding.kbc g df sf d a
  | .eli g d imm => Laws.Encoding.eli g d imm
  | .eadd g d a b => Laws.Encoding.eadd g d a b
  | .emov g d a => Laws.Encoding.emov g d a
  | .csrrd g d imm => Laws.Encoding.csrrd g d imm
  | .csrwr g a imm => Laws.Encoding.csrwr g a imm
  | .semsig g ret d a imm => Laws.Encoding.semsig g ret d a imm
  | .semwait g a imm => Laws.Encoding.semwait g a imm
  | .fence g sc k => Laws.Encoding.fence g sc k
  | .phase g d => Laws.Encoding.phase g d
  | .launch g d a b => Laws.Encoding.launch g d a b
  | .copy g d a b => Laws.Encoding.copy g d a b
  | .copyp g d a b => Laws.Encoding.copyp g d a b
  | .cwait g a b c => Laws.Encoding.cwait g a b c
  | .tlrd g d b c => Laws.Encoding.tlrd g d b c
  | .tlrdErr g d b c => Laws.Encoding.tlrdErr g d b c
  | .tlrdErrc g d b c => Laws.Encoding.tlrdErrc g d b c
  | .bpost g d a b c => Laws.Encoding.bpost g d a b c
  | .bview g d a => Laws.Encoding.bview g d a
  | .bviewWord g d a b => Laws.Encoding.bviewWord g d a b
  | .bread g d a b c => Laws.Encoding.bread g d a b c
  | .badv g d a b => Laws.Encoding.badv g d a b
  | .barr g d a => Laws.Encoding.barr g d a
  | .strset g a b c => Laws.Encoding.strset g a b c
  | .strtap g a b c => Laws.Encoding.strtap g a b c
  | .ringsetGeom g a b => Laws.Encoding.ringsetGeom g a b
  | .ringsetAdvance g a b => Laws.Encoding.ringsetAdvance g a b
  | .ringsetRd g d b => Laws.Encoding.ringsetRd g d b
  | .tlbinv g a b => Laws.Encoding.tlbinv g a b
  | .icflush g a b => Laws.Encoding.icflush g a b
  | .mcfg g b c => Laws.Encoding.mcfg g b c
  | .mzero g d => Laws.Encoding.mzero g d
  | .macc g a b => Laws.Encoding.macc g a b
  | .maccZg g a b => Laws.Encoding.maccZg g a b
  | .maccs g a b => Laws.Encoding.maccs g a b
  | .mpush g d a b c => Laws.Encoding.mpush g d a b c
  | .mshift g d => Laws.Encoding.mshift g d
  | .mdrain g d a => Laws.Encoding.mdrain g d a
  | .sprune g a b c => Laws.Encoding.sprune g a b c
  | .sprunet g a b c => Laws.Encoding.sprunet g a b c
  | .sregrow g a b c => Laws.Encoding.sregrow g a b c
  | .shdr g d a => Laws.Encoding.shdr g d a
  | .shdrW g a c => Laws.Encoding.shdrW g a c
  | .shdrCk g a => Laws.Encoding.shdrCk g a
  | .scheck g d a => Laws.Encoding.scheck g d a
  | .sexpand g a b => Laws.Encoding.sexpand g a b
  | .xadd g d a b => Laws.Encoding.xadd g d a b
  | .xmul g d a b => Laws.Encoding.xmul g d a b
  | .xand g d a b => Laws.Encoding.xand g d a b
  | .xshl g d a b => Laws.Encoding.xshl g d a b
  | .xshr g d a b => Laws.Encoding.xshr g d a b
  | .xldp g d a imm => Laws.Encoding.xldp g d a imm
  | .xpush g gr a c => Laws.Encoding.xpush g gr a c
  | .xpushNb g gr d a c => Laws.Encoding.xpushNb g gr d a c
  | .xscat g gr a b c => Laws.Encoding.xscat g gr a b c
  | .xscatNb g gr d a b c => Laws.Encoding.xscatNb g gr d a b c
  | .xscata g gr a b c => Laws.Encoding.xscata g gr a b c
  | .xscataNb g gr d a b c => Laws.Encoding.xscataNb g gr d a b c
  | .xhash g d a c => Laws.Encoding.xhash g d a c
  | .xins g d a b c => Laws.Encoding.xins g d a b c
  | .xwalk g csr d a c => Laws.Encoding.xwalk g csr d a c
  | .bundleIssue core fresh => Laws.Encoding.bundleIssue core fresh
  | .bundleComplete core seat => Laws.Encoding.bundleComplete core seat
  | .loadDataReturn core seat id => Laws.Encoding.loadDataReturn core seat id
  | .seatSwitch core => Laws.Encoding.seatSwitch core
  | .quantumExpiry core => Laws.Encoding.quantumExpiry core
  | .gearPoint core => Laws.Encoding.gearPoint core
  | .walk die ten page => Laws.Encoding.walk die ten page
  | .walkComplete die ten page => Laws.Encoding.walkComplete die ten page
  | .atomicApply core seat id => Laws.Encoding.atomicApply core seat id
  | .atomicReply core seat id => Laws.Encoding.atomicReply core seat id
  | .requestResend core seat id => Laws.Encoding.requestResend core seat id
  | .phaseRelease ten lid grp => Laws.Encoding.phaseRelease ten lid grp
  | .boardSerialise core seat => Laws.Encoding.boardSerialise core seat
  | .boardReply core seat => Laws.Encoding.boardReply core seat
  | .barrierArrival core seat => Laws.Encoding.barrierArrival core seat
  | .barrierRelease id => Laws.Encoding.barrierRelease id
  | .scaleArrive core seat id => Laws.Encoding.scaleArrive core seat id
  | .ringTileFill core ring => Laws.Encoding.ringTileFill core ring
  | .sparsityCmdComplete core => Laws.Encoding.sparsityCmdComplete core
  | .gatherArrive core part => Laws.Encoding.gatherArrive core part
  | .scatterComplete core seat order => Laws.Encoding.scatterComplete core seat order
  | .copyComplete r order => Laws.Encoding.copyComplete r order
  | .checkedCheck core seat => Laws.Encoding.checkedCheck core seat
  | .trapEntry core seat => Laws.Encoding.trapEntry core seat
  | .suspendSpill core seat => Laws.Encoding.suspendSpill core seat
  | .wakeReady die rec => Laws.Encoding.wakeReady die rec
  | .resume core seat => Laws.Encoding.resume core seat
  | .seatRecord die rec => Laws.Encoding.seatRecord die rec
  | .preemptRequest core seat => Laws.Encoding.preemptRequest core seat
  | .preemptTimeout core seat => Laws.Encoding.preemptTimeout core seat
  | .preemptSpill core seat => Laws.Encoding.preemptSpill core seat
  | .strandKill core seat => Laws.Encoding.strandKill core seat
  | .launchPacket ten q => Laws.Encoding.launchPacket ten q
  | .copyPacket ten q => Laws.Encoding.copyPacket ten q
  | .copyxPacket ten q => Laws.Encoding.copyxPacket ten q
  | .signalPacket ten q => Laws.Encoding.signalPacket ten q
  | .waitallPacket ten q => Laws.Encoding.waitallPacket ten q
  | .launchStart ten key => Laws.Encoding.launchStart ten key
  | .recordCreate ten lid die base cluster => Laws.Encoding.recordCreate ten lid die base cluster
  | .priorityAgeing ten q => Laws.Encoding.priorityAgeing ten q
  | .budgetExpiry ten key => Laws.Encoding.budgetExpiry ten key
  | .launchComplete ten key => Laws.Encoding.launchComplete ten key
  | .crossDieTimeout core agent id => Laws.Encoding.crossDieTimeout core agent id
  | .podPhaseRelease ten lid peers => Laws.Encoding.podPhaseRelease ten lid peers
  | .tenancyKill ten => Laws.Encoding.tenancyKill ten
  | .fumarolePass die => Laws.Encoding.fumarolePass die
  | .fumaroleAbandon die => Laws.Encoding.fumaroleAbandon die
  | .eventSend die => Laws.Encoding.eventSend die
  | .storeApply core seat id => Laws.Encoding.storeApply core seat id
  | .pairReturnToService die cluster => Laws.Encoding.pairReturnToService die cluster
  | .scanSelfTestComplete die cluster failed => Laws.Encoding.scanSelfTestComplete die cluster failed
  | .semWaitComplete core sem => Laws.Encoding.semWaitComplete core sem
  | .resultWriteback core => Laws.Encoding.resultWriteback core
  | .gearWrite die value => Laws.Encoding.gearWrite die value
  | .bankOpComplete core => Laws.Encoding.bankOpComplete core
  | .deferredTrap core seat => Laws.Encoding.deferredTrap core seat
  | .debugHalt core seat => Laws.Encoding.debugHalt core seat
  | .debugResume core seat => Laws.Encoding.debugResume core seat
  | .debugStep core seat => Laws.Encoding.debugStep core seat
  | .debugAccess core seat wr what n value => Laws.Encoding.debugAccess core seat wr what n value
  | .cancel ten lid => Laws.Encoding.cancel ten lid
  | .tcbResetKill ten => Laws.Encoding.tcbResetKill ten
  | .tcbResetUnfreeze ten => Laws.Encoding.tcbResetUnfreeze ten
  | .pageRelease ten value => Laws.Encoding.pageRelease ten value
  | .queueEnable ten q value => Laws.Encoding.queueEnable ten q value
  | .notifyWrite ten q slot header => Laws.Encoding.notifyWrite ten q slot header
  | .tueWrite => Laws.Encoding.tueWrite
  | .flushva => Laws.Encoding.flushva
  | .flushten => Laws.Encoding.flushten
  | .tueRbaseWrite value => Laws.Encoding.tueRbaseWrite value
  | .brdcfgCreate die b value => Laws.Encoding.brdcfgCreate die b value
  | .brdcfgFree die b => Laws.Encoding.brdcfgFree die b
  | .brdcfgGrant die b value => Laws.Encoding.brdcfgGrant die b value
  | .barcfgWrite id value => Laws.Encoding.barcfgWrite id value
  | .recareaWrite die value => Laws.Encoding.recareaWrite die value
  | .tablebaseWrite die value => Laws.Encoding.tablebaseWrite die value
  | .xdtoWrite value => Laws.Encoding.xdtoWrite value
  | .keydatWrite value => Laws.Encoding.keydatWrite value
  | .regWrite fn off value => Laws.Encoding.regWrite fn off value
  | .peerLoss m => Laws.Encoding.peerLoss m
  | .laneFault port lane => Laws.Encoding.laneFault port lane
  | .linkRetrain port => Laws.Encoding.linkRetrain port
  | .retrainTimeout port => Laws.Encoding.retrainTimeout port
  | .flitReplay port => Laws.Encoding.flitReplay port
  | .fabricRequestIn key req => Laws.Encoding.fabricRequestIn key req
  | .hostAccess fn va n op value => Laws.Encoding.hostAccess fn va n op value
  | .atsInvalidate fn page => Laws.Encoding.atsInvalidate fn page
  | .pcieLinkDegrade => Laws.Encoding.pcieLinkDegrade
  | .ueConsume ten lid cls agent pa va => Laws.Encoding.ueConsume ten lid cls agent pa va
  | .ce die place => Laws.Encoding.ce die place
  | .scrub die ce ue => Laws.Encoding.scrub die ce ue
  | .pairCheckpoint die cluster => Laws.Encoding.pairCheckpoint die cluster
  | .pairMismatch die cluster => Laws.Encoding.pairMismatch die cluster
  | .eventPost die ty ten place => Laws.Encoding.eventPost die ty ten place
  | .eventRetry die => Laws.Encoding.eventRetry die
  | .packageReset => Laws.Encoding.packageReset
  | .bringupLevel => Laws.Encoding.bringupLevel
  | .bringupFail => Laws.Encoding.bringupFail
  | .measuredBoot image digest valid => Laws.Encoding.measuredBoot image digest valid
  | .spdmKeyBind key ten => Laws.Encoding.spdmKeyBind key ten
  | .peerRemoveDeclare m => Laws.Encoding.peerRemoveDeclare m
  | .lineWriteBack line => Laws.Encoding.lineWriteBack line
  | .linkUp port => Laws.Encoding.linkUp port
  | .linkRetrainComplete port => Laws.Encoding.linkRetrainComplete port
  | .pcieRetrainComplete => Laws.Encoding.pcieRetrainComplete
  | .hostLinkReturn => Laws.Encoding.hostLinkReturn
  | .dieDebugHalt die => Laws.Encoding.dieDebugHalt die
  | .dieDebugResume die => Laws.Encoding.dieDebugResume die
  | .routeTableWrite m value => Laws.Encoding.routeTableWrite m value

/-- Settles O3, by the law of the instruction's constructor. -/
theorem decodeOfEncodeIsSame : Obligations.DecodeOfEncodeIsSame := by
  unfold Obligations.DecodeOfEncodeIsSame
  intro i slot w ext ctx hwf henc hclaim hlvl
  have h := encoding_statement i hwf
  rw [henc] at h
  exact h ctx hclaim hlvl

end Sys2Proof
end

section
/-! Registers (R8, R11, R149): what a register reads after a write, and the registers that the trap bank renames. -/

namespace Sys2Proof.Machine
set_option Elab.async false

open Sys2Proof

theorem b2n_mod_two (x : Nat) : b2n (x % 2 == 1) = x % 2 := by
  rcases Nat.mod_two_eq_zero_or_one x with h | h <;> simp [b2n, h]

/-- A register written reads back, cut to its file's width. -/
theorem readReg_writeReg_same (r : Regs) {g : Reg} (v : Nat) (h : g.file = .q → g.n ≠ 0) :
    readReg (writeReg r g v) g = v % 2 ^ File.width g.file := by
  obtain ⟨f, n⟩ := g
  cases f with
  | q =>
    have hn : n ≠ 0 := h rfl
    by_cases h8 : n = 8
    · simp [readReg, writeReg, File.width, h8, b2n_mod_two]
    · simp [readReg, writeReg, File.width, hn, h8, tget_tset, b2n_mod_two]
  | i => by_cases hn : n < 64 <;> simp [readReg, writeReg, File.width, hn, tget_tset]
  | j | fr | e | v | w | xv | vm | vx | wx => simp [readReg, writeReg, File.width, tget_tset]

/-- A write changes what no other register reads. -/
theorem readReg_writeReg_of_ne (r : Regs) {g k : Reg} (v : Nat) (h : k ≠ g) : readReg (writeReg r g v) k = readReg r k := by
  obtain ⟨f, n⟩ := g
  obtain ⟨f', m⟩ := k
  by_cases hf : f' = f
  · subst hf
    have hne : m ≠ n := fun hm => h (by rw [hm])
    cases f' with
    | q =>
      by_cases h0 : n = 0
      · simp [writeReg, h0]
      · by_cases h8 : n = 8
        · simp [readReg, writeReg, h8, show m ≠ 8 by omega]
        · simp [readReg, writeReg, h0, h8, tget_tset, hne]
    | i =>
      by_cases h64 : n < 64 <;> by_cases hm : m < 64
      · simp [readReg, writeReg, h64, hm, tget_tset, hne]
      · simp [readReg, writeReg, h64, hm]
      · simp [readReg, writeReg, h64, hm]
      · simp [readReg, writeReg, h64, hm, tget_tset, show m - 64 ≠ n - 64 by omega]
    | j | fr | e | v | w | xv | vm | vx | wx => simp [readReg, writeReg, tget_tset, hne]
  · cases f' <;> grind [readReg, writeReg]

theorem bank_q_zero (tm : Bool) : bank tm .q 0 = ⟨.q, 0⟩ := by simp [bank]

/-- Out of trap mode a number names its own register. -/
theorem bank_false (f : File) (n : Nat) : bank false f n = ⟨f, n⟩ := by simp [bank]

theorem bank_true_i (n : Nat) : bank true .i n = ⟨.i, if 56 ≤ n then n + 8 else n⟩ := by
  by_cases h : 56 ≤ n <;> simp [bank, h]

theorem bank_true_q (n : Nat) : bank true .q n = ⟨.q, if n = 7 then 8 else n⟩ := by
  by_cases h : n = 7 <;> simp [bank, h]

/-- Only the I file and the predicates have a trap bank. -/
theorem bank_of_other_file (tm : Bool) {f : File} (n : Nat) (hi : f ≠ .i) (hq : f ≠ .q) : bank tm f n = ⟨f, n⟩ := by
  simp [bank, hi, hq]

/-- Settles O6, clause by clause of R8, R11 and R149. -/
theorem registerFilesAndTrapBank : Obligations.RegisterFilesAndTrapBank := by
  unfold Obligations.RegisterFilesAndTrapBank
  refine ⟨fun t v => ⟨?_, ?_⟩, fun r g h v hg => ⟨?_, readReg_writeReg_of_ne r v⟩, fun n _ =>
    ⟨bank_false .i n, bank_true_i n, fun _ => ⟨bank_false .q n, bank_true_q n⟩, fun f m tm => bank_of_other_file tm m⟩⟩
  · simp [Seat.get, bank_q_zero, readReg, b2n]
  · simp [Seat.put, bank_q_zero, writeReg]
  · rw [readReg_writeReg_same r v hg]
    cases g.file <;> rfl

/-! ## Results under way (R16) -/

/-- The reset part with the strand of seat 0 of core 0 halted for the debugger: nothing lands there while it is halted (R157). -/
def haltedReset : State := State.reset.modSeat 0 0 (fun t => { t with halted := true })

/-- Refutes O7: the statement leaves the debugger out, and a result due on a seat that is halted for it does not land. -/
theorem not_resultsLandInOrder : ¬ Obligations.ResultsLandInOrder := by
  unfold Obligations.ResultsLandInOrder
  rintro ⟨hlands, -⟩
  have h := (hlands haltedReset { core := 0, seat := 0, pc := 0, next := 0, seq := 0, syls := [] } 0 0 .i 1 1 (by decide) (by decide)).2.1
    0 (by decide)
  revert h
  decide

end Sys2Proof.Machine
end

section
/-! Control (R26 to R30, R97 to R101): the branch-class forms, the link, the delay bundles, and what the other C forms ask for at the end of their
bundle. -/

namespace Sys2Proof.Machine
set_option Elab.async false

open Sys2Proof

/-! ## Branch-class forms -/

/-- A branch-class form asks for its target, or for none. -/
theorem branchForm_of {s : State} {u : Issue} (k : Issue → Option Word) (h : s.iss = some u) :
    branchForm s k = .next { s with iss := some { u with ctl := .branch (k u) } } := by
  rw [branchForm, onIssue_of _ h, ask_of _ h]

/-- A register's word is zero exactly when its value is. -/
theorem ofNat_rd_i_eq_zero_iff (s : State) (u : Issue) (n : Nat) : BitVec.ofNat 64 (s.rd u .i n) = 0 ↔ s.rd u .i n = 0 := by
  have h : s.rd u .i n < 2 ^ 64 := rd_lt s u .i n
  rw [← BitVec.toNat_inj, BitVec.toNat_ofNat, Nat.mod_eq_of_lt h]
  rfl

/-- BRQ's condition (R98). -/
theorem brq_condition_iff (s : State) (u : Issue) (g : Guard) (z : Bool) (n : Nat) :
    (s.guard u g && ((s.rd u .i n == 0) == z)) = true ↔ s.guard u g = true ∧ (z = true ↔ BitVec.ofNat 64 (s.rd u .i n) = 0) := by
  rw [ofNat_rd_i_eq_zero_iff]
  cases z <;> simp

/-- A call whose guard holds and whose link is known: the link under way, and the target asked for. -/
theorem callForm_of_acts {s : State} {u : Issue} {g : Guard} (d : R11) (k : Issue → Word) (h : Acts s u g) (hp : Passes u (s.linkPre u)) :
    callForm s g d k =
      .next { s.result u 0 1 .i d.toNat (s.link u) with iss := some { u with ctl := .branch (some (k u)) } } := by
  have hiss : (s.result u 0 1 .i d.toNat (s.link u)).iss = some u := h.1
  rw [callForm, onIssue_of _ h.1, if_pos h.2, gate_of_passes _ hp, ask_of _ hiss]

theorem callForm_of_false {s : State} {u : Issue} {g : Guard} (d : R11) (k : Issue → Word) (h : s.iss = some u) (hg : s.guard u g = false) :
    callForm s g d k = .next { s with iss := some { u with ctl := .branch none } } := by
  rw [callForm, onIssue_of _ h, hg, if_neg (by decide), ask_of _ h]

/-- Settles O8, form by form. -/
theorem branchAndCallForms : Obligations.BranchAndCallForms := by
  unfold Obligations.BranchAndCallForms
  refine ⟨fun s u g imm z a hu => ⟨branchForm_of _ hu, ?_, branchForm_of _ hu, branchForm_of _ hu⟩, fun s u g d a imm hu =>
    ⟨fun hg hp => ⟨callForm_of_acts d _ ⟨hu, hg⟩ hp, callForm_of_acts d _ ⟨hu, hg⟩ hp⟩,
      fun hg => ⟨callForm_of_false d _ hu hg, callForm_of_false d _ hu hg⟩⟩⟩
  show execBrq g z a imm s = _
  rw [execBrq, branchForm_of _ hu]
  simp only [brq_condition_iff, branchTo]

/-! ## The link and the delay bundles -/

/-- The words of both delay bundles fetched, the address after them is known (R28). -/
theorem State.afterBundles_two {s : State} {c ten lid : Nat} {va w1 w2 : Word} (h1 : s.codeFetch c ten lid va.toNat false = .word w1)
    (h2 : s.codeFetch c ten lid (va + BitVec.ofNat 64 (8 * (Bcw.of w1).words)).toNat false = .word w2) :
    s.afterBundles c ten lid 2 va = .ok (va + BitVec.ofNat 64 (8 * (Bcw.of w1).words) + BitVec.ofNat 64 (8 * (Bcw.of w2).words)) := by
  simp only [State.afterBundles, h1, h2]

theorem State.who_of_strand {s : State} {u : Issue} {x : Strand} (h : (s.seat u.core u.seat).strand = some x) :
    s.who u = (x.ten, x.lid, x.idx) := by
  simp [State.who, h]

/-- Settles O9: the link by the two BCWs' lengths, and the seat's place from the branch bundle on. -/
theorem delayBundlesLinkAndTarget : Obligations.DelayBundlesLinkAndTarget := by
  unfold Obligations.DelayBundlesLinkAndTarget
  refine ⟨fun s u x w1 w2 hx hwalk h1 h2 => ?_, fun t b d1 d2 target hcount hb h1 h2 => ?_⟩
  · have hafter := State.afterBundles_two h1 h2
    constructor
    · simp [State.link, State.who_of_strand hx, hafter]
    · simp [State.linkPre, State.who_of_strand hx, hafter, hwalk]
  · cases target <;> simp [Seat.advance, hcount, hb, h1, h2]

/-! ## The other C forms -/

/-- A form with checks that asks for something at the end of its bundle. -/
theorem guarded_ask_of_acts {s : State} {u : Issue} {g : Guard} {pre : Issue → Pre} (k : Issue → Ctl) (h : Acts s u g) (hp : Passes u (pre u)) :
    guarded s g pre (fun u s' => s'.ask (k u)) = .next { s with iss := some { u with ctl := k u } } := by
  rw [guarded_of_acts _ h hp, ask_of _ h.1]

theorem simple_ask_of_acts {s : State} {u : Issue} {g : Guard} (k : Ctl) (h : Acts s u g) :
    simple s g (fun _ => s.ask k) = .next { s with iss := some { u with ctl := k } } := by
  rw [simple_of_acts _ h, ask_of _ h.1]

/-- Out of trap mode a SUSPEND, YIELD or HALT leaves its request with the seat. -/
theorem State.control_leave_of_not_tm {s : State} {u : Issue} (l : Leave) (h : (s.seat u.core u.seat).tm = false) :
    s.control { u with ctl := .leave l } = s.modSeat u.core u.seat (fun t => { t with leave := some l }) := by
  simp [State.control, h]

/-- In trap mode only HALT does; SUSPEND and YIELD kill the strand (R150). -/
theorem State.control_leave_of_tm {s : State} {u : Issue} (l : Leave) (h : (s.seat u.core u.seat).tm = true) :
    s.control { u with ctl := .leave l } =
      (if l = .halt then s.modSeat u.core u.seat (fun t => { t with leave := some l }) else s.killStrand u.core u.seat 1) := by
  by_cases hl : l = .halt <;> simp [State.control, h, hl]

theorem State.control_brk {s : State} {u : Issue} {x : Strand} (h : (s.seat u.core u.seat).strand = some x) :
    s.control { u with ctl := .brk } =
      (if bitAt (BitVec.toNat (s.tenancy x.ten).debug) 0 then s.debugStop u.core u.seat
       else s.takeTrap u.core u.seat ⟨0x0D, 0, 0, u.pc.toNat, 0, false, 0⟩ u.next {} none) := by
  simp only [State.control, h]
  rfl

/-- Settles O10: what each form asks for, and what the end of the bundle does with it. -/
theorem boundaryForms : Obligations.BoundaryForms := by
  unfold Obligations.BoundaryForms
  refine ⟨fun s u g a b imm hu => ⟨fun hg => ⟨fun hp => ⟨guarded_ask_of_acts _ ⟨hu, hg⟩ hp, guarded_ask_of_acts _ ⟨hu, hg⟩ hp⟩,
      fun hp => guarded_ask_of_acts _ ⟨hu, hg⟩ hp, simple_ask_of_acts _ ⟨hu, hg⟩, simple_ask_of_acts _ ⟨hu, hg⟩,
      fun hp => guarded_ask_of_acts _ ⟨hu, hg⟩ hp⟩,
    fun hg => ⟨guarded_of_false _ _ hu hg, guarded_of_false _ _ hu hg, guarded_of_false _ _ hu hg, simple_of_false _ hu hg,
      simple_of_false _ hu hg, guarded_of_false _ _ hu hg⟩⟩,
    fun s u code l x hx htm => ⟨State.control_leave_of_not_tm l htm, rfl, State.control_brk hx⟩,
    fun s u l htm => State.control_leave_of_tm l htm⟩

end Sys2Proof.Machine
end

section
/-! The lanes of a vector: what an element of `packElems`, `mkVec` and `setField` reads as (R4, R8). -/

namespace Sys2Proof
set_option Elab.async false

theorem packElems_lt (w : Nat) (f : Nat → Nat) (n : Nat) : packElems w f n < 2 ^ (w * n) := by
  induction n with
  | zero => simp [packElems]
  | succ n ih =>
    have hpow : 2 ^ (w * (n + 1)) = 2 ^ w * 2 ^ (w * n) := by rw [Nat.mul_succ, Nat.pow_add, Nat.mul_comm]
    have hf : f n % 2 ^ w + 1 ≤ 2 ^ w := Nat.mod_lt _ (Nat.two_pow_pos w)
    have hmul := Nat.mul_le_mul_right (2 ^ (w * n)) hf
    rw [packElems, hpow]
    rw [Nat.add_mul] at hmul
    omega

/-- Element i of n packed side by side. -/
theorem packElems_lane (w : Nat) (f : Nat → Nat) {n i : Nat} (hi : i < n) :
    packElems w f n / 2 ^ (w * i) % 2 ^ w = f i % 2 ^ w := by
  induction n with
  | zero => omega
  | succ n ih =>
    rcases Nat.lt_succ_iff_lt_or_eq.mp hi with hlt | rfl
    · have hsplit : 2 ^ (w * n) = 2 ^ w * 2 ^ (w * (n - (i + 1))) * 2 ^ (w * i) := by
        have hn : w * n = w * (1 + (n - (i + 1)) + i) := by congr 1; omega
        rw [← Nat.pow_add, ← Nat.pow_add, hn, Nat.mul_add, Nat.mul_add, Nat.mul_one]
      rw [packElems, hsplit, ← Nat.mul_assoc, Nat.add_mul_div_right _ _ (Nat.two_pow_pos _), Nat.mul_left_comm,
        Nat.add_mul_mod_self_left, ih hlt]
    · rw [packElems, Nat.add_mul_div_right _ _ (Nat.two_pow_pos _), Nat.div_eq_of_lt (packElems_lt ..), Nat.zero_add,
        Nat.mod_mod]

theorem mkVec_toNat (w : Nat) (f : Nat → Nat) : (mkVec w f).toNat = packElems w f (2048 / w) := by
  rw [mkVec, BitVec.toNat_ofNat]
  refine Nat.mod_eq_of_lt (lt_of_lt_of_le (packElems_lt ..) (Nat.pow_le_pow_right (by decide) ?_))
  exact Nat.mul_div_le 2048 w

theorem mkVec_lane (w : Nat) (f : Nat → Nat) {i : Nat} (hi : i < 2048 / w) :
    (mkVec w f).toNat / 2 ^ (w * i) % 2 ^ w = f i % 2 ^ w := by
  rw [mkVec_toNat, packElems_lane w f hi]

theorem elem_mkVec (w : Nat) (f : Nat → Nat) {i : Nat} (hi : i < 2048 / w) : elem (mkVec w f) w i = f i % 2 ^ w :=
  mkVec_lane w f hi

theorem elem_lt (x : Vec) (w i : Nat) : elem x w i < 2 ^ w := Nat.mod_lt _ (Nat.two_pow_pos w)

/-- A bit field that is one element replaces that element and leaves the others. -/
theorem setField_lane (x w k v l : Nat) :
    setField x (w * k) w v / 2 ^ (w * l) % 2 ^ w = (if l = k then v else x / 2 ^ (w * l)) % 2 ^ w := by
  refine Nat.eq_of_testBit_eq fun i => ?_
  rw [Nat.testBit_mod_two_pow, Nat.testBit_mod_two_pow, Nat.testBit_div_two_pow]
  by_cases hi : i < w
  case neg => simp [hi]
  simp only [hi, decide_true, Bool.true_and]
  rw [Machine.testBit_setField]
  rcases Nat.lt_trichotomy l k with hlk | rfl | hlk
  · have : w * (l + 1) ≤ w * k := Nat.mul_le_mul_left w hlk
    rw [Nat.mul_succ] at this
    rw [if_neg (by omega), if_neg (by omega), Nat.testBit_div_two_pow]
  · rw [if_pos (by omega), if_pos rfl, Nat.add_sub_cancel]
  · have : w * (k + 1) ≤ w * l := Nat.mul_le_mul_left w hlk
    rw [Nat.mul_succ] at this
    rw [if_neg (by omega), if_neg (by omega), Nat.testBit_div_two_pow]

end Sys2Proof
end

section
/-! What the integer forms of the I and J slots and the copies of the K slot compute (R102 to R104, R113, R114): each operation
of the model on natural numbers is the operation of 64-bit words that the specification names. -/

namespace Sys2Proof.Machine
set_option Elab.async false

open Sys2Proof

/-! ## The model's operations on numbers as operations on words -/

theorem sextN_toNat {w : Nat} (A : BitVec w) : sextN w A.toNat = A.toInt := by
  simp only [sextN, Nat.mod_eq_of_lt A.isLt, BitVec.toInt_eq_toNat_cond]
  split <;> split <;> omega

theorem wrapN_toInt {w : Nat} (A : BitVec w) : wrapN w A.toInt = A.toNat := by
  rw [wrapN, ← BitVec.toNat_ofInt, BitVec.ofInt_toInt]

theorem wrapN_eq_toNat_ofInt (w : Nat) (x : Int) : wrapN w x = (BitVec.ofInt w x).toNat := by
  rw [wrapN, BitVec.toNat_ofInt]

theorem addr64_toNat (A B : Word) : addr64 A.toNat B.toNat = (A + B).toNat := by
  rw [addr64, BitVec.toNat_add]

theorem sub64_toNat (A B : Word) : (A.toNat + 2 ^ 64 - B.toNat) % 2 ^ 64 = (A - B).toNat := by
  have hB := B.isLt
  rw [BitVec.toNat_sub]
  congr 1
  omega

theorem mulHighSigned_toNat (A B : Word) :
    wrapN 128 (sextN 64 A.toNat * sextN 64 B.toNat) / 2 ^ 64 =
      ((A.signExtend 128 * B.signExtend 128).extractLsb' 64 64).toNat := by
  have hprod : BitVec.ofInt 128 (A.toInt * B.toInt) = A.signExtend 128 * B.signExtend 128 := by
    rw [BitVec.ofInt_mul]; rfl
  have hlt := (A.signExtend 128 * B.signExtend 128).isLt
  rw [sextN_toNat, sextN_toNat, wrapN_eq_toNat_ofInt, hprod, BitVec.extractLsb'_toNat, Nat.shiftRight_eq_div_pow,
    Nat.mod_eq_of_lt (by omega)]

theorem mulHigh_toNat (A B : Word) :
    A.toNat * B.toNat / 2 ^ 64 = ((A.zeroExtend 128 * B.zeroExtend 128).extractLsb' 64 64).toNat := by
  have hlt : A.toNat * B.toNat < 2 ^ 64 * 2 ^ 64 := Nat.mul_lt_mul'' A.isLt B.isLt
  have hA : (A.zeroExtend 128).toNat = A.toNat := by simp only [BitVec.truncate_eq_setWidth, BitVec.toNat_setWidth]; have := A.isLt; omega
  have hB : (B.zeroExtend 128).toNat = B.toNat := by simp only [BitVec.truncate_eq_setWidth, BitVec.toNat_setWidth]; have := B.isLt; omega
  rw [BitVec.extractLsb'_toNat, BitVec.toNat_mul, hA, hB, Nat.shiftRight_eq_div_pow, Nat.mod_eq_of_lt (by omega : _ < 2 ^ 128),
    Nat.mod_eq_of_lt (by omega)]

theorem not64_toNat (B : Word) : 2 ^ 64 - 1 - B.toNat = (~~~B).toNat := by
  rw [BitVec.toNat_not]

theorem shl64_toNat (A : Word) (n : Nat) : A.toNat * 2 ^ n % 2 ^ 64 = (A <<< n).toNat := by
  rw [BitVec.toNat_shiftLeft, Nat.shiftLeft_eq]

theorem shr64_toNat (A : Word) (n : Nat) : A.toNat / 2 ^ n = (A >>> n).toNat := by
  rw [BitVec.toNat_ushiftRight, Nat.shiftRight_eq_div_pow]

theorem sar64_toNat (A : Word) (n : Nat) : wrapN 64 (sextN 64 A.toNat / 2 ^ n) = (A.sshiftRight n).toNat := by
  rw [sextN_toNat, ← wrapN_toInt (A.sshiftRight n), BitVec.toInt_sshiftRight, Int.shiftRight_eq_div_pow]
  simp

/-- The two parts of a rotated word share no bit, so their sum is their union. -/
theorem rotl64_toNat (A : Word) (r : Nat) : rotl64 A.toNat r = (A.rotateLeft (r % 64)).toNat := by
  have hr : r % 64 < 64 := Nat.mod_lt _ (by decide)
  rw [rotl64]
  generalize r % 64 = k at hr
  have hlow : A.toNat / 2 ^ (64 - k) < 2 ^ k := by
    rw [Nat.div_lt_iff_lt_mul (Nat.two_pow_pos _), ← Nat.pow_add, Nat.add_sub_cancel' hr.le]
    exact A.isLt
  have hhigh : A.toNat * 2 ^ k % 2 ^ 64 = (A.toNat % 2 ^ (64 - k)) <<< k := by
    rw [Nat.shiftLeft_eq, ← Nat.mul_mod_mul_right, ← Nat.pow_add, Nat.sub_add_cancel hr.le]
  rw [BitVec.toNat_rotateLeft, Nat.mod_eq_of_lt hr, Nat.shiftLeft_eq, Nat.shiftRight_eq_div_pow, hhigh,
    ← Nat.shiftLeft_add_eq_or_of_lt hlow]

/-! ## Counts of bits and comparisons -/

theorem clzN_of_lt {n x : Nat} (hx : x < 2 ^ n) : clzN n x = if x = 0 then n else n - 1 - Nat.log2 x := by
  induction n with
  | zero => simp [clzN, show x = 0 by simpa using hx]
  | succ n ih =>
    rw [clzN, bitAt_testBit]
    rcases Nat.lt_or_ge x (2 ^ n) with hlow | hhigh
    · rw [Nat.testBit_lt_two_pow hlow, if_neg Bool.false_ne_true, ih hlow]
      split
      · omega
      · next h0 =>
        have := (Nat.log2_lt h0).mpr hlow
        omega
    · have hbit : x.testBit n = true := Nat.testBit_of_two_pow_le_and_two_pow_add_one_gt hhigh hx
      have h0 : x ≠ 0 := by have := Nat.two_pow_pos n; omega
      have hlog : Nat.log2 x = n := (Nat.log2_eq_iff h0).mpr ⟨hhigh, hx⟩
      rw [if_pos hbit, if_neg h0, hlog]
      omega

theorem popCount_eq_countP (n x : Nat) : popCount n x = (List.range n).countP (fun i => x.testBit i) := by
  induction n generalizing x with
  | zero => rfl
  | succ n ih =>
    rw [popCount, ih, List.range_succ_eq_map, List.countP_cons, List.countP_map, Nat.add_comm]
    congr 1
    · refine List.countP_congr fun i _ => ?_
      simp [Nat.testBit_succ]
    · rcases Nat.mod_two_eq_zero_or_one x with h | h <;> simp [Nat.testBit_zero, h]

theorem countP_range_le (n : Nat) (p : Nat → Bool) : (List.range n).countP p ≤ n := by
  simpa using List.countP_le_length (p := p) (l := List.range n)

theorem clz64_toNat (A : Word) :
    clzN 64 A.toNat = (BitVec.ofNat 64 (if A = 0 then 64 else 63 - Nat.log2 A.toNat)).toNat := by
  have h0 : A.toNat = 0 ↔ A = 0 := by rw [← BitVec.toNat_inj]; rfl
  rw [clzN_of_lt A.isLt, BitVec.toNat_ofNat]
  simp only [h0]
  split <;> omega

theorem popc64_toNat (A : Word) :
    popCount 64 A.toNat = (BitVec.ofNat 64 ((List.range 64).countP (fun i => A.getLsbD i))).toNat := by
  have hle := countP_range_le 64 (fun i => A.getLsbD i)
  rw [popCount_eq_countP, BitVec.toNat_ofNat, Nat.mod_eq_of_lt (by omega)]
  rfl

/-- The conditions of R48 on words, as the comparisons of R104 state them. -/
theorem intCmp_toNat (A B : Word) (cc : Nat) :
    cc < 6 → intCmp cc A.toNat B.toNat = (match cc with
      | 0 => decide (A = B)
      | 1 => decide (A ≠ B)
      | 2 => A.slt B
      | 3 => A.sle B
      | 4 => decide (A < B)
      | _ => decide (A ≤ B)) := by
  intro hcc
  interval_cases cc
  · simp [intCmp, Bool.beq_eq_decide_eq, BitVec.toNat_inj]
  · simp [intCmp, bne, Bool.beq_eq_decide_eq, BitVec.toNat_inj]
  · simp [intCmp, sextN_toNat, BitVec.slt]
  · simp [intCmp, sextN_toNat, BitVec.sle]
  · simp [intCmp, BitVec.lt_def]
  · simp [intCmp, BitVec.le_def]

/-! ## The statements -/

/-- Settles O11: each form's number is that of the word the statement names. -/
theorem integerArithmeticResults : Obligations.IntegerArithmeticResults := by
  unfold Obligations.IntegerArithmeticResults
  intro s u g x d a b h
  have form (f : Nat → Nat → Nat) {v : Word} (hv : f (intReg s u x a).toNat (intReg s u x b).toNat = v.toNat) :
      intForm2 s g x d a b f = .next (intResult s u x d v) :=
    intForm_of_acts x d h (by rw [← intReg_toNat, ← intReg_toNat, hv])
  refine ⟨form addr64 (addr64_toNat ..), form (fun p q => (p + 2 ^ 64 - q) % 2 ^ 64) (sub64_toNat ..),
    form (fun p q => p * q % 2 ^ 64) (BitVec.toNat_mul ..).symm,
    form (fun p q => wrapN 128 (sextN 64 p * sextN 64 q) / 2 ^ 64) (mulHighSigned_toNat ..),
    form (fun p q => p * q / 2 ^ 64) (mulHigh_toNat ..),
    form (fun p q => p &&& q) (BitVec.toNat_and ..).symm, form (fun p q => p ||| q) (BitVec.toNat_or ..).symm,
    form (fun p q => p ^^^ q) (BitVec.toNat_xor ..).symm, form (fun p q => p &&& (2 ^ 64 - 1 - q)) ?_,
    form (fun p q => p * 2 ^ (q % 64) % 2 ^ 64) (shl64_toNat ..), form (fun p q => p / 2 ^ (q % 64)) (shr64_toNat ..),
    form (fun p q => wrapN 64 (sextN 64 p / 2 ^ (q % 64))) (sar64_toNat ..), form rotl64 (rotl64_toNat ..),
    form (fun p q => if sextN 64 q < sextN 64 p then q else p) ?_, form (fun p q => if sextN 64 p < sextN 64 q then q else p) ?_,
    form min ?_, form max ?_⟩
  · rw [not64_toNat, BitVec.toNat_and]
  · simp only [sextN_toNat, BitVec.slt_eq_decide, decide_eq_true_eq, apply_ite BitVec.toNat]
  · simp only [sextN_toNat, BitVec.slt_eq_decide, decide_eq_true_eq, apply_ite BitVec.toNat]
  · simp only [apply_ite BitVec.toNat, BitVec.lt_def, min_def]
    split <;> split <;> omega
  · simp only [apply_ite BitVec.toNat, BitVec.lt_def, max_def]
    split <;> split <;> omega

/-- Settles O12: the counts of bits, the immediates and the six conditions of R48. -/
theorem integerUnaryAndCompareResults : Obligations.IntegerUnaryAndCompareResults := by
  unfold Obligations.IntegerUnaryAndCompareResults
  refine ⟨?_, ?_⟩
  · intro s u g x d a c imm h
    refine ⟨intForm_of_acts x d h ?_, intForm_of_acts x d h rfl, intForm_of_acts x d h ?_, intForm_of_acts x d h ?_,
      fun q => intForm_of_acts x d h ?_⟩
    · rw [← intReg_toNat, addr64_toNat]
    · rw [← intReg_toNat, clz64_toNat]
    · rw [← intReg_toNat, popc64_toNat]
    · rw [← intReg_toNat, ← intReg_toNat, apply_ite BitVec.toNat]
  · intro s u g x d a b cc h A B hcc
    have hcmp := intCmp_toNat A B _ hcc
    rw [intReg_toNat, intReg_toNat] at hcmp
    exact (simple_of_acts _ h).trans (congrArg (fun z => Host.Outcome.next (s.result u x.slot.pos 1 .q (d.toNat % 8) (b2n z))) hcmp)

theorem kForm_of_acts {s : State} {u : Issue} {g : Guard} (lat : Nat) (f : KFile) (d : R11) (k : Issue → Nat) (h : Acts s u g) :
    kForm s g lat f d k = .next (s.result u 10 lat f.file d.toNat (k u)) := simple_of_acts _ h

/-- The element a selector names, as an element number and its width (R114). -/
theorem kElem_eq (sel : Nat) : kElem sel = if bitAt sel 6 then (64 * (sel / 2 % 32), 64) else (32 * (sel % 64), 32) := by
  rw [kElem]
  split
  · congr 1; omega
  · congr 1; omega

/-- Settles O13: the selected elements are lanes of the register's number. -/
theorem copiesBetweenFiles : Obligations.CopiesBetweenFiles := by
  unfold Obligations.CopiesBetweenFiles
  intro s u g df sf d a b h
  refine ⟨kForm_of_acts 2 df d _ h, kForm_of_acts 3 df d _ h, ?_, ⟨_, kForm_of_acts 3 df d _ h, ?_, ?_⟩,
    ⟨_, kForm_of_acts 3 df d _ h, fun l hl => mkVec_lane 32 _ hl⟩⟩
  · refine (kForm_of_acts 3 df d _ h).trans ?_
    simp only [State.kRead, kElem_eq]
    split <;> rfl
  · intro hsel l _
    simp only [State.kRead, kElem_eq, hsel, Bool.false_eq_true, if_false, setField_lane]
  · intro hsel e _
    simp only [State.kRead, kElem_eq, hsel, if_true, setField_lane]

end Sys2Proof.Machine
end

section
/-! What the floating-point operations give for special operands (R64, R65), and rounding: a representable value rounds to itself,
and the choice of each rounding mode (R53, R54, R61). -/

namespace Sys2Proof.Machine
set_option Elab.async false

open Sys2Proof

/-! ## NaN operands -/

theorem sumVal_of_nan (rm : RM) {ts : List FVal} (h : .nan ∈ ts) : sumVal rm ts = ⟨.nan, 0⟩ := by
  have hany : ts.any FVal.isNan = true := List.any_eq_true.mpr ⟨.nan, h, rfl⟩
  simp [sumVal, hany]

theorem mulVal_of_nan {x y : FVal} (h : x = .nan ∨ y = .nan) : mulVal x y = ⟨.nan, 0⟩ := by
  rcases h with rfl | rfl
  · rfl
  · cases x <;> rfl

theorem divVal_of_nan {x y : FVal} (h : x = .nan ∨ y = .nan) : divVal x y = ⟨.nan, 0⟩ := by
  rcases h with rfl | rfl
  · rfl
  · cases x <;> rfl

theorem FVal.neg_eq_nan {x : FVal} (h : x = .nan) : x.neg = .nan := by rw [h]; rfl

/-- The canonical NaN is what a NaN rounds to, and rounding it raises no flag of its own. -/
theorem finish_nan (f : FFmt) (rm : RM) (z : Bool) (fl : Nat) : finish f rm z ⟨.nan, fl⟩ = ⟨f.nan, fl⟩ := by
  simp [finish, roundVal]

theorem fAdd_of_nan (f : FFmt) (rm : RM) (z : Bool) {a b : Nat} (h : unpack f z a = .nan ∨ unpack f z b = .nan) :
    fAdd f rm z a b = ⟨f.nan, 0⟩ := by
  rw [fAdd, sumVal_of_nan rm, finish_nan]
  rcases h with h | h <;> simp [h]

theorem fSub_of_nan (f : FFmt) (rm : RM) (z : Bool) {a b : Nat} (h : unpack f z a = .nan ∨ unpack f z b = .nan) :
    fSub f rm z a b = ⟨f.nan, 0⟩ := by
  rw [fSub, sumVal_of_nan rm, finish_nan]
  rcases h with h | h
  · simp [h]
  · simp [FVal.neg_eq_nan h]

theorem fMul_of_nan (f : FFmt) (rm : RM) (z : Bool) {a b : Nat} (h : unpack f z a = .nan ∨ unpack f z b = .nan) :
    fMul f rm z a b = ⟨f.nan, 0⟩ := by
  rw [fMul, mulVal_of_nan h, finish_nan]

theorem fDiv_of_nan (f : FFmt) (rm : RM) (z : Bool) {a b : Nat} (h : unpack f z a = .nan ∨ unpack f z b = .nan) :
    fDiv f rm z a b = ⟨f.nan, 0⟩ := by
  rw [fDiv, divVal_of_nan h, finish_nan]

theorem fCmp_of_nan (f : FFmt) (z : Bool) (cc : Nat) {a b : Nat} (h : unpack f z a = .nan ∨ unpack f z b = .nan) :
    fCmp f z cc a b = (cc == 1 || cc == 4) := cmpVal_of_nan cc h

theorem fFma_bits_of_nan (f : FFmt) (rm : RM) (z sub : Bool) {a b c : Nat}
    (h : unpack f z a = .nan ∨ unpack f z b = .nan ∨ unpack f z c = .nan) : (fFma f rm z sub a b c).bits = f.nan := by
  have hmem : FVal.nan ∈ (if sub then (unpack f z c).neg else unpack f z c) ::
      [mulVal (unpack f z a) (unpack f z b)].map FExact.val := by
    rcases h with h | h | h
    · simp [mulVal_of_nan (.inl h)]
    · simp [mulVal_of_nan (.inr h)]
    · cases sub <;> simp [h, FVal.neg_eq_nan]
  rw [fFma, fused, sumVal_of_nan rm hmem, finish_nan]

/-- The sum of a value and its negative: no step remains. -/
theorem sumAt_opposite (lo : Int) (a : Bool) (m : Nat) (e : Int) : sumAt lo [.fin a m e, .fin (!a) m e] = 0 := by
  cases a <;> simp [sumAt]

theorem sumVal_opposite (rm : RM) (a : Bool) {m : Nat} (hm : 0 < m) (e : Int) :
    sumVal rm [.fin a m e, .fin (!a) m e] = ⟨.fin (rm == .rd) 0 0, 0⟩ := by
  rw [sumVal_of_zero_sum rm (lo := e) (by simp) (sumAt_opposite e a m e)]
  have : (m == 0) = false := by simpa using hm.ne'
  simp [FVal.isNegZero, this]

theorem sumVal_negZeros (rm : RM) (e k : Int) : sumVal rm [.fin true 0 e, .fin true 0 k] = ⟨.fin true 0 0, 0⟩ := by
  rw [sumVal_of_zero_sum rm (lo := min e k) (by simp) (by simp [sumAt])]
  simp [FVal.isNegZero]

theorem sumVal_opposite_infs (rm : RM) (a : Bool) : sumVal rm [.inf a, .inf (!a)] = ⟨.nan, flNV⟩ := by
  cases a <;> rfl

/-- Settles O15: a NaN first, then each invalid pair of operands by its case of the exact operation. -/
theorem nanAndInvalidOperands : Obligations.NanAndInvalidOperands := by
  unfold Obligations.NanAndInvalidOperands
  refine ⟨?_, ?_⟩
  · intro t rm z a b c
    refine ⟨fun h => ⟨fAdd_of_nan _ rm z h, fSub_of_nan _ rm z h, fMul_of_nan _ rm z h, fDiv_of_nan _ rm z h,
      fCmp_of_nan _ z 0 h, fCmp_of_nan _ z 1 h, fCmp_of_nan _ z 2 h, fCmp_of_nan _ z 3 h⟩, fun h => ?_, fun _ h => ?_,
      fun h => ⟨fFma_bits_of_nan _ rm z false h, fFma_bits_of_nan _ rm z true h⟩⟩
    · simp only [fSqrt, fRsq, fMinMax, h, sqrtVal, rsqVal, finish_nan, minMaxVal_nan_left, and_self]
    · simp only [fMinMax, h, minMaxVal_nan_right, and_self]
  · intro m n e k a b hm hn
    have hm0 : m ≠ 0 := hm.ne'
    exact ⟨rfl, rfl, fun rm => sumVal_opposite_infs rm a, rfl, rfl, by simp [divVal, hm0], by simp [sqrtVal, hm0], rfl, rfl,
      by simp [rsqVal, hm0], rfl, fun rm => sumVal_opposite rm a hm e, fun rm => sumVal_negZeros rm e k, by simp [mulVal]⟩

/-! ## Rounding -/

/-- A value that is a whole number of its format's steps, and not past the largest, rounds to itself. -/
theorem roundFin_of_step {f : FFmt} (rm : RM) (sat neg : Bool) {m : Nat} {e : Int}
    (hq : max ((Nat.log2 m : Int) + e - f.fw) f.qmin = e) (hle : e < f.qmax ∨ e = f.qmax ∧ m ≤ f.topMant) :
    roundFin f rm false sat neg m e =
      ⟨f.signBit neg + (if m < 2 ^ f.fw then 0 else (e - f.qmin).toNat * 2 ^ f.fw) + m, 0⟩ := by
  have hover : ¬ (f.qmax < e ∨ e = f.qmax ∧ f.topMant < m) := by omega
  have hn : (m * 2 ^ (-(e - e)).toNat) = m := by simp
  simp only [roundFin, hq, roundShift_of_nonpos rm neg m (show e - e ≤ 0 by omega), hn]
  simp only [Bool.or_eq_true, decide_eq_true_eq, Bool.and_eq_true, beq_iff_eq, if_neg hover, Bool.false_and,
    Bool.false_eq_true, if_false]
  split <;> simp

/-- The sign, the exponent field and the fraction make up an encoding. -/
theorem encoding_eq_fields (f : FFmt) {x : Nat} (hx : x < 2 ^ f.width) :
    f.signBit (bitAt x (f.ew + f.fw)) + field x f.fw f.ew * 2 ^ f.fw + field x 0 f.fw = x := by
  have hsign : b2n (bitAt x (f.ew + f.fw)) = x / 2 ^ (f.ew + f.fw) := by
    have hlt : x / 2 ^ (f.ew + f.fw) < 2 := by
      rw [Nat.div_lt_iff_lt_mul (Nat.two_pow_pos _), ← Nat.pow_succ']
      exact hx
    rw [bitAt]
    generalize x / 2 ^ (f.ew + f.fw) = top at hlt
    interval_cases top <;> rfl
  have hdiv : x / 2 ^ (f.ew + f.fw) = x / 2 ^ f.fw / 2 ^ f.ew := by rw [Nat.div_div_eq_div_mul, ← Nat.pow_add, Nat.add_comm]
  have hpow : 2 ^ (f.ew + f.fw) = 2 ^ f.ew * 2 ^ f.fw := Nat.pow_add ..
  simp only [FFmt.signBit, hsign, hdiv, field, Nat.pow_zero, Nat.div_one]
  rw [hpow]
  calc x / 2 ^ f.fw / 2 ^ f.ew * (2 ^ f.ew * 2 ^ f.fw) + x / 2 ^ f.fw % 2 ^ f.ew * 2 ^ f.fw + x % 2 ^ f.fw
      = (2 ^ f.ew * (x / 2 ^ f.fw / 2 ^ f.ew) + x / 2 ^ f.fw % 2 ^ f.ew) * 2 ^ f.fw + x % 2 ^ f.fw := by ring
    _ = x := by rw [Nat.div_add_mod, Nat.mul_comm, Nat.div_add_mod]

/-- What the five formats share: their finite values end at the largest one. -/
structure FFmt.Ordinary (f : FFmt) : Prop where
  fw_pos : 0 < f.fw
  ew_ge : 2 ≤ f.ew
  e4 : f.e4 = true → f = e4m3

theorem ordinary_of_mem {f : FFmt} (h : f ∈ [fp32, fp16, bf16, e4m3, e5m2]) : f.Ordinary := by
  simp only [List.mem_cons, List.not_mem_nil, or_false] at h
  rcases h with rfl | rfl | rfl | rfl | rfl <;> exact ⟨by decide, by decide, by decide⟩

/-- A subnormal's step is the least one. -/
theorem roundFin_subnormal {f : FFmt} (hf : f.Ordinary) (rm : RM) (sat neg : Bool) {m : Nat} (hm : m ≠ 0) (hlt : m < 2 ^ f.fw) :
    roundFin f rm false sat neg m f.qmin = ⟨f.signBit neg + m, 0⟩ := by
  have hlog : Nat.log2 m < f.fw := (Nat.log2_lt hm).mpr hlt
  have htop : m ≤ f.topMant := by
    have := Nat.two_pow_pos f.fw
    rw [FFmt.topMant, Nat.pow_succ]
    split <;> omega
  have hqmax : f.qmin = f.qmax ∨ f.qmin < f.qmax := by rw [FFmt.qmax]; omega
  rw [roundFin_of_step rm sat neg (by omega) (by omega), if_pos hlt, Nat.add_zero]

/-- A normal number: its significand has one bit more than the fraction, and its exponent field is below the topmost's end. -/
theorem roundFin_normal {f : FFmt} (rm : RM) (sat neg : Bool) {ex fr : Nat} (hex : 0 < ex) (hfr : fr < 2 ^ f.fw)
    (hle : ex < f.topExp ∨ ex = f.topExp ∧ 2 ^ f.fw + fr ≤ f.topMant) :
    roundFin f rm false sat neg (2 ^ f.fw + fr) (f.qmin + (ex - 1 : Nat)) = ⟨f.signBit neg + ex * 2 ^ f.fw + fr, 0⟩ := by
  have hpos := Nat.two_pow_pos f.fw
  have hlog : Nat.log2 (2 ^ f.fw + fr) = f.fw := (Nat.log2_eq_iff (by omega)).mpr ⟨by omega, by omega⟩
  rw [roundFin_of_step rm sat neg (by rw [hlog]; omega) (by rw [FFmt.qmax]; omega), if_neg (by omega)]
  have hstep : (f.qmin + ((ex - 1 : Nat) : Int) - f.qmin).toNat = ex - 1 := by omega
  obtain ⟨k, rfl⟩ : ∃ k, ex = k + 1 := ⟨ex - 1, by omega⟩
  rw [hstep, Nat.add_sub_cancel, Nat.add_mul]
  congr 1
  omega

/-- R53 and R54 in every mode: the value of an encoding that is not a NaN rounds to that encoding. -/
theorem roundVal_unpack {f : FFmt} (hf : f.Ordinary) (rm : RM) (sat : Bool) {x : Nat} (hx : x < 2 ^ f.width)
    (hnan : unpack f false x ≠ .nan) : roundVal f rm false sat (unpack f false x) = ⟨x, 0⟩ := by
  have henc := encoding_eq_fields f hx
  have hex : field x f.fw f.ew < 2 ^ f.ew := Nat.mod_lt _ (Nat.two_pow_pos _)
  have hfr : field x 0 f.fw < 2 ^ f.fw := Nat.mod_lt _ (Nat.two_pow_pos _)
  have hpow : 2 ^ (f.fw + 1) = 2 * 2 ^ f.fw := by rw [Nat.pow_succ, Nat.mul_comm]
  have hew : 2 ^ 2 ≤ 2 ^ f.ew := Nat.pow_le_pow_right (by decide) hf.ew_ge
  rw [unpack] at hnan ⊢
  generalize field x f.fw f.ew = ex at *
  generalize field x 0 f.fw = fr at *
  generalize bitAt x (f.ew + f.fw) = neg at *
  simp only [Bool.and_eq_true, beq_iff_eq, Bool.not_eq_true', Bool.false_and, Bool.false_eq_true, if_false] at hnan ⊢
  split at hnan
  · exact absurd rfl hnan
  next h15 =>
  rw [if_neg h15]
  split at hnan
  · next htop =>
    obtain ⟨he4, rfl⟩ := htop
    split at hnan
    · next hfr0 =>
      rw [if_pos ⟨he4, rfl⟩, if_pos hfr0]
      simp only [roundVal, he4, FFmt.inf, Bool.false_eq_true, if_false, FRes.mk.injEq, and_true]
      omega
    · exact absurd rfl hnan
  next htop =>
  rw [if_neg htop]
  split
  · next hex0 =>
    subst hex0
    rw [Nat.zero_mul, Nat.add_zero] at henc
    rw [roundVal]
    split
    · next h0 => rw [← henc, h0, Nat.add_zero]
    · next h0 => rw [roundFin_subnormal hf rm sat neg h0 hfr, henc]
  · next hex0 =>
    have hle : ex < f.topExp ∨ ex = f.topExp ∧ 2 ^ f.fw + fr ≤ f.topMant := by
      rw [FFmt.topExp, FFmt.topMant]
      cases he4 : f.e4
      · simp only [Bool.false_eq_true, if_false]
        have : ex ≠ 2 ^ f.ew - 1 := fun h => htop ⟨he4, h⟩
        omega
      · obtain rfl := hf.e4 he4
        have hlt : ex < 16 := hex
        have hfrLt : fr < 8 := hfr
        have hnot : ¬(ex = 15 ∧ fr = 7) := fun h => h15 ⟨⟨rfl, h.1⟩, h.2⟩
        show ex < 15 ∨ ex = 15 ∧ 8 + fr ≤ 14
        omega
    rw [roundVal, if_neg (by have := Nat.two_pow_pos f.fw; omega), roundFin_normal rm sat neg (by omega) hfr hle, henc]

theorem roundShift_pos (rm : RM) (neg : Bool) (m : Nat) {k : Nat} (hk : 0 < k) :
    roundShift rm neg m k =
      (m / 2 ^ k + b2n (roundsUp rm neg (m / 2 ^ k) (m % 2 ^ k) (2 ^ (k - 1))), m % 2 ^ k != 0) := by
  rw [roundShift, if_neg (by omega), Int.toNat_natCast]

theorem roundsUp_rne {neg : Bool} {quo rem half : Nat} :
    roundsUp .rne neg quo rem half = true ↔ half < rem ∨ (rem = half ∧ quo % 2 = 1) ∧ 0 < rem := by
  simp [roundsUp]

theorem roundsUp_ru {neg : Bool} {quo rem half : Nat} : roundsUp .ru neg quo rem half = true ↔ neg = false ∧ 0 < rem := by
  simp [roundsUp]

theorem roundsUp_rd {neg : Bool} {quo rem half : Nat} : roundsUp .rd neg quo rem half = true ↔ neg = true ∧ 0 < rem := by
  simp [roundsUp]

theorem rem_pos_of_roundsUp {rm : RM} {neg : Bool} {quo rem half : Nat} (h : roundsUp rm neg quo rem half = true) : 0 < rem := by
  cases rm
  case rne => rw [roundsUp_rne] at h; omega
  case rz => exact absurd h Bool.false_ne_true
  case ru => exact (roundsUp_ru.mp h).2
  case rd => exact (roundsUp_rd.mp h).2

/-- The multiple of the step chosen: one step more when rounded up. -/
theorem chosen_mul (quo step : Nat) (up : Bool) : (quo + b2n up) * step = quo * step + if up then step else 0 := by
  cases up <;> simp [b2n, Nat.add_mul]

/-- R61 on the quotient and the remainder of a step of 2 · half, mode by mode. -/
theorem roundsUp_spec (rm : RM) (neg : Bool) (quo rem half : Nat) (hrem : rem < 2 * half) :
    let r := quo + b2n (roundsUp rm neg quo rem half)
    let m := quo * (2 * half) + rem
    ((rem != 0) = true ↔ r * (2 * half) ≠ m) ∧
    (rm = .rz → r * (2 * half) ≤ m ∧ m < r * (2 * half) + 2 * half) ∧
    (rm = .ru → if neg then r * (2 * half) ≤ m ∧ m < r * (2 * half) + 2 * half
      else m ≤ r * (2 * half) ∧ r * (2 * half) < m + 2 * half) ∧
    (rm = .rd → if neg then m ≤ r * (2 * half) ∧ r * (2 * half) < m + 2 * half
      else r * (2 * half) ≤ m ∧ m < r * (2 * half) + 2 * half) ∧
    (rm = .rne → 2 * m ≤ 2 * (r * (2 * half)) + 2 * half ∧ 2 * (r * (2 * half)) ≤ 2 * m + 2 * half ∧
      (2 * m = 2 * (r * (2 * half)) + 2 * half ∨ 2 * m + 2 * half = 2 * (r * (2 * half)) → r % 2 = 0)) := by
  simp only [chosen_mul, bne_iff_ne]
  have hup := @rem_pos_of_roundsUp rm neg quo rem half
  refine ⟨?_, ?_, ?_, ?_, ?_⟩
  · split
    · next h => have := hup h; omega
    · omega
  · rintro rfl
    simp only [roundsUp, Bool.false_eq_true, if_false]
    omega
  · rintro rfl
    simp only [roundsUp_ru]
    cases neg
    · by_cases h : 0 < rem <;> simp [h] <;> omega
    · simp; omega
  · rintro rfl
    simp only [roundsUp_rd]
    cases neg
    · simp; omega
    · by_cases h : 0 < rem <;> simp [h] <;> omega
  · rintro rfl
    by_cases h : roundsUp .rne neg quo rem half = true
    · have hr := roundsUp_rne.mp h
      simp only [h, if_true, b2n]
      omega
    · have hr := mt roundsUp_rne.mpr h
      simp only [h, Bool.false_eq_true, if_false, b2n]
      omega

/-- Settles O16: the exact part is `roundVal_unpack`; the choice is `roundsUp_spec` at the step 2^k. -/
theorem roundingOfValues : Obligations.RoundingOfValues := by
  unfold Obligations.RoundingOfValues
  refine ⟨fun f hf rm sat x hx hnan => roundVal_unpack (ordinary_of_mem hf) rm sat hx hnan, fun rm neg m k => ?_⟩
  rcases Nat.eq_zero_or_pos k with rfl | hk
  · rw [roundShift_of_nonpos rm neg m (by simp)]
    simp
  · have hstep : 2 ^ k = 2 * 2 ^ (k - 1) := by rw [← Nat.pow_succ', Nat.succ_eq_add_one, Nat.sub_add_cancel hk]
    have hm : m / 2 ^ k * 2 ^ k + m % 2 ^ k = m := by rw [Nat.mul_comm, Nat.div_add_mod]
    have hspec := roundsUp_spec rm neg (m / 2 ^ k) (m % 2 ^ k) (2 ^ (k - 1)) (hstep ▸ Nat.mod_lt _ (Nat.two_pow_pos k))
    simp only [← hstep, hm] at hspec
    have hnext (r : Nat) : (r + 1) * 2 ^ k = r * 2 ^ k + 2 ^ k := by rw [Nat.add_mul, Nat.one_mul]
    have htwice (r : Nat) : 2 * r * 2 ^ k = 2 * (r * 2 ^ k) := Nat.mul_assoc ..
    simp only [roundShift_pos rm neg m hk, hnext, htwice]
    obtain ⟨hinexact, hrz, hru, hrd, hrne⟩ := hspec
    exact ⟨hinexact, hrz, hru, hrd, fun h => ⟨(hrne h).1, (hrne h).2.1, fun htie _ => (hrne h).2.2 htie⟩⟩

end Sys2Proof.Machine
end

section
/-! What the F, V and W forms give (R24, R33, R117 to R124, R127 to R140): the scalar forms, the typed vector forms, the integer
and rearranging forms lane by lane, what a source reads and captures, and VPOPQ. -/

namespace Sys2Proof.Machine
set_option Elab.async false

open Sys2Proof

/-! ## The scalar forms -/

theorem fForm_of_acts {s : State} {u : Issue} {g : Guard} (lat : Nat) (d : R11) (k : Issue → FRes) (h : Acts s u g) :
    fForm s g lat d k = .next (s.resultFp u 3 lat (some (s.dst u .fr d.toNat)) (k u).bits [(k u).fl]) := simple_of_acts _ h

theorem fForm1_of_acts {s : State} {u : Issue} {g : Guard} (t : FT) (lat : Nat) (d a : R11) (k : FFmt → Bool → Nat → FRes)
    (h : Acts s u g) :
    fForm1 s g t lat d a k = .next (s.resultFp u 3 lat (some (s.dst u .fr d.toNat))
      (k (ftFmt t) (s.ftz u) (s.frd u (ftWidth t) a)).bits [(k (ftFmt t) (s.ftz u) (s.frd u (ftWidth t) a)).fl]) :=
  fForm_of_acts lat d _ h

theorem fForm2_of_acts {s : State} {u : Issue} {g : Guard} (t : FT) (lat : Nat) (d a b : R11) (k : FFmt → Bool → Nat → Nat → FRes)
    (h : Acts s u g) :
    fForm2 s g t lat d a b k = .next (s.resultFp u 3 lat (some (s.dst u .fr d.toNat))
      (k (ftFmt t) (s.ftz u) (s.frd u (ftWidth t) a) (s.frd u (ftWidth t) b)).bits
      [(k (ftFmt t) (s.ftz u) (s.frd u (ftWidth t) a) (s.frd u (ftWidth t) b)).fl]) :=
  fForm_of_acts lat d _ h

theorem fPlain_of_acts {s : State} {u : Issue} {g : Guard} (lat : Nat) (f : File) (n : Nat) (k : Issue → Nat) (h : Acts s u g) :
    fPlain s g lat f n k = .next (s.resultFpu u 3 lat f n (k u)) := simple_of_acts _ h

/-- Settles O14: each form is the shared scalar form under a guard that holds. -/
theorem scalarFloatResults : Obligations.ScalarFloatResults := by
  unfold Obligations.ScalarFloatResults
  intro s u g t rm d a b c imm h
  simp only [exec]
  exact ⟨fForm2_of_acts t 4 d a b _ h, fForm2_of_acts t 4 d a b _ h, fForm2_of_acts t 4 d a b _ h, fForm_of_acts 4 d _ h,
    fForm2_of_acts t 14 d a b _ h, fForm1_of_acts t 14 d a _ h, fForm1_of_acts t 14 d a _ h, fForm2_of_acts t 4 d a b _ h,
    fForm2_of_acts t 4 d a b _ h, fForm1_of_acts t 2 d a _ h, fForm1_of_acts t 2 d a _ h, fun _ => fPlain_of_acts 4 .q _ _ h,
    fun _ => fPlain_of_acts 4 .q _ _ h, fPlain_of_acts 2 .fr _ _ h, fPlain_of_acts 1 .fr _ _ h, fPlain_of_acts 1 .fr _ _ h,
    fForm_of_acts 4 d _ h⟩

/-! ## Vector forms under a guard that holds -/

/-- The state once a V or W syllable has made its captures (R24). -/
theorem vecForm_of_acts {s : State} {u : Issue} {g : Guard} (x : VW) (src : List VSrc) (k : Issue → List Vec → State → State)
    (h : Acts s u g) :
    vecForm s g x src k = .next (k u (s.vsrcs u x 0 src) (s.captures u x 0 src (s.vsrcs u x 0 src))) := by
  simp [vecForm, onIssue_of _ h.1, h.2]

theorem vElem_of_acts {s : State} {u : Issue} {g : Guard} (x : VW) (t : FT) (lat : Nat) (d : R11) (src : List VSrc)
    (k : FFmt → Bool → Nat → Nat → Nat → FRes) (h : Acts s u g) :
    vElem s g x t lat d src k = .next ((s.captures u x 0 src (s.vsrcs u x 0 src)).resultVec u x lat d (ftWidth t)
      ((List.range (2048 / ftWidth t)).map (fun e => k (ftFmt t) (s.ftz u) (elem (src1 (s.vsrcs u x 0 src)) (ftWidth t) e)
        (elem (src2 (s.vsrcs u x 0 src)) (ftWidth t) e) (elem (src3 (s.vsrcs u x 0 src)) (ftWidth t) e)))) :=
  vecForm_of_acts x src _ h

theorem vApprox_of_acts {s : State} {u : Issue} {g : Guard} (x : VW) (t : FT) (form : Nat) (d : R11) (a : VSrc) (h : Acts s u g) :
    vApprox s g x t form d a = .next ((s.captures u x 0 [a] (s.vsrcs u x 0 [a])).resultVec u x 8 d (ftWidth t)
      ((List.range (2048 / ftWidth t)).map (fun e => approx form t (s.ftz u) (elem (s.vsrc u x 0 a) (ftWidth t) e)))) :=
  vElem_of_acts x t 8 d [a] (fun _ ftz p _ _ => approx form t ftz p) h

theorem vPlain_of_acts {s : State} {u : Issue} {g : Guard} (x : VW) (lat : Nat) (d : R11) (src : List VSrc) (k : List Vec → Nat)
    (h : Acts s u g) :
    vPlain s g x lat d src k = .next ((s.captures u x 0 src (s.vsrcs u x 0 src)).resultFpu u x.slot.pos lat (vwFile x) d.toNat
      (k (s.vsrcs u x 0 src))) :=
  vecForm_of_acts x src _ h

theorem vCmpPred_of_acts {s : State} {u : Issue} {g : Guard} (x : VW) (t : FT) (d : R11) (a b : VSrc) (cc : R11)
    (k : List Bool → Bool) (h : Acts s u g) :
    vCmpPred s g x t d a b cc k = .next ((s.captures u x 0 [a, b] (s.vsrcs u x 0 [a, b])).resultFpu u x.slot.pos 2 .q (d.toNat % 8)
      (b2n (k (vCmpList t (s.ftz u) cc.toNat (s.vsrc u x 0 a) (s.vsrc u x 1 b))))) :=
  vecForm_of_acts x [a, b] _ h

/-! ## The elements of a packed list -/

theorem packList_lt (w : Nat) (l : List Nat) : packList w l < 2 ^ (w * l.length) := by
  induction l with
  | nil => simp [packList]
  | cons v r ih =>
    have hpow : 2 ^ (w * (v :: r).length) = 2 ^ w * 2 ^ (w * r.length) := by
      rw [List.length_cons, Nat.mul_succ, Nat.pow_add, Nat.mul_comm]
    rw [packList, hpow]
    have hv : v % 2 ^ w < 2 ^ w := Nat.mod_lt _ (Nat.two_pow_pos w)
    calc v % 2 ^ w + 2 ^ w * packList w r < 2 ^ w + 2 ^ w * packList w r := Nat.add_lt_add_right hv _
      _ = 2 ^ w * (packList w r + 1) := by rw [Nat.mul_succ, Nat.add_comm]
      _ ≤ 2 ^ w * 2 ^ (w * r.length) := Nat.mul_le_mul_left _ ih

theorem packList_lane (w : Nat) (l : List Nat) {e : Nat} (he : e < l.length) :
    packList w l / 2 ^ (w * e) % 2 ^ w = l[e] % 2 ^ w := by
  induction l generalizing e with
  | nil => simp at he
  | cons v r ih =>
    cases e with
    | zero => simp [packList]
    | succ e =>
      have hpow : 2 ^ (w * (e + 1)) = 2 ^ w * 2 ^ (w * e) := by rw [Nat.mul_succ, Nat.pow_add, Nat.mul_comm]
      rw [packList, hpow, ← Nat.div_div_eq_div_mul, Nat.add_mul_div_left _ _ (Nat.two_pow_pos w),
        Nat.div_eq_of_lt (Nat.mod_lt _ (Nat.two_pow_pos w)), Nat.zero_add, ih (by simpa using he), List.getElem_cons_succ]

/-! ## What a vector form puts -/

/-- A form whose result is the vector of a function of its elements. -/
theorem vecPuts_mkVec {s : State} {u : Issue} {g : Guard} (x : VW) (lat : Nat) (d : R11) (src : List VSrc) (w : Nat)
    (k : List Vec → Nat → Nat) (f : Nat → Nat) (h : Acts s u g)
    (hf : ∀ e, e < 2048 / w → k (s.vsrcs u x 0 src) e % 2 ^ w = f e) :
    VecPuts s u x src lat d w f (vPlain s g x lat d src (fun vs => (mkVec w (k vs)).toNat)) :=
  ⟨_, BitVec.isLt _, vPlain_of_acts x lat d src _ h, fun e he => (mkVec_lane w _ he).trans (hf e he)⟩

theorem vecPuts_vInt {s : State} {u : Issue} {g : Guard} (x : VW) (w : IW) (d : R11) (a b : VSrc) (k : Nat → Nat → Nat → Nat)
    (f : Nat → Nat) (h : Acts s u g)
    (hf : ∀ e, k w.bits (elem (s.vsrc u x 0 a) w.bits e) (elem (s.vsrc u x 1 b) w.bits e) % 2 ^ w.bits = f e) :
    VecPuts s u x [a, b] 2 d w.bits f (vInt s g x w d a b k) :=
  vecPuts_mkVec x 2 d [a, b] w.bits _ f h fun e _ => hf e

theorem vecPuts_vBits {s : State} {u : Issue} {g : Guard} (x : VW) (d : R11) (a b : VSrc) (k : Vec → Vec → Vec) (f : Nat → Nat)
    (h : Acts s u g) (hf : ∀ e, elem (k (s.vsrc u x 0 a) (s.vsrc u x 1 b)) 32 e = f e) :
    VecPuts s u x [a, b] 2 d 32 f (vBits s g x d a b k) :=
  ⟨_, BitVec.isLt _, vPlain_of_acts x 2 d [a, b] _ h, fun e _ => hf e⟩

theorem laneOf_toNat (w : Nat) (x : Vec) (e : Nat) : (laneOf w x e).toNat = elem x w e := BitVec.toNat_ofNat ..

theorem elem_mod (x : Vec) (w e : Nat) : elem x w e % 2 ^ w = elem x w e := Nat.mod_mod ..

theorem elem_and (x y : Vec) (w e : Nat) : elem (x &&& y) w e = elem x w e &&& elem y w e := by
  simp only [elem, BitVec.toNat_and, Nat.and_div_two_pow, Nat.and_mod_two_pow]

theorem elem_or (x y : Vec) (w e : Nat) : elem (x ||| y) w e = elem x w e ||| elem y w e := by
  simp only [elem, BitVec.toNat_or, Nat.or_div_two_pow, Nat.or_mod_two_pow]

theorem elem_xor (x y : Vec) (w e : Nat) : elem (x ^^^ y) w e = elem x w e ^^^ elem y w e := by
  simp only [elem, BitVec.toNat_xor, Nat.xor_div_two_pow, Nat.xor_mod_two_pow]

theorem ftWidth_pos (t : FT) : 0 < ftWidth t := by cases t <;> decide

theorem ftWidth_mul_count (t : FT) : ftWidth t * (2048 / ftWidth t) = 2048 := by cases t <;> rfl

/-- VCMP puts all ones or zero into each element (R131). -/
theorem vecPuts_vcmp {s : State} {u : Issue} {g : Guard} (x : VW) (t : FT) (d : R11) (a b : VSrc) (o : R11) (h : Acts s u g) :
    VecPuts s u x [a, b] 2 d (ftWidth t)
      (fun e => if fCmp (ftFmt t) (s.ftz u) o.toNat (elem (s.vsrc u x 0 a) (ftWidth t) e) (elem (s.vsrc u x 1 b) (ftWidth t) e)
        then 2 ^ ftWidth t - 1 else 0) (execVcmp g x t d a b o s) := by
  refine ⟨_, ?_, vecForm_of_acts x [a, b] _ h, fun e he => ?_⟩
  · refine lt_of_lt_of_eq (packList_lt ..) ?_
    rw [vCmpList, List.length_map, List.length_map, List.length_range, ftWidth_mul_count]
  · rw [packList_lane _ _ (by simpa [vCmpList] using he)]
    have hlt : 2 ^ ftWidth t - 1 < 2 ^ ftWidth t := Nat.sub_lt (Nat.two_pow_pos _) Nat.one_pos
    simp only [vCmpList, List.map_map, List.getElem_map, List.getElem_range, Function.comp_apply]
    split
    · next hc => rw [Nat.mod_eq_of_lt hlt]; exact (if_pos hc).symm
    · next hc => rw [Nat.zero_mod]; exact (if_neg hc).symm

/-- Settles O17: the typed forms are `vElem` on the elements of their sources; the compares are `vCmpList`. -/
theorem vectorFloatResults : Obligations.VectorFloatResults := by
  unfold Obligations.VectorFloatResults
  intro s u g x t rm d p o a b c h
  simp only [exec]
  have elems (lat : Nat) (src : List VSrc) (k : FFmt → Bool → Nat → Nat → Nat → FRes) := vElem_of_acts x t lat d src k h
  have preds (k : List Bool → Bool) := vCmpPred_of_acts x t d a b o k h
  refine ⟨?_, ?_, ?_, ?_, ?_, ?_, ?_, ?_, ?_, ?_, ?_, ?_, ?_, ?_, ?_, ?_, ?_, ?_, vecPuts_vcmp x t d a b o h, ?_, ?_, ?_, ?_⟩
  · exact elems 4 [a, b] _
  · exact elems 4 [a, b] _
  · exact elems 4 [a, b] _
  · exact elems 4 [a, b] _
  · exact elems 5 [a, b, c] _
  · exact elems 5 [a, b, c] _
  · exact elems 5 [a, b, c] _
  · exact elems 5 [a, b, c] _
  · exact elems 2 [a, b] _
  · exact elems 2 [a, b] _
  · exact elems 2 [a] _
  · exact elems 2 [a] _
  · exact vApprox_of_acts x t 0 d a h
  · exact vApprox_of_acts x t 1 d a h
  · exact vApprox_of_acts x t 2 d a h
  · exact vApprox_of_acts x t 3 d a h
  · exact vecForm_of_acts x [a] _ h
  · exact vecForm_of_acts x [a] _ h
  · refine (preds (fun l => l.any id)).trans ?_
    rw [vCmpList, List.any_map]
    rfl
  · refine (preds (fun l => l.all id)).trans ?_
    rw [vCmpList, List.all_map]
    rfl
  · exact vecForm_of_acts x [a, b, c] _ h
  · exact vecForm_of_acts x [a] _ h

/-- Settles O18: each result is `mkVec` of the lane's function, or a bitwise form lane by lane. -/
theorem vectorIntegerResults : Obligations.VectorIntegerResults := by
  unfold Obligations.VectorIntegerResults
  intro s u g x w d n o a b c h
  simp only [exec]
  simp only [laneOf_toNat, ne_eq, ← BitVec.toNat_inj, BitVec.toNat_add, BitVec.toNat_mul, BitVec.toNat_and, BitVec.toNat_or,
    BitVec.toNat_xor, BitVec.toNat_shiftLeft, BitVec.toNat_ushiftRight, Nat.shiftLeft_eq, Nat.shiftRight_eq_div_pow]
  refine ⟨vecPuts_mkVec x 2 d [a, b, c] w.bits _ _ h fun e _ => ?_, vecPuts_mkVec x 3 d [a, b, c] 32 _ _ h fun e _ => ?_,
    vecPuts_mkVec x 3 d [a] w.bits _ _ h fun e _ => elem_mod .., fun hn => vecPuts_mkVec x 3 d [a] 32 _ _ h fun e _ => ?_,
    vecPuts_vInt x w d a b _ _ h fun e => rfl, vecPuts_vInt x w d a b _ _ h fun e => rfl,
    vecPuts_vBits x d a b _ _ h fun e => elem_and .., vecPuts_vBits x d a b _ _ h fun e => elem_or ..,
    vecPuts_vBits x d a b _ _ h fun e => elem_xor .., vecPuts_vInt x w d a b _ _ h fun e => rfl,
    vecPuts_vInt x w d a b _ _ h fun e => ?_, vecPuts_mkVec x 2 d [] 32 _ _ h fun e _ => rfl,
    vecForm_of_acts x [a] _ h, ?_, simple_of_acts _ h⟩
  · change (if elem (s.vsrc u x 2 c) w.bits e != 0 then elem (s.vsrc u x 0 a) w.bits e else elem (s.vsrc u x 1 b) w.bits e) %
      2 ^ w.bits = _
    by_cases hc : elem (s.vsrc u x 2 c) w.bits e = 0 <;> simp [hc, elem_mod]
  · change (if elem (s.vsrc u x 1 b) 32 e % 128 < 64 then elem (s.vsrc u x 0 a) 32 (elem (s.vsrc u x 1 b) 32 e % 128)
      else elem (s.vsrc u x 2 c) 32 (elem (s.vsrc u x 1 b) 32 e % 128 - 64)) % 2 ^ 32 = _
    split <;> exact elem_mod ..
  · rw [elem_mod, Nat.mod_eq_of_lt hn, Nat.add_sub_assoc hn.le]
    rfl
  · exact Nat.mod_eq_of_lt (lt_of_le_of_lt (Nat.div_le_self ..) (elem_lt ..))
  · refine (simple_of_acts _ h).trans ?_
    have hsext : sextN 11 o.toNat = (o.signExtend 16).toInt := by
      rw [sextN_toNat, BitVec.toInt_signExtend_of_le (by decide)]
    rw [wrapN_eq_toNat_ofInt, hsext, BitVec.ofInt_add, BitVec.ofInt_toInt, BitVec.toNat_add]
    rfl

/-! ## Sources and the index data queue -/

/-- What is done to a seat matters only at the seat as it stands. -/
theorem State.modSeat_congr {s : State} {c i : Nat} {f g : Seat → Seat} (h : f (s.seat c i) = g (s.seat c i)) :
    s.modSeat c i f = s.modSeat c i g := by
  rw [State.modSeat, State.modSeat, h]

/-- A VPOPQ that finds the queue empty and no push out takes QIMBAL (R140). -/
theorem popqPre_of_nothing {s : State} {u : Issue} (hq : (s.seat u.core u.seat).dataq = []) (hout : s.pushesOut u = 0) :
    s.popqPre u 1 = .trap ⟨0x06, 1, 0, 0, 0, false, 0⟩ := by
  simp [State.popqPre, hq, hout, trapRec, causeQimbal]

/-- A VPOPQ that finds the queue empty and a push out holds (R140). -/
theorem popqPre_of_pushes {s : State} {u : Issue} (hq : (s.seat u.core u.seat).dataq = []) (hout : 0 < s.pushesOut u) :
    s.popqPre u 1 = .hold := by
  simp [State.popqPre, hq, Nat.one_le_iff_ne_zero.mpr hout.ne']

/-- Settles O19: sources by mode, captures by mode, and the three cases of VPOPQ. -/
theorem vectorSourcesAndPops : Obligations.VectorSourcesAndPops := by
  unfold Obligations.VectorSourcesAndPops
  refine ⟨?_, ?_⟩
  · intro s u x k n ir io v st t _ hst
    refine ⟨rfl, rfl, rfl, ?_, fun g d a hu => ?_, rfl, rfl, rfl, rfl, ?_⟩
    · simp only [State.vsrc, Seat.indirect, Seat.alloc, State.rd]
      rw [hst]
      cases x <;> rfl
    · simp only [State.vsrc, hu]
      rfl
    · cases x <;> simp [State.capture, vwLatch]
  · intro s u g x d h q
    refine ⟨fun v r hq hp => ?_, fun hq hout hc => ?_, fun hq hout hc => ?_⟩
    · have hq' : (s.seat u.core u.seat).dataq = v :: r := hq
      refine (guarded_of_acts _ h hp).trans ?_
      rw [State.modSeat_congr (g := fun t => { t with dataq := r }) (by rw [hq']; rfl), hq']
      rfl
    · exact guarded_of_trap _ h hc (popqPre_of_nothing hq hout)
    · exact guarded_of_hold _ h hc (popqPre_of_pushes hq hout)

end Sys2Proof.Machine
end

section
/-! The memory forms (R105 to R111, R141, R142, R242 to R247): what goes under way, what traps at issue, what an access changes,
and what the integer atomics store. -/

namespace Sys2Proof.Machine
set_option Elab.async false

open Sys2Proof

/-! ## Forms whose checks pass -/

section
variable {s : State} {u : Issue} {g : Guard} (h : Acts s u g)
include h

theorem globalLoad_of_passes (n : Nat) (sx acq : Bool) (d : R11) (va : Issue → Nat)
    (hp : Passes u (s.globalPre u (va u) n (if acq then 1 else 0))) :
    globalLoad s g n sx acq d va = .next (s.pushGlobal u
      { blankAcc 1 (.load sx) false (va u) n with dst := some (s.dst u .i d.toNat), acq := acq } (if acq then 1 else 0)) :=
  guarded_of_acts _ h hp

theorem globalStore_of_passes (n : Nat) (rel sys : Bool) (d : R11) (va : Issue → Nat)
    (hp : Passes u (s.globalPre u (va u) n (if rel then 3 else 2))) :
    globalStore s g n rel sys d va = .next (s.pushGlobal u
      { blankAcc 1 .store false (va u) n with data := s.rd u .i d.toNat % 2 ^ (8 * n), rel := rel, sys := sys }
      (if rel then 3 else 2)) :=
  guarded_of_acts _ h hp

theorem poolLoad_of_passes (n : Nat) (sx acq : Bool) (d : R11) (off : Issue → Int) (hp : Passes u (s.poolPre u (off u) n n)) :
    poolLoad s g n sx acq d off = .next (s.pushPool u
      { blankAcc 2 (.load sx) true (off64 (off u)) n with dst := some (s.dst u .j d.toNat), acq := acq }
      [s.winPa u (off u).toNat] (poolLat u.core [s.winPa u (off u).toNat] 8 14)) :=
  guarded_of_acts _ h hp

theorem poolStore_of_passes (n : Nat) (rel sys : Bool) (d : R11) (off : Issue → Int) (hp : Passes u (s.poolPre u (off u) n n)) :
    poolStore s g n rel sys d off = .next (s.pushPool u
      { blankAcc 2 .store true (off64 (off u)) n with data := s.rd u .j d.toNat % 2 ^ (8 * n), rel := rel, sys := sys }
      [s.winPa u (off u).toNat] 1) :=
  guarded_of_acts _ h hp

theorem vLoad_of_passes (x : VW) (d : R11) (off stride : Issue → Int) (hp : Passes u (s.lanePre u (off u) (stride u))) :
    vLoad s g x d off stride = .next (s.pushLanes u
      { blankAcc x.slot.pos .vload true (off64 (off u)) 4 with dst := some (s.dst u (vwFile x) d.toNat) } (off u) (stride u)) :=
  guarded_of_acts _ h hp

theorem globalAtom_of_passes (op : AtOp) (n : Nat) (o : Ord) (d : Nat) (q : Option Nat) (a : R11) (v x : Issue → Nat)
    (hp : Passes u (s.atomPre u (s.rd u .i a.toNat) n)) :
    globalAtom s g op n o d q a v x = .next (s.pushAtom u { blankAcc 1 (.atom op) false (s.rd u .i a.toNat) n with
      data := v u % 2 ^ (8 * n), data2 := x u % 2 ^ (8 * n), dst := some (s.dst u .i d), dst2 := q.map (s.dst u .q)
      acq := o.acquires, rel := o.releases }) :=
  guarded_of_acts _ h hp

theorem poolAtom_of_passes (op : AtOp) (n : Nat) (o : Ord) (d : Nat) (q : Option Nat) (a : R11) (v x : Issue → Nat)
    (hp : Passes u (s.poolPre u (sextN 64 (s.rd u .j a.toNat)) n n)) :
    poolAtom s g op n o d q a v x = .next (s.pushPool u { blankAcc 2 (.atom op) true (off64 (sextN 64 (s.rd u .j a.toNat))) n with
      data := v u % 2 ^ (8 * n), data2 := x u % 2 ^ (8 * n), dst := some (s.dst u .j d), dst2 := q.map (s.dst u .q)
      acq := o.acquires, rel := o.releases } [s.winPa u (sextN 64 (s.rd u .j a.toNat)).toNat]
      (poolLat u.core [s.winPa u (sextN 64 (s.rd u .j a.toNat)).toNat] 10 16)) := by
  rw [← jOff_zero] at hp ⊢
  exact guarded_of_acts _ h hp

end

/-! ## A line asked for is seen by no seat -/

@[simp] theorem State.keyAfter_cores (s : State) (line : Nat) (l : Line) : (s.keyAfter line l).cores = s.cores := by
  unfold State.keyAfter
  split <;> rfl

@[simp] theorem State.writeBack_cores (s : State) (line : Nat) (l : Line) : (s.writeBack line l).cores = s.cores := by
  simp [State.writeBack]

@[simp] theorem State.makeRoom_cores (s : State) (d : Nat) : (s.makeRoom d).cores = s.cores := by
  unfold State.makeRoom State.takeFree
  simp only
  split
  · rfl
  · split
    · rfl
    · exact State.writeBack_cores ..

@[simp] theorem State.fillLine_cores (s : State) (pa : Nat) : (s.fillLine pa).cores = s.cores := by
  unfold State.fillLine
  split
  · split
    · rfl
    · exact State.makeRoom_cores ..
  all_goals rfl

theorem State.seat_of_cores {s t : State} (h : t.cores = s.cores) (c i : Nat) : t.seat c i = s.seat c i := by
  rw [State.seat, State.seat, State.core, State.core, h]

theorem State.prefetch_cores (s : State) (c ten lid va : Nat) : (s.prefetch c ten lid va).cores = s.cores := by
  unfold State.prefetch State.prefetchLine
  split
  · rfl
  split
  · split
    · exact State.fillLine_cores ..
    · rfl
  all_goals rfl

/-- Settles O20: the forms whose checks pass, and the frame of a prefetch. -/
theorem globalLoadsAndStores : Obligations.GlobalLoadsAndStores := by
  unfold Obligations.GlobalLoadsAndStores
  intro s u g z sx wr sc d a b imm h
  simp only [exec]
  exact ⟨fun hp => globalLoad_of_passes h _ sx false d (fun u => s.immVa u a imm) hp,
    fun hp => globalStore_of_passes h _ false true d (fun u => s.immVa u a imm) hp,
    fun hp => globalLoad_of_passes h _ false true d (fun u => s.sumVa u a b) hp,
    fun hp => globalStore_of_passes h _ true (sc == .sys) d (fun u => s.sumVa u a b) hp, simple_of_acts _ h,
    fun c i => State.seat_of_cores (State.prefetch_cores ..) c i⟩

/-- Settles O21: the four answers of a translation. -/
theorem globalAccessUnderWay : Obligations.GlobalAccessUnderWay := by
  unfold Obligations.GlobalAccessUnderWay
  intro s u a m x hx
  simp only [State.pushGlobal, State.who_of_strand hx]
  generalize (if u.passed = true then s.foresee u.core x.ten x.lid a.va (needOf m) else s.translate u.core x.ten x.lid a.va (needOf m)) =
    answer
  refine ⟨?_, ?_, ?_, ?_⟩
  · rintro pa key cons rfl
    rfl
  · rintro rfl
    rfl
  · rintro rfl
    rfl
  · rintro r rfl
    rfl

/-- A change of a core that leaves its seats alone. -/
theorem State.seat_modCore_of_seats {s : State} {c : Nat} {f : Core → Core} (h : (f (s.core c)).seats = (s.core c).seats) (c' i : Nat) :
    (s.modCore c f).seat c' i = s.seat c' i := by
  rw [State.seat, State.seat, State.core_modCore]
  split
  · next hc => rw [hc, h]
  · rfl

theorem State.seat_pushAcc (s : State) (u : Issue) (a : Acc) (c i : Nat) :
    (s.pushAcc u a).seat c i = if c = u.core ∧ i = u.seat then { s.seat u.core u.seat with
      accs := (s.seat u.core u.seat).accs ++ [{ a with id := (s.core u.core).nextId, seq := u.seq, bundle := u.pc }] }
      else s.seat c i := by
  simp only [State.pushAcc, State.seat_modSeat]
  rw [State.seat_modCore_of_seats (by rfl), State.seat_modCore_of_seats (by rfl)]

/-- Settles O22: both operations are changes of one seat. -/
theorem resultAndAccessFrames : Obligations.ResultAndAccessFrames := by
  unfold Obligations.ResultAndAccessFrames
  refine ⟨fun s u pos lat f n v => ?_, fun s u a => ?_⟩
  · refine ⟨rfl, rfl, rfl, rfl, rfl, rfl, fun c hc => ?_, fun i hi => ?_, fun fl => ?_, ?_, ?_, ?_⟩
    · simp [State.result, State.fly, State.core_modSeat, hc]
    · simp [State.result, State.fly, State.seat_modSeat, hi]
    · simp [State.result, State.fly, State.seat_modSeat]
    · simp [State.result, State.fly, State.core_modSeat]
    · simp [State.result, State.fly, State.core_modSeat]
    · simp [State.result, State.fly, State.core_modSeat]
  · refine ⟨?_, ?_, rfl, rfl, rfl, rfl, rfl, rfl, rfl, fun c hc => ?_, fun i hi => ?_, ?_, ?_, ?_⟩
    · simp [State.seat_pushAcc]
    · simp [State.pushAcc, State.core_modSeat, State.core_modCore]
    · simp [State.pushAcc, State.core_modSeat, State.core_modCore, hc]
    · simp [State.seat_pushAcc, hi]
    · simp [State.pushAcc, State.core_modSeat, State.core_modCore]
    · simp [State.pushAcc, State.core_modSeat, State.core_modCore]
    · simp [State.pushAcc, State.core_modSeat, State.core_modCore]

theorem State.laneOffs_pas (s : State) (u : Issue) (off stride : Int) :
    (laneOffs off stride).map (fun o => s.winPa u o.toNat) =
      (List.range 64).map (fun (l : Nat) => s.winPa u (off + (l : Int) * stride).toNat) := by
  rw [laneOffs, List.map_map]
  rfl

theorem vstore_of_passes {s : State} {u : Issue} {g : Guard} (h : Acts s u g) (x : VW) (s4 : Bool) (d a : R11) (imm : Imm)
    (hp : Passes u (s.lanePre u (s.vecOff u x s4 a imm) 4)) :
    execVstp g x s4 d a imm s = .next (s.pushPool u
      { blankAcc x.slot.pos .vstore true (off64 (s.vecOff u x s4 a imm)) 4 with data := s.rd u (vwFile x) d.toNat }
      ((laneOffs (s.vecOff u x s4 a imm) 4).map (fun o => s.winPa u o.toNat)) 1) :=
  guarded_of_acts _ h hp

theorem sqld_of_passes {s : State} {u : Issue} {g : Guard} (h : Acts s u g) (d a : R11) (imm : Imm)
    (hp : Passes u (s.sqldPre u d.toNat (s.jOff u a imm.value.toNat))) :
    execSqld g d a imm s = .next (s.pushPool u (blankAcc 2 .sqld true (off64 (s.jOff u a imm.value.toNat)) (2 * d.toNat))
      [s.winPa u (s.jOff u a imm.value.toNat).toNat] (poolLat u.core [s.winPa u (s.jOff u a imm.value.toNat).toNat] 8 14)) :=
  guarded_of_acts _ h hp

/-- Settles O23: each pool form is `pushPool` at its offset. -/
theorem poolLoadsAndStores : Obligations.PoolLoadsAndStores := by
  unfold Obligations.PoolLoadsAndStores
  intro s u g z sx s4 x sc d a b imm h
  simp only [exec, ← State.laneOffs_pas]
  exact ⟨fun hp => ⟨poolLoad_of_passes h _ sx false d (fun u => s.jOff u a imm.value.toNat) hp,
      poolStore_of_passes h _ false true d (fun u => s.jOff u a imm.value.toNat) hp⟩,
    fun hp => ⟨poolLoad_of_passes h _ false true d (fun u => s.jOff u a (s.rd u .j b.toNat)) hp,
      poolStore_of_passes h _ true (sc == .sys) d (fun u => s.jOff u a (s.rd u .j b.toNat)) hp⟩,
    fun hp => sqld_of_passes h d a imm hp,
    fun hp => ⟨vLoad_of_passes h x d (fun u => s.vecOff u x s4 a imm) (fun _ => 4) hp, vstore_of_passes h x s4 d a imm hp⟩,
    fun hp => vLoad_of_passes h x d (fun u => s.vecOff u x s4 a imm) (fun u => s.vecStride u x a) hp⟩

/-! ## Issue-time traps -/

/-- A form whose check is that of a global address takes the address traps. -/
theorem guarded_global_traps {s : State} {u : Issue} {g : Guard} {pre : Issue → Pre} (k : Issue → State → State) (h : Acts s u g)
    (hc : u.checked = false) {va n m : Nat} (hp : pre u = s.globalPre u va n m) :
    (2 ^ 56 ≤ va → guarded s g pre k = .next (s.preciseTrap u.core u.seat ⟨0x07, 0, va, 0, 0, false, 0⟩)) ∧
    (va < 2 ^ 56 → va % n ≠ 0 → guarded s g pre k = .next (s.preciseTrap u.core u.seat ⟨0x0F, 0, va, 0, 0, false, 0⟩)) :=
  ⟨fun hhigh => guarded_of_trap k h hc (hp.trans (globalPre_high s u n m hhigh)),
    fun hlow hal => guarded_of_trap k h hc (hp.trans (globalPre_unaligned s u m hlow hal))⟩

/-- A form whose check is that of a pool offset takes the offset traps. -/
theorem guarded_pool_traps {s : State} {u : Issue} {g : Guard} {pre : Issue → Pre} (k : Issue → State → State) (h : Acts s u g)
    (hc : u.checked = false) {off : Int} {n : Nat} (hp : pre u = s.poolPre u off n n) :
    (off < 0 ∨ (s.winSize u : Int) < off + n →
      guarded s g pre k = .next (s.preciseTrap u.core u.seat ⟨0x07, 1, off64 off, 0, 0, false, 0⟩)) ∧
    (0 ≤ off → off + n ≤ (s.winSize u : Int) → off.toNat % n ≠ 0 →
      guarded s g pre k = .next (s.preciseTrap u.core u.seat ⟨0x0F, 1, off64 off, 0, 0, false, 0⟩)) :=
  ⟨fun hout => guarded_of_trap k h hc (hp.trans (poolPre_outside s u n hout)),
    fun hlo hhi hal => guarded_of_trap k h hc (hp.trans (poolPre_unaligned s u hlo hhi hal))⟩

/-- Settles O24: every form's check is that of its address, and an atomic's too when no home holds 64 requests. -/
theorem addressTraps : Obligations.AddressTraps := by
  unfold Obligations.AddressTraps
  refine ⟨?_, ?_⟩
  · intro s u g z w f o sx sc d a b c imm h hc
    simp only [exec]
    refine ⟨guarded_global_traps _ h hc rfl, guarded_global_traps _ h hc rfl, guarded_global_traps _ h hc rfl,
      guarded_global_traps _ h hc rfl, fun hroom => ?_⟩
    have atom (n : Nat) := atomPre_eq s u (s.rd u .i a.toNat) n hroom
    refine ⟨guarded_global_traps _ h hc (atom _), guarded_global_traps _ h hc (atom _), guarded_global_traps _ h hc (atom _),
      guarded_global_traps _ h hc (atom _), guarded_global_traps _ h hc (atom _), guarded_global_traps _ h hc (atom _),
      guarded_global_traps _ h hc (atom _), guarded_global_traps _ h hc (atom _), guarded_global_traps _ h hc (atom _),
      guarded_global_traps _ h hc (atom _), ?_⟩
    cases f <;> exact guarded_global_traps _ h hc (atom _)
  · intro s u g z w f o sx sc d a b c imm h hc
    simp only [exec]
    have own (n : Nat) : s.poolPre u (s.jOff u a 0) n n = s.poolPre u (sextN 64 (s.rd u .j a.toNat)) n n := by rw [jOff_zero]
    refine ⟨guarded_pool_traps _ h hc rfl, guarded_pool_traps _ h hc rfl, guarded_pool_traps _ h hc rfl,
      guarded_pool_traps _ h hc rfl, guarded_pool_traps _ h hc (own _), guarded_pool_traps _ h hc (own _),
      guarded_pool_traps _ h hc (own _), guarded_pool_traps _ h hc (own _), guarded_pool_traps _ h hc (own _),
      guarded_pool_traps _ h hc (own _), guarded_pool_traps _ h hc (own _), ?_⟩
    cases f <;> exact guarded_pool_traps _ h hc (own _)

/-! ## Atomics -/

theorem ofNat_toNat_of_lt {w n : Nat} (hn : n < 2 ^ w) : (BitVec.ofNat w n).toNat = n := by
  rw [BitVec.toNat_ofNat, Nat.mod_eq_of_lt hn]

/-- The signed comparison of two numbers of w bits. -/
theorem sextN_lt_iff {w m v : Nat} (hm : m < 2 ^ w) (hv : v < 2 ^ w) :
    sextN w m < sextN w v ↔ (BitVec.ofNat w m).slt (BitVec.ofNat w v) = true := by
  have hm' := sextN_toNat (BitVec.ofNat w m)
  have hv' := sextN_toNat (BitVec.ofNat w v)
  rw [ofNat_toNat_of_lt hm] at hm'
  rw [ofNat_toNat_of_lt hv] at hv'
  rw [hm', hv', BitVec.slt_eq_decide, decide_eq_true_eq]

/-- Settles O25: the atomic forms, and each stored value on words of the width. -/
theorem atomicFormsAndValues : Obligations.AtomicFormsAndValues := by
  unfold Obligations.AtomicFormsAndValues
  refine ⟨?_, ?_⟩
  · intro s u g w f o d a b c h
    simp only [exec]
    refine ⟨fun hp => ?_, fun hp => ?_, fun hp => ?_, fun hp => ?_⟩
    · have atom (op : AtOp) (d : Nat) (q : Option Nat) (v x : Issue → Nat) := globalAtom_of_passes h op w.bytes o d q a v x hp
      exact ⟨atom .add _ _ _ _, atom .incw _ _ _ _, atom .addb _ _ _ _, atom .cas _ _ _ _, atom .xch _ _ _ _, atom .smin _ _ _ _,
        atom .smax _ _ _ _, atom .and _ _ _ _, atom .or _ _ _ _, atom .xor _ _ _ _⟩
    · cases f
      · exact globalAtom_of_passes h .faddF32 4 o _ none a _ _ hp
      · exact globalAtom_of_passes h .faddBf 2 o _ none a _ _ hp
    · have atom (op : AtOp) (d : Nat) (q : Option Nat) (v x : Issue → Nat) := poolAtom_of_passes h op w.bytes o d q a v x hp
      exact ⟨atom .add _ _ _ _, atom .incw _ _ _ _, atom .addb _ _ _ _, atom .cas _ _ _ _, atom .xch _ _ _ _, atom .smin _ _ _ _,
        atom .smax _ _ _ _⟩
    · cases f
      · exact poolAtom_of_passes h .faddF32 4 o _ none a _ _ hp
      · exact poolAtom_of_passes h .faddBf 2 o _ none a _ _ hp
  · intro w m v x hm hv _ _
    simp only [BitVec.toNat_add, BitVec.toNat_and, BitVec.toNat_or, BitVec.toNat_xor, ofNat_toNat_of_lt hm, ofNat_toNat_of_lt hv,
      ← sextN_lt_iff hm hv, ← sextN_lt_iff hv hm]
    refine ⟨rfl, rfl, ?_, rfl, rfl, rfl, rfl, rfl, rfl, rfl⟩
    simp only [atomNew, Bool.and_eq_true, decide_eq_true_eq]

end Sys2Proof.Machine
end

section
/-! The forms of the E slot (R196 to R202, R223, R302, R303, R367), control registers as they read and as a CSRWR changes them (R52,
R7), semaphores (R191, R195), and the board unit (R253 to R262). -/

namespace Sys2Proof.Machine
set_option Elab.async false

open Sys2Proof

/-! ## System forms -/

theorem eForm_of_acts {s : State} {u : Issue} {g : Guard} (lat : Nat) (d : R11) (k : Issue → Nat) (h : Acts s u g) :
    eForm s g lat d k = .next (s.result u 9 lat .e d.toNat (k u)) := simple_of_acts _ h

theorem flushRange_eq (base n : Nat) :
    flushRange base n = (if n = 0 then 0 else base, if n = 0 then 2 ^ 56 else (n + 65535) / 65536 * 65536) := by
  unfold flushRange cdiv
  split <;> rfl

theorem passes_flushPre {u : Issue} {base : Nat} (h : u.checked = true ∨ base < 2 ^ 56 ∧ base % 65536 = 0) :
    Passes u (flushPre base) := by
  rcases h with h | ⟨hlow, hal⟩
  · exact .inl h
  · refine .inr ?_
    rw [flushPre, if_neg (by omega), if_neg (by omega)]

theorem tlbinv_of_passes {s : State} {u : Issue} {g : Guard} (h : Acts s u g) (a b : R11)
    (hp : Passes u (flushPre (s.rd u .e a.toNat))) :
    execTlbinv g a b s = .next ((s.dropLocalTlb u.core (s.who u).1 (flushRange (s.rd u .e a.toNat) (s.rd u .e b.toNat)).1
      (flushRange (s.rd u .e a.toNat) (s.rd u .e b.toNat)).2).await u (.tlbinv
        (flushRange (s.rd u .e a.toNat) (s.rd u .e b.toNat)).1 (flushRange (s.rd u .e a.toNat) (s.rd u .e b.toNat)).2
        s.pkg.tueWidx.toNat)) :=
  guarded_of_acts _ h hp

theorem icflush_of_passes {s : State} {u : Issue} {g : Guard} (h : Acts s u g) (a b : R11)
    (hp : Passes u (flushPre (s.rd u .e a.toNat))) :
    execIcflush g a b s = .next (s.await u (.icflush (flushRange (s.rd u .e a.toNat) (s.rd u .e b.toNat)).1
      (flushRange (s.rd u .e a.toNat) (s.rd u .e b.toNat)).2 u.seq)) :=
  guarded_of_acts _ h hp

theorem csrrd_of_passes {s : State} {u : Issue} {g : Guard} (h : Acts s u g) (d : R11) (imm : Imm)
    (hp : csrOf imm ≠ 0x030 ∨ Passes u (s.fstatPre u)) :
    execCsrrd g d imm s = .next (s.result u 9 2 .e d.toNat (u.eval.getD (s.csr u.core u.seat (csrOf imm)))) := by
  refine guarded_of_acts _ h ?_
  rcases hp with hp | hp
  · exact .inr (if_neg hp)
  · split
    · exact hp
    · exact .inr rfl

/-- Settles O26: the register forms, CSRRD, CSRWR and the two range forms. -/
theorem systemForms : Obligations.SystemForms := by
  unfold Obligations.SystemForms
  intro s u g d a b imm h
  simp only [exec]
  refine ⟨eForm_of_acts 1 d _ h, eForm_of_acts 1 d _ h, eForm_of_acts 1 d _ h, csrrd_of_passes h d imm, simple_of_acts _ h,
    fun hp => ?_, fun hp => ?_⟩
  · rw [tlbinv_of_passes h a b (passes_flushPre hp), flushRange_eq]
    rfl
  · rw [icflush_of_passes h a b (passes_flushPre hp), flushRange_eq]
    rfl

/-- Settles O27: the table of the control registers, at each number. -/
theorem controlRegistersRead : Obligations.ControlRegistersRead := by
  unfold Obligations.ControlRegistersRead
  intro s c i
  refine ⟨rfl, rfl, rfl, ?_, rfl, ?_, rfl, rfl, rfl, rfl, rfl, rfl, rfl, rfl, rfl, rfl, rfl, rfl, rfl, rfl, rfl, rfl, rfl, rfl⟩
  · change s.svclvl + b2n s.svcFail * 4 = _
    cases s.svcFail <;> rfl
  · change (s.core c).gear + (s.die (c / 128)).gear * 2 ^ 8 +
      b2n (decide ((s.core c).gearSeen < (s.die (c / 128)).gears.length)) * 2 ^ 16 = _
    by_cases hg : (s.core c).gearSeen < (s.die (c / 128)).gears.length <;> simp [b2n, hg]

/-! ## Bits of a control register under a mask -/

theorem getLsbD_putBits (old v mask : Word) {j : Nat} (hj : j < 64) :
    (putBits old v mask).getLsbD j = if mask.getLsbD j then v.getLsbD j else old.getLsbD j := by
  simp only [putBits, BitVec.getLsbD_or, BitVec.getLsbD_and, BitVec.getLsbD_not, hj, decide_true, Bool.true_and]
  cases mask.getLsbD j <;> simp

theorem getLsbD_underExpert (t : Seat) (b : Nat) (mask : Word) (j : Nat) :
    (underExpert t b mask).getLsbD j = (t.expert b && mask.getLsbD j) := by
  unfold underExpert
  split
  · next h => simp [h]
  · next h => simp [h]

theorem Seat.expert_of_strand {t : Seat} {x : Strand} (h : t.strand = some x) (b : Nat) : t.expert b = x.expert.testBit b := by
  rw [Seat.expert, h]
  exact bitAt_testBit ..

/-- Bit j of each mask of a writable field. -/
theorem getLsbD_masks : ∀ j < 64,
    (1 : Word).getLsbD j = decide (j = 0) ∧ (2 : Word).getLsbD j = decide (j = 1) ∧ (4 : Word).getLsbD j = decide (j = 2) ∧
    (8 : Word).getLsbD j = decide (j = 3) ∧ (16 : Word).getLsbD j = decide (j = 4) ∧ (32 : Word).getLsbD j = decide (j = 5) ∧
    (3 : Word).getLsbD j = decide (j < 2) ∧ (7 : Word).getLsbD j = decide (j < 3) ∧ (31 : Word).getLsbD j = decide (j < 5) := by
  decide

theorem clearSrlost_getLsbD (old v : Word) {j : Nat} (hj : j < 3) :
    (clearSrlost old v).getLsbD j = (old.getLsbD j && !v.getLsbD j) := by
  have hj64 : j < 64 := by omega
  obtain ⟨-, -, -, -, -, -, -, hseven, -⟩ := getLsbD_masks j hj64
  have hbit : (old &&& ~~~(v &&& 7)).getLsbD j = (old.getLsbD j && !v.getLsbD j) := by
    simp only [BitVec.getLsbD_and, BitVec.getLsbD_not, hseven, hj, hj64, decide_true, Bool.and_true, Bool.true_and]
  unfold clearSrlost
  simp only
  split
  · next h0 =>
    have hzero : ((old &&& ~~~(v &&& 7)) &&& 7).getLsbD j = false := by rw [h0]; exact BitVec.getLsbD_zero
    rw [BitVec.getLsbD_and, hseven, hbit] at hzero
    simpa [hj] using hzero.symm
  · exact hbit

theorem clearFstat_getLsbD (t : Seat) (v : Word) {j : Nat} (hj : j < 64) :
    (t.clearFstat v).getLsbD j = ((t.mode.fstat.getLsbD j && !(decide (j < 5) && v.getLsbD j)) || t.nowFlags.testBit j) := by
  obtain ⟨-, -, -, -, -, -, -, -, hmask⟩ := getLsbD_masks j hj
  simp only [Seat.clearFstat, BitVec.getLsbD_or, BitVec.getLsbD_and, BitVec.getLsbD_not, hmask, hj, decide_true, Bool.true_and,
    BitVec.getLsbD_ofNat]
  rw [Bool.and_comm (v.getLsbD j)]

/-- Settles O28: each writable register is `putBits` under a mask whose bits are those of the enables. -/
theorem controlRegistersWritten : Obligations.ControlRegistersWritten := by
  unfold Obligations.ControlRegistersWritten
  intro t k v x hx
  have hexpert := Seat.expert_of_strand hx
  refine ⟨fun n hn => ?_, ⟨rfl, rfl, rfl, rfl, rfl⟩, fun n hn => ?_, fun n hn => ?_, ⟨_, rfl, fun j hj => ?_⟩,
    ⟨_, rfl, fun j hj => ?_⟩, ⟨_, rfl, fun j hj => ?_⟩, ⟨_, rfl, fun j hj => clearFstat_getLsbD t v hj⟩,
    ⟨_, rfl, fun j hj => clearSrlost_getLsbD _ v hj⟩⟩
  · simp only [List.mem_cons, List.not_mem_nil, or_false] at hn
    rcases hn with rfl | rfl | rfl | rfl | rfl | rfl | rfl | rfl | rfl | rfl | rfl | rfl | rfl | rfl | rfl | rfl <;>
      exact ⟨rfl, rfl⟩
  · simp only [List.mem_cons, List.not_mem_nil, or_false] at hn
    rcases hn with rfl | rfl | rfl | rfl | rfl <;> rfl
  · simp only [List.mem_cons, List.not_mem_nil, or_false] at hn
    rcases hn with rfl | rfl | rfl | rfl | rfl <;> rfl
  all_goals
    obtain ⟨h1, h2, h4, h8, h16, h32, h3, -, h31⟩ := getLsbD_masks j hj
    rw [getLsbD_putBits _ _ _ hj]
    congr 1
  · simp only [getLsbD_underExpert, hexpert, h3, Bool.and_eq_true, decide_eq_true_eq, and_comm]
  · simp only [fctlMask, BitVec.getLsbD_or, getLsbD_underExpert, hexpert, h32, h31, Bool.or_eq_true, Bool.and_eq_true,
      decide_eq_true_eq, and_comm]
  · simp only [modectlMask, BitVec.getLsbD_or, getLsbD_underExpert, hexpert, h1, h2, h4, h8, h16, Bool.or_eq_true,
      Bool.and_eq_true, decide_eq_true_eq, and_comm, or_assoc]

/-! ## Semaphores -/

theorem semVal_lt (k : Core) (n : Nat) : k.semVal n < 65536 := (tget k.sem 0 n).isLt

theorem semVal_setSem (k : Core) (n v j : Nat) : (k.setSem n v).semVal j = if j = n then v % 65536 else k.semVal j := by
  rw [Core.semVal, Core.setSem, tget_tset]
  split
  · exact BitVec.toNat_ofNat ..
  · rfl

theorem tryWait_eq_none_iff (k : Core) (n v : Nat) : k.tryWait n v = none ↔ k.semVal n < v := by
  unfold Core.tryWait
  split <;> simp <;> omega

theorem tryWait_eq_some {k k' : Core} {n v : Nat} (h : k.tryWait n v = some k') :
    k'.semVal n + v = k.semVal n ∧ ∀ j, j ≠ n → k'.semVal j = k.semVal j := by
  unfold Core.tryWait at h
  split at h
  · next hle =>
    obtain rfl := Option.some.inj h
    have hlt := semVal_lt k n
    refine ⟨?_, fun j hj => ?_⟩
    · rw [semVal_setSem, if_pos rfl, Nat.mod_eq_of_lt (by omega)]
      omega
    · rw [semVal_setSem, if_neg hj]
  · exact absurd h (by simp)

@[simp] theorem State.releaseSeat_cores (s : State) (c i : Nat) : (s.releaseSeat c i).cores = s.cores := by
  unfold State.releaseSeat
  split <;> rfl

theorem State.core_of_cores {s t : State} (h : t.cores = s.cores) (c : Nat) : t.core c = s.core c := by
  rw [State.core, State.core, h]

/-- The core's semaphores are not among what a change of a seat touches. -/
theorem State.sem_modSeat (s : State) (c i : Nat) (f : Seat → Seat) (c' : Nat) : ((s.modSeat c i f).core c').sem = (s.core c').sem := by
  rw [State.core_modSeat]
  split
  · next h => rw [h]
  · rfl

/-- The state in which a signal has been added, its old value not yet returned. -/
def State.semAdded (s : State) (c i n inc : Nat) : State :=
  (s.releaseSeat c i).modCore c (fun k => k.setSem n (min 65535 ((s.core c).semVal n + inc)))

theorem State.core_semAdded (s : State) (c i n inc : Nat) :
    (s.semAdded c i n inc).core c = (s.core c).setSem n (min 65535 ((s.core c).semVal n + inc)) := by
  rw [State.semAdded, State.core_modCore, if_pos rfl, State.core_of_cores (State.releaseSeat_cores s c i)]

theorem State.seat_semAdded (s : State) (c i n inc : Nat) : (s.semAdded c i n inc).seat c i = s.seat c i := by
  rw [State.semAdded, State.seat_modCore_of_seats (by rfl), State.seat_of_cores (State.releaseSeat_cores s c i)]

/-- A signal: the addition, the old value on its way, and SEMOVF where the sum passes 65,535. -/
theorem State.applySig_eq (s : State) (c i : Nat) (g : Sig) :
    s.applySig c i g =
      (let old := (s.core c).semVal g.sem
       let t := s.semAdded c i g.sem g.inc
       let t := match g.dst with
         | none => t
         | some r => t.modSeat c i (fun x => { x with
             flights := insertFlight ⟨(t.core c).now + 1, g.seq, 9, some r, old, 0, false, false⟩ x.flights })
       if 65535 < old + g.inc then t.deferTrap c i ⟨0x0C, g.sem, g.inc, g.bundle.toNat, old, true, g.seq⟩ else t) := by
  simp only [State.applySig, State.core_of_cores (State.releaseSeat_cores s c i)]
  rfl

theorem State.applySig_sem (s : State) (c i : Nat) (g : Sig) :
    ((s.applySig c i g).core c).sem = ((s.core c).setSem g.sem (min 65535 ((s.core c).semVal g.sem + g.inc))).sem := by
  rw [State.applySig_eq]
  simp only [State.deferTrap]
  split <;> cases g.dst <;> simp [State.sem_modSeat, State.core_semAdded]

theorem State.applySig_deferred (s : State) (c i : Nat) (g : Sig) :
    ((s.applySig c i g).seat c i).deferred = (s.seat c i).deferred ++
      (if 65535 < (s.core c).semVal g.sem + g.inc then
        [⟨0x0C, g.sem, g.inc, g.bundle.toNat, (s.core c).semVal g.sem, true, g.seq⟩] else []) := by
  rw [State.applySig_eq]
  simp only [State.deferTrap]
  split <;> cases g.dst <;> simp [State.seat_semAdded]

theorem tlrd_of_acts {s : State} {u : Issue} {g : Guard} (h : Acts s u g) (d b c : R11) (k : TLine → Nat) :
    tlrdForm s g d b c k = .next (s.resultVar u 9 2 .e d.toNat (u.eval.getD (k (s.eline (s.who u).1 (s.lineCore u c) b.toNat)))) :=
  simple_of_acts _ h

theorem fence_of_passes {s : State} {u : Issue} {g : Guard} (h : Acts s u g) (sc : Scope) (fk : FenceKind)
    (hp : Passes u (s.fencePre u sc fk)) :
    execFence g sc fk s = .next (if fenceReleases fk then s.releaseSeat u.core u.seat else s) := guarded_of_acts _ h hp

theorem launch_of_passes {s : State} {u : Issue} {g : Guard} (h : Acts s u g) (d a b : R11)
    (hp : Passes u (s.launchPre u (s.rd u .e a.toNat) b.toNat)) :
    execLaunch g d a b s = .next (s.pushGlobal u { blankAcc 9 .launch false (s.rd u .e a.toNat) 64 with
      data := b.toNat, dst := some (s.dst u .e d.toNat), rel := true, sys := false } 0) := guarded_of_acts _ h hp

theorem barr_of_passes {s : State} {u : Issue} {g : Guard} (h : Acts s u g) (d a : R11) (hp : Passes u (s.barrPre u a.toNat)) :
    execBarr g d a s = .next (s.await u (.barr d.toNat a.toNat 0 0 false)) := guarded_of_acts _ h hp

/-- The core a timeline operand names, written out as the specification's SEATID fields (R302). -/
theorem lineCore_eq (s : State) (u : Issue) (c : R11) :
    s.lineCore u c = if c.toNat < 1024 then u.core else
      128 * (u.core / 128) + 8 * (s.rd u .e (c.toNat % 32) / 2 ^ 12 % 16) + s.rd u .e (c.toNat % 32) / 2 ^ 8 % 8 := rfl

theorem cwait_of_acts {s : State} {u : Issue} {g : Guard} (h : Acts s u g) (a b c : R11) :
    execCwait g a b c s = .next (s.await u (.tl b.toNat (BitVec.ofNat 64 (s.rd u .e a.toNat))
      (if c.toNat < 1024 then none else some (clusterOf (s.lineCore u c), s.lineCore u c % 8)))) := simple_of_acts _ h

/-- Settles O29: the forms leave their wait or result, and a signal is `applySig_sem` and `applySig_deferred`. -/
theorem synchronisationFormsAndSemaphores : Obligations.SynchronisationFormsAndSemaphores := by
  unfold Obligations.SynchronisationFormsAndSemaphores
  refine ⟨?_, ?_⟩
  · intro s u g ret sc fk d a b c imm h
    simp only [exec]
    refine ⟨simple_of_acts _ h, simple_of_acts _ h, fun hp => ?_, simple_of_acts _ h, fun hp => launch_of_passes h d a b hp, ?_,
      ?_, ?_, simple_of_acts _ h, fun hp => barr_of_passes h d a hp⟩
    · rw [fence_of_passes h sc fk hp]
      cases fk <;> rfl
    · rw [cwait_of_acts h, lineCore_eq]
      by_cases hown : c.toNat < 1024
      · simp only [hown, if_true]
        rfl
      · simp only [hown, if_false]
        rfl
    · exact tlrd_of_acts h d b c (fun l => l.value % 2 ^ 64)
    · exact tlrd_of_acts h d b c (fun l => l.err.toNat)
  · intro s c i g k n v _
    have hsem (j : Nat) : ((s.applySig c i g).core c).semVal j =
        if j = g.sem then min 65535 ((s.core c).semVal g.sem + g.inc) else (s.core c).semVal j := by
      rw [Core.semVal, State.applySig_sem, ← Core.semVal, semVal_setSem, Nat.mod_eq_of_lt (by omega)]
    refine ⟨?_, fun j hj => ?_, fun hover => ?_, fun hfits => ?_, tryWait_eq_none_iff k n v, fun k' hk => tryWait_eq_some hk⟩
    · rw [hsem, if_pos rfl]
    · rw [hsem, if_neg hj]
    · rw [State.applySig_deferred, if_pos hover]
    · rw [State.applySig_deferred, if_neg (by omega), List.append_nil]

/-! ## Boards -/

theorem boardForm_of_reply {s : State} {u : Issue} {g : Guard} (k : Issue → State) (h : Acts s u g) {r : List Nat}
    (hr : u.reply = some r) : boardForm s g k = .next (k u) := by
  refine (simple_of_acts _ h).trans ?_
  rw [hr]
  rfl

theorem replyVal_of_reply {u : Issue} {r : List Nat} (hr : u.reply = some r) (k : Nat) : replyVal u k = r.getD k 0 := by
  rw [replyVal, hr]
  rfl

theorem bviewWord_of_enabled {s : State} {u : Issue} {g : Guard} (h : Acts s u g) (d a b : R11)
    (hp : u.checked = true ∨ (s.seat u.core u.seat).expert 6 = true) :
    execBviewWord g d a b s = .next (s.result u 9 1 .e d.toNat
      (field (s.rd u .vm (a.toNat % 8)) (64 * (s.rd u .e b.toNat % 32)) 64)) := by
  refine guarded_of_acts _ h ?_
  rcases hp with hp | hp
  · exact .inl hp
  · exact .inr (if_pos hp)

/-- A board the tenancy is bound to passes the first two tests. -/
theorem Board.apply_of_own {b : Board} {ten : Nat} (hen : b.en = true) (hten : b.ten = ten) (explicit : Bool) (kind : Nat)
    (handle part value : Word) :
    b.apply ten explicit kind handle part value =
      if (kind = 0 || kind = 2) && b.parts ≤ part.toNat then (b, refuseBoard 1 b.parts)
      else if kind = 0 then
        if explicit && handle.setWidth 32 != b.level then (b, ⟨0, [2 ^ 64 - 1, 0], b.parts, false⟩)
        else (b.post part.toNat value,
          ⟨0, [(b.post part.toNat value).order.length, (b.post part.toNat value).view], (b.post part.toNat value).parts, true⟩)
      else if kind = 1 then (b, ⟨0, [b.level.toNat * 2 ^ 32 + b.order.length, b.view], b.parts, false⟩)
      else if kind = 2 then (b, ⟨0, [((tfind b.slots part.toNat).getD 0).toNat,
        b.level.toNat + b2n (b.posted part.toNat) * 2 ^ 32], b.parts, false⟩)
      else if value.setWidth 32 == b.level then (b.advance, ⟨0, [b.level.toNat], b.parts, true⟩)
      else (b, ⟨0, [b.level.toNat], b.parts, false⟩) := by
  simp [Board.apply, hen, hten]

/-- Settles O30: the forms give the reply's values, and the unit's answers case by case. -/
theorem boardFormsAndUnit : Obligations.BoardFormsAndUnit := by
  unfold Obligations.BoardFormsAndUnit
  refine ⟨?_, ?_⟩
  · intro s u g d a b c r h
    simp only [exec]
    refine ⟨fun hr => ?_, fun hp => bviewWord_of_enabled h d a b hp⟩
    simp only [← replyVal_of_reply hr]
    exact ⟨boardForm_of_reply _ h hr, boardForm_of_reply _ h hr, boardForm_of_reply _ h hr, boardForm_of_reply _ h hr⟩
  · intro b ten kind explicit handle part value
    refine ⟨fun hen => ?_, fun hen hten => ?_, fun hen hten => ?_⟩
    · simp [Board.apply, hen, refuseBoard]
    · simp [Board.apply, hen, hten, refuseBoard]
    · simp only [Board.apply_of_own hen hten]
      refine ⟨fun hkind hpart => ?_, fun hpart => ?_, ?_, fun hlevel => ?_, fun hlevel => ?_⟩
      · rcases hkind with rfl | rfl <;> simp [hpart, refuseBoard]
      · have hin : ¬ b.parts ≤ part.toNat := by omega
        refine ⟨fun hexp hlevel => ?_, fun hlevel => ?_, ?_⟩
        · simp [hin, hexp, hlevel]
        · have hcurrent : (explicit && handle.setWidth 32 != b.level) = false := by
            rcases hlevel with hexp | hlevel
            · simp [hexp]
            · simp [hlevel]
          refine ⟨fun hslot => ?_, fun hslot => ?_⟩
          · simp [hin, hcurrent, Board.post, Board.posted, Board.view, hslot]
          · simp [hin, hcurrent, Board.post, Board.posted, Board.view, Option.isSome_iff_ne_none, hslot]
        · have hposted (p : Bool) : b2n p * 4294967296 = if p then 4294967296 else 0 := by cases p <;> rfl
          simp [hin, Board.posted, hposted]
      · simp
      · simp [hlevel, Board.advance]
      · simp [hlevel]

end Sys2Proof.Machine
end

section
/-! Streams and rings, the rows that enter and leave the array's banks, and its beats (R73, R74, R264 to R290). -/

namespace Sys2Proof.Machine
set_option Elab.async false

open Sys2Proof

/-! ## Streams and rings -/

theorem ringGeom_of_passes {s : State} {u : Issue} {g : Guard} (h : Acts s u g) (a b : R11)
    (hp : Passes u (s.ringPre u b.toNat (s.eword u a))) :
    execRingsetGeom g a b s = .next (s.modMx u (fun m => m.ringConfig b.toNat (s.eword u a))) := guarded_of_acts _ h hp

theorem ringAdvance_of_passes {s : State} {u : Issue} {g : Guard} (h : Acts s u g) (a b : R11)
    (hp : Passes u (s.ringAdvPre u b.toNat (field (s.rd u .e a.toNat) 0 9))) :
    execRingsetAdvance g a b s =
      .next (s.modMx u (fun m => m.setRing b.toNat ((m.ring b.toNat).advance (field (s.rd u .e a.toNat) 0 9)))) :=
  guarded_of_acts _ h hp

/-- A change of the matrix state depends only on that state. -/
theorem State.modMx_eq {s : State} {u : Issue} {f : Matrix → Matrix} {m : Matrix} (h : f (s.core u.core).mx = m) :
    s.modMx u f = s.modCore u.core (fun k => { k with mx := m }) := by
  rw [← h]
  rfl

/-- A tile abandoned is the same state without it. -/
theorem Matrix.abandon_eq (m : Matrix) (p : Nat → Bool) :
    m.abandon p = { m with tile := match m.tile with
      | none => none
      | some t => if p t.stream then none else some t } := by
  obtain ⟨a0, a1, h, fl, fa, fb, bank, scl, ops, streams, rings, scales, tile⟩ := m
  cases tile with
  | none => rfl
  | some t => by_cases hp : p t.stream = true <;> simp [Matrix.abandon, hp]

/-- Settles O31: each form changes the matrix state of the core by one operation. -/
theorem streamAndRingForms : Obligations.StreamAndRingForms := by
  unfold Obligations.StreamAndRingForms
  intro s u g d a b c h
  simp only [exec]
  refine ⟨fun hc => ?_, fun hc => ?_, simple_of_acts _ h, fun hp => ?_, fun hp => ?_, simple_of_acts _ h⟩
  · refine (simple_of_acts _ h).trans (congrArg _ (State.modMx_eq ?_))
    simp [Stream.setWord, streamMask, hc]
    rfl
  · refine (simple_of_acts _ h).trans (congrArg _ (State.modMx_eq ?_))
    simp only [hc, if_true, Matrix.abandon_eq, beq_iff_eq]
    rfl
  · have hp' : Passes u (s.ringPre u b.toNat (s.eword u a)) := hp
    refine (ringGeom_of_passes h a b hp').trans (congrArg _ (State.modMx_eq ?_))
    simp only [Matrix.ringConfig, Matrix.abandon_eq, beq_iff_eq]
    rfl
  · have hfield : field (s.rd u .e a.toNat) 0 9 = s.rd u .e a.toNat % 2 ^ 9 := by rw [field, Nat.pow_zero, Nat.div_one]
    rw [← hfield] at hp ⊢
    exact ringAdvance_of_passes h a b hp

/-! ## Rows in and out of the banks -/

theorem mcfg_of_passes {s : State} {u : Issue} {g : Guard} (h : Acts s u g) (b c : R11) (hp : Passes u (s.mcfgPre u)) :
    execMcfg g b c s = .next (s.modMx u (fun m => { m with
      fa := field b.toNat 0 4, fb := field b.toNat 4 4, bank := c.toNat % 2, scl := bitAt c.toNat 1, h := [], tile := none })) :=
  guarded_of_acts _ h hp

theorem mpush_of_passes {s : State} {u : Issue} {g : Guard} (h : Acts s u g) (d a b c : R11) (hp : Passes u (s.mpushPre u a c)) :
    execMpush g d a b c s = .next (
      if c.toNat = 2 then
        let m := (s.core u.core).mx
        let fmt := (m.stream a.toNat).fmt
        let p := s.pop u m a.toNat (pushBytes fmt)
        (s.actFirst u (s.scanPops u [(a.toNat, pushBytes fmt)]).2.1).bankOp u p.2 2 (bankOf d)
          (putRow b.toNat (pushRow fmt p.1) (shOf d) (p.2.latest (bankOf d))) 0 false
      else s.bankMod u (bankOf d) (putRow b.toNat (BitVec.ofNat 2048 (s.rd u (if c.toNat = 0 then .v else .w) a.toNat)) (shOf d))) :=
  guarded_of_acts _ h hp

theorem mdrain_of_passes {s : State} {u : Issue} (hu : s.iss = some u) (g : Guard) (d a : R11) (hp : Passes u (s.drainPre u d)) :
    execMdrain g d a s = .next (
      let s' := s.modMx u (fun m => { m with fl := tget (m.bankRows (bankOf d)) 0 a.toNat })
      if s.guard u g && (zOf d || shOf d) then s'.bankMod u (bankOf d) (fun t =>
        if shOf d then rotateBank (if zOf d then tset t 0 a.toNat 0 else t) else if zOf d then tset t 0 a.toNat 0 else t)
      else s') := by
  rw [execMdrain, onIssue_of _ hu, gate_of_passes _ hp]

theorem putRow_eq (row : Nat) (v : Vec) (d : R11) (t : Tab Vec) :
    putRow row v (shOf d) t = if d.toNat.testBit 1 then rotateBank (tset t 0 row v) else tset t 0 row v := by
  rw [putRow, shOf, bitAt_testBit]

/-- Settles O32: the forms are `bankMod`, `bankOp` and `modMx` on the bank of field d. -/
theorem matrixRowForms : Obligations.MatrixRowForms := by
  unfold Obligations.MatrixRowForms
  intro s u g d a b c hu
  simp only [exec]
  refine ⟨fun hg => ?_, fun hp => ⟨fun hg hzs => ?_, fun hoff => ?_⟩⟩
  · have h : Acts s u g := ⟨hu, hg⟩
    refine ⟨fun hp => ?_, simple_of_acts _ h, simple_of_acts _ h, fun hp => ⟨fun hc => ?_, fun hc => ?_, fun hc => ?_⟩⟩
    · refine (mcfg_of_passes h b c hp).trans (congrArg _ (State.modMx_eq ?_))
      simp only [field, Nat.pow_zero, Nat.div_one, bitAt_testBit]
      rfl
    · rw [mpush_of_passes h d a b c hp, hc]
      simp only [State.bankMod, putRow_eq]
      rfl
    · rw [mpush_of_passes h d a b c hp, hc]
      simp only [State.bankMod, putRow_eq]
      rfl
    · rw [mpush_of_passes h d a b c hp, if_pos hc]
      simp only [putRow_eq]
      rfl
  · have hcond : (s.guard u g && (zOf d || shOf d)) = true := by
      simp only [zOf, shOf, bitAt_testBit, hg, Bool.true_and, Bool.or_eq_true]
      exact hzs
    rw [mdrain_of_passes hu g d a hp]
    simp only [hcond, if_true]
    simp only [State.bankMod, State.mx_modMx, zOf, shOf, bitAt_testBit]
    rfl
  · have hcond : (s.guard u g && (zOf d || shOf d)) = false := by
      simp only [zOf, shOf, bitAt_testBit]
      rcases hoff with hg | ⟨hz, hsh⟩
      · rw [hg, Bool.false_and]
      · rw [hz, hsh, Bool.or_false, Bool.and_false]
    rw [mdrain_of_passes hu g d a hp]
    simp only [hcond, Bool.false_eq_true, if_false]
    rfl

/-! ## Beats -/

/-- Row i of a bank after its terms have been added (R73). -/
def accRow (t : Tab Vec) (terms : Nat → List (FVal × List FVal)) (i : Nat) : Vec :=
  rowOf ((((rowVals (tget t 0 i)).zipIdx).map (fun p =>
    maccSum (unpack fp32 false p.1) ((terms i).map (fun q => mulVal q.1 (q.2.getD p.2 (.fin false 0 0)))))).map FRes.bits)

/-- Row i of a bank after a shadow bank has been folded in (R74). -/
def foldRow (t h : Tab Vec) (sa sb : FVal) (i : Nat) : Vec :=
  rowOf ((((rowVals (tget t 0 i)).zip (rowVals (tget h 0 i))).map (fun p => scaleUpdate p.1 p.2 sa sb)).map FRes.bits)

theorem foldl_fst {α β γ : Type} {F : α × β → γ → α × β} {f : α → γ → α} (h : ∀ x i, (F x i).1 = f x.1 i) (l : List γ) (x : α × β) :
    (l.foldl F x).1 = l.foldl f x.1 := by
  induction l generalizing x with
  | nil => rfl
  | cons i r ih => rw [List.foldl_cons, List.foldl_cons, ih, h]

theorem accRows_fst (t : Tab Vec) (terms : Nat → List (FVal × List FVal)) :
    (accRows t terms).1 = (List.range 64).foldl (fun a i => tset a 0 i (accRow t terms i)) t := by
  unfold accRows
  refine foldl_fst (f := fun a i => tset a 0 i (accRow t terms i)) (fun x i => ?_) _ _
  simp only [accRow]

theorem foldRows_fst (t h : Tab Vec) (sa sb : FVal) :
    (foldRows t h sa sb).1 = (List.range 64).foldl (fun a i => tset a 0 i (foldRow t h sa sb i)) t := by
  unfold foldRows
  refine foldl_fst (f := fun a i => tset a 0 i (foldRow t h sa sb i)) (fun x i => ?_) _ _
  simp only [foldRow]

theorem tget_accRows (t : Tab Vec) (terms : Nat → List (FVal × List FVal)) {i : Nat} (hi : i < 64) :
    tget (accRows t terms).1 0 i = accRow t terms i := by
  rw [accRows_fst, tget_foldl_tset, if_pos (List.mem_range.mpr hi)]

theorem tget_foldRows (t h : Tab Vec) (sa sb : FVal) {i : Nat} (hi : i < 64) :
    tget (foldRows t h sa sb).1 0 i = foldRow t h sa sb i := by
  rw [foldRows_fst, tget_foldl_tset, if_pos (List.mem_range.mpr hi)]

theorem elem_rowOf {l : List Nat} (hl : l.length = 64) {j : Nat} (hj : j < l.length) : elem (rowOf l) 32 j = l[j] % 2 ^ 32 := by
  have hlt : packList 32 l < 2 ^ 2048 := by
    have := packList_lt 32 l
    rwa [hl] at this
  rw [elem, rowOf, BitVec.toNat_ofNat, Nat.mod_eq_of_lt hlt, packList_lane 32 l hj]

theorem rowVals_length (x : Vec) : (rowVals x).length = 64 := by simp [rowVals]

theorem elem_accRow (t : Tab Vec) (terms : Nat → List (FVal × List FVal)) (i : Nat) {j : Nat} (hj : j < 64) :
    elem (accRow t terms i) 32 j = (maccSum (unpack fp32 false (elem (tget t 0 i) 32 j))
      ((terms i).map (fun q => mulVal q.1 (q.2.getD j (.fin false 0 0))))).bits % 2 ^ 32 := by
  rw [accRow, elem_rowOf (by simp [rowVals_length]) (by simpa [rowVals_length] using hj)]
  simp [rowVals]

theorem elem_foldRow (t h : Tab Vec) (sa sb : FVal) (i : Nat) {j : Nat} (hj : j < 64) :
    elem (foldRow t h sa sb i) 32 j = (scaleUpdate (elem (tget t 0 i) 32 j) (elem (tget h 0 i) 32 j) sa sb).bits % 2 ^ 32 := by
  rw [foldRow, elem_rowOf (by simp [rowVals_length]) (by simpa [rowVals_length] using hj)]
  simp [rowVals]

/-- The accumulator rows that a beat leaves (R271, R281). -/
def beatRows (m : Matrix) (acts ends : Bool) (terms : Nat → List (FVal × List FVal)) : Tab Vec :=
  if !acts then m.latest m.bank
  else if m.scl then
    if ends then (foldRows (m.latest m.bank) (accRows m.h terms).1 (sc16 (m.scales.getD 0 0)) (sc16 (m.scales.getD 1 0))).1
    else m.latest m.bank
  else (accRows (m.latest m.bank) terms).1

/-- The shadow rows that a beat leaves. -/
def beatShadow (m : Matrix) (acts ends : Bool) (terms : Nat → List (FVal × List FVal)) : Tab Vec :=
  if !acts then m.h else if m.scl then (if ends then [] else (accRows m.h terms).1) else m.h

/-- A beat is one bank operation on the state with its shadow rows and scales replaced. -/
theorem State.beat_eq (s : State) (u : Issue) (m : Matrix) (lat : Nat) (acts ends : Bool) (terms : Nat → List (FVal × List FVal)) :
    ∃ fl, s.beat u m lat acts ends terms = s.bankOp u { m with
      h := beatShadow m acts ends terms, scales := if ends then m.scales.drop 2 else m.scales } lat m.bank
      (beatRows m acts ends terms) fl true := by
  unfold State.beat beatShadow beatRows
  cases acts
  · exact ⟨_, rfl⟩
  · cases hscl : m.scl
    · simp only [Bool.not_true, Bool.false_eq_true, if_false]
      exact ⟨_, rfl⟩
    · cases ends
      · simp only [Bool.not_true, Bool.false_eq_true, if_false, if_true]
        exact ⟨_, rfl⟩
      · simp only [Bool.not_true, Bool.false_eq_true, if_false, if_true]
        exact ⟨_, rfl⟩

theorem State.mx_bankOp (s : State) (u : Issue) (m : Matrix) (lat b : Nat) (rows : Tab Vec) (fl : Nat) (fpu : Bool) :
    ((s.bankOp u m lat b rows fl fpu).core u.core).mx = m.push (s.core u.core).now lat b rows := by
  simp [State.bankOp]

theorem macc_of_passes {s : State} {u : Issue} (hu : s.iss = some u) (g : Guard) (a b : R11)
    (hp : Passes u (s.maccPre u a.toNat b.toNat)) :
    maccForm s g a b = .next ((s.actFirst u (s.scanPops u ((s.core u.core).mx.densePops a.toNat b.toNat)).2.1).beat u
      (s.denseOperands u a.toNat b.toNat).2.2 8 (s.guard u g) ((s.core u.core).mx.endsBlock a.toNat)
      (fun i => ((s.denseOperands u a.toNat b.toNat).1 i).zip (s.denseOperands u a.toNat b.toNat).2.1)) := by
  rw [maccForm, onIssue_of _ hu, gate_of_passes _ hp]

/-- Settles O33: the forms pop and beat, and a beat's rows are `beatRows` and `beatShadow`. -/
theorem matrixBeats : Obligations.MatrixBeats := by
  unfold Obligations.MatrixBeats
  refine ⟨?_, ?_⟩
  · intro s u g a b hu
    simp only [exec]
    have dense (hp : Passes u (s.maccPre u a.toNat b.toNat)) := macc_of_passes hu g a b hp
    simp only [State.denseOperands, List.zip_map'] at dense
    refine ⟨fun hp => ⟨dense hp, dense hp⟩, fun hp => ?_⟩
    rw [execMaccs, onIssue_of _ hu, gate_of_passes _ hp]
  · intro s u m lat acts ends terms
    obtain ⟨fl, hbeat⟩ := State.beat_eq s u m lat acts ends terms
    simp only [hbeat, State.mx_bankOp]
    refine ⟨rfl, rfl, rfl, rfl, rfl, rfl, rfl, rfl, beatRows m acts ends terms, rfl, ?_, ?_⟩
    · rintro rfl
      exact ⟨rfl, rfl⟩
    · rintro rfl i j hi hj
      refine ⟨fun hscl => ?_, fun hscl hends => ?_, fun hscl hends => ?_⟩
      · refine ⟨by simp [Matrix.push, beatShadow, hscl], ?_⟩
        simp only [beatRows, hscl, Bool.not_true, Bool.false_eq_true, if_false]
        rw [tget_accRows _ _ hi, elem_accRow _ _ _ hj]
      · refine ⟨by simp [beatRows, hscl, hends], ?_⟩
        simp only [Matrix.push, beatShadow, hscl, hends, Bool.not_true, Bool.false_eq_true, if_false, if_true]
        rw [tget_accRows _ _ hi, elem_accRow _ _ _ hj]
      · refine ⟨by simp [Matrix.push, beatShadow, hscl, hends], ?_⟩
        simp only [beatRows, hscl, hends, Bool.not_true, Bool.false_eq_true, if_false, if_true]
        rw [tget_foldRows _ _ _ _ hi, elem_foldRow _ _ _ _ _ hj, tget_accRows _ _ hi, elem_accRow _ _ _ hj]

end Sys2Proof.Machine
end

section
/-! The sparsity unit's forms and commands (R291 to R299), copies (R304 to R312) and the index engine's forms (R314 to R323). -/

namespace Sys2Proof.Machine
set_option Elab.async false

open Sys2Proof

/-! ## The sparsity unit -/

section
variable {s : State} {u : Issue} {g : Guard} (h : Acts s u g)
include h

theorem sprune_of_passes (a b c : R11) (hp : Passes u (s.sprunePre u a b c)) :
    execSprune g a b c s = .next (s.issueUnit u .sprune (s.eword u a) (s.eword u b) (s.eword u c) none) := guarded_of_acts _ h hp

theorem sprunet_of_passes (a b c : R11) (hp : Passes u (s.sprunetPre u a b c)) :
    execSprunet g a b c s = .next (s.issueUnit u .sprunet (s.eword u a) (s.eword u b) (s.eword u c) none) := guarded_of_acts _ h hp

theorem sregrow_of_passes (a b c : R11) (hp : Passes u (s.sregrowPre u a b c)) :
    execSregrow g a b c s = .next (s.issueUnit u .sregrow (s.eword u a) (s.eword u b) (s.eword u c) none) := guarded_of_acts _ h hp

theorem sexpand_of_passes (a b : R11) (hp : Passes u (s.sexpandPre u a b)) :
    execSexpand g a b s = .next (s.issueUnit u .sexpand (s.eword u a) (s.eword u b) 0 none) := guarded_of_acts _ h hp

theorem shdrCk_of_passes (a : R11) (hp : Passes u (s.shdrPre u a)) :
    execShdrCk g a s = .next (s.issueUnit u .shdrCk (s.eword u a) 0 0 none) := guarded_of_acts _ h hp

theorem shdr_of_passes (d a : R11) (hp : Passes u (s.shdrPre u a)) :
    execShdr g d a s = .next (s.pushPool u
      { blankAcc 8 (.load false) true (s.rd u .e a.toNat) 8 with dst := some (s.dst u .e d.toNat) }
      [s.winPa u (s.rd u .e a.toNat)] (poolLat u.core [s.winPa u (s.rd u .e a.toNat)] 8 14)) := guarded_of_acts _ h hp

theorem shdrW_of_passes (a c : R11) (hp : Passes u (s.shdrPre u a)) :
    execShdrW g a c s = .next (s.pushPool u
      { blankAcc 8 .store true (s.rd u .e a.toNat) 8 with data := s.rd u .e c.toNat } [s.winPa u (s.rd u .e a.toNat)] 1) :=
  guarded_of_acts _ h hp

end

theorem State.issueUnit_eq {s : State} {u : Issue} {w : Strand} (hw : (s.seat u.core u.seat).strand = some w) (op : UnitOp)
    (x y z : Word) (dst : Option Reg) :
    s.issueUnit u op x y z dst = ((s.setEline w.ten u.core 9 { s.eline w.ten u.core 9 with
      issued := (s.eline w.ten u.core 9).issued + 1 }).releaseSeat u.core u.seat).modCore u.core (fun k => { k with unit := k.unit ++
        [⟨(s.eline w.ten u.core 9).issued + 1, op, x, y, z, w.ten, w.lid, w.idx, u.seat, (s.core u.core).nextId, dst, u.seq, false⟩] }) := by
  simp only [State.issueUnit, State.issueCmd, State.who_of_strand hw]
  rfl

@[simp] theorem State.releaseSeat_tens (s : State) (c i : Nat) : (s.releaseSeat c i).tens = s.tens := by
  unfold State.releaseSeat
  split <;> rfl

theorem State.tenancy_of_tens {s t : State} (h : t.tens = s.tens) (n : Nat) : t.tenancy n = s.tenancy n := by
  rw [State.tenancy, State.tenancy, h]

@[simp] theorem State.setEline_cores (s : State) (ten core n : Nat) (l : TLine) : (s.setEline ten core n l).cores = s.cores := rfl

theorem State.tenancy_setEline (s : State) (ten core n : Nat) (l : TLine) :
    (s.setEline ten core n l).tenancy ten = { s.tenancy ten with tls := tput (s.tenancy ten).tls (core * 16 + n) l } := by
  rw [State.setEline, State.tenancy_modTenancy, if_pos rfl]

/-- Settles O34: the forms issue their command, and issuing one changes timeline 9 and the unit's list. -/
theorem sparsityFormsAndCommands : Obligations.SparsityFormsAndCommands := by
  unfold Obligations.SparsityFormsAndCommands
  refine ⟨?_, ?_⟩
  · intro s u g d a b c h
    simp only [exec]
    exact ⟨fun hp => sprune_of_passes h a b c hp, fun hp => sprunet_of_passes h a b c hp, fun hp => sregrow_of_passes h a b c hp,
      fun hp => sexpand_of_passes h a b hp, simple_of_acts _ h,
      fun hp => ⟨shdrCk_of_passes h a hp, shdr_of_passes h d a hp, shdrW_of_passes h a c hp⟩⟩
  · intro s u op x y z dst w hw
    simp only [State.issueUnit_eq hw]
    generalize hl : { s.eline w.ten u.core 9 with issued := (s.eline w.ten u.core 9).issued + 1 } = l
    have hcores : ((s.setEline w.ten u.core 9 l).releaseSeat u.core u.seat).cores = s.cores := State.releaseSeat_cores ..
    have hten (n : Nat) : tget (((s.setEline w.ten u.core 9 l).releaseSeat u.core u.seat).tenancy w.ten).tls {} (u.core * 16 + n) =
        if n = 9 then l else tget (s.tenancy w.ten).tls {} (u.core * 16 + n) := by
      rw [State.tenancy_of_tens (State.releaseSeat_tens ..), State.tenancy_setEline, tget_tput]
      simp only [Nat.add_left_cancel_iff]
    refine ⟨?_, ?_, fun n hn => ?_, ?_, fun c i => ?_, fun c hc => ?_⟩
    · rw [State.core_modCore, if_pos rfl, State.core_of_cores hcores]
      rfl
    · exact (hten 9).trans ((if_pos rfl).trans hl.symm)
    · exact (hten n).trans (if_neg (by omega))
    · simp
    · rw [State.seat_modCore_of_seats (by rfl), State.seat_of_cores hcores]
    · rw [State.core_modCore, if_neg hc, State.core_of_cores hcores]

/-! ## Copies -/

theorem copy_of_passes {s : State} {u : Issue} {g : Guard} (h : Acts s u g) (d a b : R11)
    (hp : Passes u (s.copyPre u b.toNat (s.copyCmd u (s.copyWords u a)))) :
    execCopy g d a b s = .next (s.issueCopy u b.toNat d (s.copyCmd u (s.copyWords u a))) := guarded_of_acts _ h hp

theorem copyp_of_passes {s : State} {u : Issue} {g : Guard} (h : Acts s u g) (d a b : R11) (hp : Passes u (s.copypPre u a b.toNat)) :
    execCopyp g d a b s = .next ((s.actFirst u [(sextN 64 (s.rd u .e a.toNat), 128)]).issueCopy u b.toNat d (s.copypCmd u a)) :=
  guarded_of_acts _ h hp

/-- Settles O35: the packet's words, from the registers or from the window. -/
theorem copyForms : Obligations.CopyForms := by
  unfold Obligations.CopyForms
  intro s u g d a b h
  simp only [exec]
  refine ⟨fun hp => copy_of_passes h d a b hp, fun hp => ?_⟩
  have hbytes : s.packetBytes u (s.rd u .e a.toNat) / 8 = if s.winBytes u (s.rd u .e a.toNat) 8 / 2 ^ 48 % 2 ^ 8 = 3 then 16 else 8 := by
    rw [State.packetBytes, field]
    split <;> rfl
  rw [copyp_of_passes h d a b hp, State.copypCmd, State.poolWords, hbytes]

/-! ## The index engine -/

theorem lane32_toNat (s : State) (u : Issue) (n : R11) (l : Nat) : (lane32 s u n l).toNat = s.xlane u n.toNat l :=
  BitVec.toNat_ofNat ..

/-- Lane l of a lane form's second operand (R315). -/
def State.xOperand (s : State) (u : Issue) (x : XB) (l : Nat) : BitVec 32 :=
  match x with
  | .reg n => lane32 s u n l
  | .lit k => BitVec.ofNat 32 k.toNat

/-- A lane form puts the function of the lanes (R315). -/
theorem xForm_puts {s : State} {u : Issue} {g : Guard} (h : Acts s u g) (d a : R11) (x : XB) (f : Nat → Nat → Nat)
    (w : Nat → BitVec 32) (hw : ∀ l, f (lane32 s u a l).toNat (s.xOperand u x l).toNat = (w l).toNat) :
    ∃ v, v < 2 ^ 2048 ∧ xForm s g d a x f = .next (s.result u 7 2 .xv d.toNat v) ∧
      ∀ l, l < 64 → v / 2 ^ (32 * l) % 2 ^ 32 = (w l).toNat := by
  refine ⟨_, ?_, simple_of_acts _ h, fun l hl => ?_⟩
  · refine lt_of_lt_of_eq (packList_lt ..) ?_
    cases x <;> simp [State.xlanes]
  · rw [packList_lane _ _ (by cases x <;> simpa [State.xlanes] using hl)]
    refine Eq.trans ?_ (Nat.mod_eq_of_lt (w l).isLt)
    rw [← hw l, lane32_toNat]
    cases x with
    | reg n =>
      simp only [State.xlanes, List.getElem_map, List.getElem_zip, List.getElem_range, State.xOperand, lane32_toNat]
      rfl
    | lit k =>
      have hk : k.toNat < 2 ^ 32 := lt_of_lt_of_le k.isLt (by decide)
      simp only [State.xlanes, List.getElem_map, List.getElem_zip, List.getElem_range, List.getElem_replicate, State.xOperand,
        ofNat_toNat_of_lt hk]
      rfl

theorem idxForm_of_passes {s : State} {u : Issue} {g : Guard} (h : Acts s u g) (op : Nat) (gr : Gran) (a c : R11) (data : Issue → Nat)
    (hp : Passes u (s.pushPre u op gr a c)) : idxForm s g op gr a c data = .next (s.issueIdx u op gr a c (data u)) :=
  guarded_of_acts _ h hp

theorem idxNbForm_of_passes {s : State} {u : Issue} {g : Guard} (h : Acts s u g) (op : Nat) (gr : Gran) (d a c : R11)
    (data : Issue → Nat) (hp : Passes u (s.pushNbPre u op gr a c)) :
    (s.idxFull u = true → idxNbForm s g op gr d a c data = .next (s.result u 7 1 .q (d.toNat % 8) 0)) ∧
    (s.idxFull u = false → idxNbForm s g op gr d a c data =
      .next ((s.issueIdx u op gr a c (data u)).result u 7 1 .q (d.toNat % 8) 1)) := by
  have hform : idxNbForm s g op gr d a c data = _ := guarded_of_acts (pre := fun u => s.pushNbPre u op gr a c) (fun u s' =>
    if s.idxFull u then s'.result u 7 1 .q (d.toNat % 8) 0
    else (s'.issueIdx u op gr a c (data u)).result u 7 1 .q (d.toNat % 8) 1) h hp
  refine ⟨fun hfull => ?_, fun hroom => ?_⟩
  · simpa [hfull] using hform
  · simpa [hroom] using hform

theorem xldp_of_passes {s : State} {u : Issue} {g : Guard} (h : Acts s u g) (d a : R11) (imm : Imm)
    (hp : Passes u (s.lanePre u (s.xldpOff u a imm) 4)) :
    execXldp g d a imm s = .next (s.pushPool u
      { blankAcc 7 .xldp true (off64 (s.xldpOff u a imm)) 4 with dst := some (s.dst u .xv d.toNat) }
      ((laneOffs (s.xldpOff u a imm) 4).map (fun o => s.winPa u o.toNat))
      (poolLat u.core ((laneOffs (s.xldpOff u a imm) 4).map (fun o => s.winPa u o.toNat)) 12 20)) :=
  guarded_of_acts _ h hp

theorem xhash_of_passes {s : State} {u : Issue} {g : Guard} (h : Acts s u g) (d a c : R11) (hp : Passes u (s.hashPre u c)) :
    execXhash g d a c s = .next (s.pushHash u .xhash d c (s.rd u .xv a.toNat) 0) := guarded_of_acts _ h hp

theorem xins_of_passes {s : State} {u : Issue} {g : Guard} (h : Acts s u g) (d a b c : R11) (hp : Passes u (s.hashPre u c)) :
    execXins g d a b c s = .next (s.pushHash u .xins d c (s.rd u .xv a.toNat) (s.rd u .xv b.toNat)) := guarded_of_acts _ h hp

theorem xwalk_of_passes {s : State} {u : Issue} {g : Guard} (h : Acts s u g) (csr : Bool) (d a c : R11)
    (hp : Passes u (s.walkPre u csr c)) :
    execXwalk g csr d a c s = .next (s.pushPool u { blankAcc 7 (.xwalk csr) true 0 (s.winSize u) with
      data := s.rd u .xv c.toNat, data2 := s.rd u .xv a.toNat
      dst := some (s.dst u .xv d.toNat), dst2 := some (s.dst u .xv a.toNat) } [s.winPa u 0] 1) := guarded_of_acts _ h hp

/-- Settles O36: the lane forms by `xForm_puts`, the commands and accesses by their forms. -/
theorem indexForms : Obligations.IndexForms := by
  unfold Obligations.IndexForms
  intro s u g gr csr x d a b c imm h
  simp only [exec, ← State.laneOffs_pas]
  have puts := @xForm_puts s u g h d a x
  refine ⟨puts _ (fun l => lane32 s u a l + s.xOperand u x l) fun l => ?_, puts _ (fun l => lane32 s u a l * s.xOperand u x l) fun l => ?_,
    puts _ (fun l => lane32 s u a l &&& s.xOperand u x l) fun l => ?_,
    puts _ (fun l => lane32 s u a l <<< ((s.xOperand u x l).toNat % 32)) fun l => ?_,
    puts _ (fun l => lane32 s u a l >>> ((s.xOperand u x l).toNat % 32)) fun l => ?_, fun hp => xldp_of_passes h d a imm hp, fun hp => idxForm_of_passes h 0 gr a c _ hp,
    fun hp => idxForm_of_passes h 1 gr a c _ hp, fun hp => idxForm_of_passes h 2 gr a c _ hp,
    fun hp => idxNbForm_of_passes h 0 gr d a c _ hp, fun hp => idxNbForm_of_passes h 1 gr d a c _ hp,
    fun hp => idxNbForm_of_passes h 2 gr d a c _ hp, fun hp => ⟨xhash_of_passes h d a c hp, xins_of_passes h d a b c hp⟩,
    fun hp => xwalk_of_passes h csr d a c hp⟩
  · exact (BitVec.toNat_add ..).symm
  · exact (BitVec.toNat_mul ..).symm
  · exact (BitVec.toNat_and ..).symm
  · rw [BitVec.toNat_shiftLeft, Nat.shiftLeft_eq]
  · rw [BitVec.toNat_ushiftRight, Nat.shiftRight_eq_div_pow]

end Sys2Proof.Machine
end

section
/-! Accesses that perform at their homes (O42). -/

namespace Sys2Proof.Machine

set_option Elab.async false

open Sys2Proof

/-! ## What applying a seat's pending signals leaves alone -/

/-- A signal changes only the results under way and the deferred traps of its seat. -/
theorem State.applySig_seat (s : State) (c i : Nat) (g : Sig) :
    ∃ fl df, (s.applySig c i g).seat c i = { s.seat c i with flights := fl, deferred := df } := by
  rw [State.applySig_eq]
  simp only [State.deferTrap]
  split <;> cases g.dst <;> simp only [State.seat_modSeat, and_self, if_true, State.seat_semAdded] <;> exact ⟨_, _, rfl⟩

theorem State.core_modSeat_frame (s : State) (c i : Nat) (f : Seat → Seat) (c' : Nat) :
    ∃ se, (s.modSeat c i f).core c' = { s.core c' with seats := se } := by
  rw [State.core_modSeat]
  split
  · next h => subst h; exact ⟨_, rfl⟩
  · exact ⟨_, rfl⟩

/-- A signal changes only the semaphores and the seats of its core. -/
theorem State.applySig_core (s : State) (c i : Nat) (g : Sig) :
    ∃ sm se, (s.applySig c i g).core c = { s.core c with sem := sm, seats := se } := by
  rw [State.applySig_eq]
  simp only [State.deferTrap]
  split <;> cases g.dst <;> simp only [State.core_modSeat, if_true, State.core_semAdded] <;> exact ⟨_, _, rfl⟩

theorem State.drainSigs_seat (s : State) (c i n : Nat) :
    ∃ sg fl df, (s.drainSigs c i n).seat c i = { s.seat c i with sigs := sg, flights := fl, deferred := df } := by
  induction n generalizing s with
  | zero => exact ⟨_, _, _, rfl⟩
  | succ n ih =>
    unfold State.drainSigs
    split
    · exact ⟨_, _, _, rfl⟩
    · next g r _ =>
      split
      · obtain ⟨sg, fl, df, h⟩ := ih ((s.modSeat c i (fun t => { t with sigs := r })).applySig c i g)
        obtain ⟨fl', df', h'⟩ := (s.modSeat c i (fun t => { t with sigs := r })).applySig_seat c i g
        rw [h, h', State.seat_modSeat, if_pos ⟨rfl, rfl⟩]
        exact ⟨_, _, _, rfl⟩
      · exact ⟨_, _, _, rfl⟩

theorem State.drainSigs_core (s : State) (c i n : Nat) :
    ∃ sm se, (s.drainSigs c i n).core c = { s.core c with sem := sm, seats := se } := by
  induction n generalizing s with
  | zero => exact ⟨_, _, rfl⟩
  | succ n ih =>
    unfold State.drainSigs
    split
    · exact ⟨_, _, rfl⟩
    · next g r _ =>
      split
      · obtain ⟨sm, se, h⟩ := ih ((s.modSeat c i (fun t => { t with sigs := r })).applySig c i g)
        obtain ⟨sm', se', h'⟩ := (s.modSeat c i (fun t => { t with sigs := r })).applySig_core c i g
        rw [h, h', State.core_modSeat, if_pos rfl]
        exact ⟨_, _, rfl⟩
      · exact ⟨_, _, rfl⟩

@[simp] theorem State.settle_accs (s : State) (c i : Nat) : ((s.settle c i).seat c i).accs = (s.seat c i).accs := by
  obtain ⟨_, _, _, h⟩ := s.drainSigs_seat c i (s.seat c i).sigs.length
  rw [State.settle, h]

@[simp] theorem State.settle_mx (s : State) (c i : Nat) : ((s.settle c i).core c).mx = (s.core c).mx := by
  obtain ⟨_, _, h⟩ := s.drainSigs_core c i (s.seat c i).sigs.length
  rw [State.settle, h]

/-! ## Lists of accesses -/

theorem find_modifyFirst {α : Type} (p : α → Bool) (f : α → α) (l : List α) {a : α} (h : l.find? p = some a) (hf : p (f a) = true) :
    (modifyFirst p f l).find? p = some (f a) := by
  induction l with
  | nil => simp at h
  | cons x r ih =>
    by_cases hx : p x = true
    · simp only [List.find?_cons, hx, Option.some.injEq] at h
      subst h
      simp [modifyFirst, hx, hf]
    · simp only [List.find?_cons, hx] at h
      simpa [modifyFirst, hx] using ih h

theorem Seat.findAcc_id {t : Seat} {id : Nat} {a : Acc} (h : t.findAcc id = some a) : a.id = id := by
  simpa using List.find?_some h

theorem Seat.findAcc_of_accs {t t' : Seat} (h : t'.accs = t.accs) (id : Nat) : t'.findAcc id = t.findAcc id := by
  rw [Seat.findAcc, Seat.findAcc, h]

theorem Seat.findAcc_modAcc {t : Seat} {id : Nat} {a : Acc} (h : t.findAcc id = some a) (f : Acc → Acc) (hf : (f a).id = id) :
    (t.modAcc id f).findAcc id = some (f a) :=
  find_modifyFirst _ f _ h (by simp [hf])

theorem State.findAcc_modSeat {s : State} {c i id : Nat} {a : Acc} (h : (s.seat c i).findAcc id = some a) {f : Acc → Acc}
    (hf : (f a).id = id) : ((s.modSeat c i (fun t => t.modAcc id f)).seat c i).findAcc id = some (f a) := by
  rw [State.seat_modSeat, if_pos ⟨rfl, rfl⟩]
  exact Seat.findAcc_modAcc h f hf

/-! ## Homes of some of an access's parts -/

theorem State.homesFor_sub {s : State} {place : Option Nat} {ten key : Nat} {l l' : List Nat} (hsub : ∀ pa ∈ l', pa ∈ l)
    (h : s.homesFor place ten key l = .ok) : s.homesFor place ten key l' = .ok := by
  have hall : ∀ pa ∈ l, s.homeTen place ten pa key = .ok := by
    clear hsub
    induction l with
    | nil => simp
    | cons x r ih =>
      simp only [State.homesFor] at h
      split at h
      · next hx =>
        intro pa hpa
        rcases List.mem_cons.mp hpa with rfl | hpa
        · exact hx
        · exact ih h pa hpa
      · next hx => exact absurd h hx
  induction l' with
  | nil => rfl
  | cons x r ih =>
    simp only [State.homesFor, hall x (hsub x (by simp))]
    exact ih (fun pa hpa => hsub pa (by simp [hpa]))

theorem State.homesFor_takeFree (s : State) (place : Option Nat) (ten key : Nat) (l : List Nat) :
    s.takeFree.2.homesFor place ten key l = s.homesFor place ten key l := by
  induction l with
  | nil => rfl
  | cons x r ih =>
    simp only [State.homesFor, ih]
    rfl

theorem mem_laneParts {lanes pa : Nat} {l : List Nat} (h : pa ∈ laneParts lanes l) : pa ∈ l := by
  simp only [laneParts, List.mem_map, List.mem_filter] at h
  obtain ⟨p, ⟨hp, _⟩, rfl⟩ := h
  exact (List.mem_zipIdx' hp).2 ▸ List.getElem_mem _

theorem State.homeAcc_of_homeAll {s : State} {ten : Nat} {a : Acc} (hl : a.lost = none) (h : s.homeAll ten a.key a.parts = .ok)
    {l : List Nat} (hsub : ∀ pa ∈ l, pa ∈ a.parts) : s.homeAcc none ten a l = .ok := by
  simp only [State.homeAcc, hl]
  exact State.homesFor_sub hsub h

/-! ## Lanes -/

theorem Acc.parts_of_one {a : Acc} {pa : Nat} (h : a.pas = some [pa]) : a.parts = [pa] := by simp [Acc.parts, h]

theorem Acc.lanesLeft_of_one {a : Acc} {pa : Nat} (h : a.pas = some [pa]) (hd : a.data2 = 0) : a.lanesLeft = 1 := by
  simp [Acc.lanesLeft, Acc.lanesAll, Acc.parts_of_one h, hd]

theorem State.nextLanes_of_one {s : State} {a : Acc} {pa : Nat} (h : a.pas = some [pa]) : s.nextLanes a = (a.lanesLeft, s) := by
  simp [State.nextLanes, Acc.parts_of_one h]

theorem State.nextLanes_of_many {s : State} {a : Acc} (h : 1 < a.parts.length) :
    s.nextLanes a = (pickLanes a.lanesLeft s.takeFree.1, s.takeFree.2) := by
  rw [State.nextLanes, if_neg (by omega)]

theorem pickLanes_ne_zero {left : Nat} (v : Nat) (h : left ≠ 0) : pickLanes left v ≠ 0 := by
  unfold pickLanes
  split <;> assumption

theorem pickLanes_and (left v : Nat) : pickLanes left v &&& left = pickLanes left v := by
  unfold pickLanes
  split
  · exact Nat.and_self left
  · rw [Nat.and_comm, ← Nat.and_assoc, Nat.and_self]

/-! ## Bytes -/

theorem leRead_lt (m : Tab Byte) (a n : Nat) : leRead m a n < 2 ^ (8 * n) := by
  induction n generalizing a with
  | zero => simp [leRead]
  | succ n ih =>
    have h1 := (tget m Config.blank a).isLt
    have h2 := ih (a + 1)
    rw [leRead, show 8 * (n + 1) = 8 + 8 * n by omega, Nat.pow_add]
    generalize 2 ^ (8 * n) = p at *
    omega

theorem State.load_lt (s : State) (pa n : Nat) : s.load pa n < 2 ^ (8 * n) := by
  unfold State.load
  split
  · exact Nat.lt_of_lt_of_eq (packList_lt _ _) (by simp)
  · exact leRead_lt ..

/-- The one part of a scalar access is its bytes. -/
theorem State.readParts_of_one (s : State) (n pa : Nat) : s.readParts n 1 [pa] = s.load pa n := by
  simp only [State.readParts, List.zipIdx_cons, List.zipIdx_nil, List.map_cons, List.map_nil, packList]
  have h := s.load_lt pa n
  simp [bitAt, Nat.mod_eq_of_lt h]

theorem extendLoad_signed (n v : Nat) :
    extendLoad true n v = ((BitVec.ofNat (8 * n) v).signExtend 64).toNat := by
  have hs : sextN (8 * n) v = (BitVec.ofNat (8 * n) v).toInt := by
    rw [← sextN_toNat, BitVec.toNat_ofNat, sextN, sextN, Nat.mod_mod]
  rw [extendLoad, if_pos rfl, wrapN, hs, BitVec.signExtend, BitVec.toNat_ofInt]

theorem byte_store (s : State) (pa n key v x : Nat) :
    Memory.byte (s.store pa n key v).mem x =
      if pa ≤ x ∧ x < pa + n then BitVec.ofNat 8 (v / 256 ^ (x - pa)) else Memory.byte s.mem x := by
  rw [State.store, State.dirtyLine_mem]
  exact byte_leWrite ..

theorem byte_store_in (s : State) (pa n key v : Nat) {k : Nat} (hk : k < n) :
    Memory.byte (s.store pa n key v).mem (pa + k) = BitVec.ofNat 8 (v / 2 ^ (8 * k)) := by
  rw [byte_store, if_pos (by omega), Nat.add_sub_cancel_left, Nat.pow_mul]

theorem byte_store_out (s : State) (pa n key v : Nat) {x : Nat} (hx : x < pa ∨ pa + n ≤ x) :
    Memory.byte (s.store pa n key v).mem x = Memory.byte s.mem x := by
  rw [byte_store, if_neg (by omega)]

theorem byte_writeParts_out (n key lanes : Nat) (l : List Nat) (v : Nat) (s : State) {x : Nat} (hx : ∀ pa ∈ l, x < pa ∨ pa + n ≤ x) :
    Memory.byte (s.writeParts n key lanes l v).mem x = Memory.byte s.mem x := by
  induction l generalizing s lanes v with
  | nil => cases lanes <;> rfl
  | cons p r ih =>
    rw [State.writeParts, ih _ _ _ (fun pa h => hx pa (by simp [h]))]
    split
    · exact byte_store_out _ _ _ _ _ (hx p (by simp))
    · rfl

@[simp] theorem State.dirtyLine_cores (s : State) (pa key : Nat) : (s.dirtyLine pa key).cores = s.cores := by
  unfold State.dirtyLine
  split
  · exact State.fillLine_cores ..
  all_goals rfl

@[simp] theorem State.store_cores (s : State) (pa n key v : Nat) : (s.store pa n key v).cores = s.cores := by simp [State.store]

@[simp] theorem State.writeParts_cores (s : State) (n key lanes : Nat) (l : List Nat) (v : Nat) :
    (s.writeParts n key lanes l v).cores = s.cores := by
  induction l generalizing s lanes v with
  | nil => cases lanes <;> rfl
  | cons p r ih =>
    rw [State.writeParts, ih]
    split
    · exact State.store_cores ..
    · rfl

@[simp] theorem State.keepReply_cores (s : State) (d port n : Nat) (vals : List Nat) : (s.keepReply d port n vals).cores = s.cores := rfl

@[simp] theorem State.heardFrom_cores (s : State) (me pa : Nat) : (s.heardFrom me pa).cores = s.cores := by
  unfold State.heardFrom
  split <;> rfl

@[simp] theorem State.endAcc_mx (s : State) (c i : Nat) (a : Acc) : ((s.endAcc c i a).core c).mx = (s.core c).mx := by
  rw [State.endAcc, State.settle_mx, State.core_modSeat, if_pos rfl]
  simp only [State.answered]
  rw [State.core_of_cores (State.heardFrom_cores ..)]
  split
  · rw [State.core_of_cores (State.releaseSeat_cores ..)]
  · rfl

/-! ## The events -/

section
variable {s : State} {c i id : Nat} {a : Acc}

theorem State.liveAcc_of_find (hd : (s.die (c / 128)).halted = none) (hf : (s.seat c i).findAcc id = some a) :
    s.liveAcc c i id = some a := by
  rw [State.liveAcc, dieOf, hd]
  exact hf

theorem Seat.mayAct_of_mayPerform {t : Seat} {now : Nat} (h : t.mayPerform now a = true) : t.mayAct a = true := by
  rw [Seat.mayPerform, Bool.and_eq_true] at h
  exact h.1

theorem Seat.result_of_mayAct {t : Seat} (h : t.mayAct a = true) : a.result = none := by
  simp only [Seat.mayAct, Bool.and_eq_true, Bool.not_eq_true', Acc.performed, Option.isSome_eq_false_iff, Option.isNone_iff_eq_none] at h
  exact h.1.2

theorem loadDataReturn_of_scalar (hl : s.liveAcc c i id = some a) (hm : (s.seat c i).mayPerform (s.core c).now a = true) {sx : Bool}
    (hk : a.kind = .load sx) :
    execLoadDataReturn c i id s = .next ((s.nextLanes a).2.performLoad c i a sx (s.nextLanes a).1) := by
  simp only [execLoadDataReturn, hl, hm, hk]
  rfl

theorem loadDataReturn_of_vector (hl : s.liveAcc c i id = some a) (hm : (s.seat c i).mayPerform (s.core c).now a = true)
    (hk : a.kind = .vload ∨ a.kind = .xldp) :
    execLoadDataReturn c i id s = .next ((s.nextLanes a).2.performLoad c i a false (s.nextLanes a).1) := by
  rcases hk with hk | hk
  all_goals
    simp only [execLoadDataReturn, hl, hm, hk]
    rfl

theorem storeApply_of_store (hl : s.liveAcc c i id = some a) (hm : (s.seat c i).mayPerform (s.core c).now a = true)
    (hk : a.kind = .store ∨ a.kind = .vstore) :
    execStoreApply c i id s = .next ((s.nextLanes a).2.performStore c i a (s.nextLanes a).1) := by
  rcases hk with hk | hk
  all_goals
    simp only [execStoreApply, hl, hm, hk]
    rfl

theorem atomicApply_of_atom (hl : s.liveAcc c i id = some a) (hm : (s.seat c i).mayAct a = true) {op : AtOp} (hk : a.kind = .atom op)
    (hn : a.due ≠ never) : execAtomicApply c i id s = .next (s.applyAtom c i a op) := by
  simp [execAtomicApply, hl, hk, hm, hn]

theorem scaleArrive_of_sqld (hl : s.liveAcc c i id = some a) (hm : (s.seat c i).mayPerform (s.core c).now a = true)
    (hk : a.kind = .sqld) : execScaleArrive c i id s = .next (s.arriveScales c i a) := by
  simp [execScaleArrive, hl, hk, hm, Seat.result_of_mayAct (Seat.mayAct_of_mayPerform hm)]

/-! ## What performing does where the homes serve -/

theorem State.performLoad_of_ok {sx : Bool} {lanes : Nat} (h : s.homeAcc none (s.ownerOf c i).1 a (laneParts lanes a.parts) = .ok) :
    s.performLoad c i a sx lanes =
      (let v := a.data ||| s.readParts a.n lanes a.parts
       let t := s.fillParts (laneParts lanes a.parts)
       if a.lanesLeft = lanes then t.returnData c i a (extendLoad sx a.n v) else t.keepLanes c i a v lanes) := by
  simp only [State.performLoad, h]

theorem State.performStore_of_ok {lanes : Nat} (h : s.homeAcc a.accepted (s.ownerOf c i).1 a (laneParts lanes a.parts) = .ok) :
    s.performStore c i a lanes =
      (let t := s.writeParts a.n a.key lanes a.parts a.data
       if a.lanesLeft = lanes then t.endAcc c i a else t.keepLanes c i a a.data lanes) := by
  simp only [State.performStore, h]

/-- The memory after a store performs is that after its parts are written. -/
theorem State.performStore_mem {lanes : Nat} (h : s.homeAcc a.accepted (s.ownerOf c i).1 a (laneParts lanes a.parts) = .ok) :
    (s.performStore c i a lanes).mem = (s.writeParts a.n a.key lanes a.parts a.data).mem := by
  rw [State.performStore_of_ok h]
  simp only []
  split
  · exact State.endAcc_mem ..
  · rfl

/-- A store of which lanes are left keeps those that have acted. -/
theorem State.performStore_find {lanes : Nat} (h : s.homeAcc a.accepted (s.ownerOf c i).1 a (laneParts lanes a.parts) = .ok)
    (hf : (s.seat c i).findAcc id = some a) (hl : a.lanesLeft ≠ lanes) :
    ((s.performStore c i a lanes).seat c i).findAcc id = some { a with data2 := a.data2 ||| lanes } := by
  obtain rfl := Seat.findAcc_id hf
  simp only [State.performStore_of_ok h, if_neg hl, State.keepLanes]
  refine State.findAcc_modSeat (a := a) (f := fun x => { x with data := a.data, data2 := a.data2 ||| lanes }) ?_ rfl
  rw [State.seat_of_cores (State.writeParts_cores ..)]
  exact hf

end

/-- The state in which an atomic's new value stands in memory and its reply in the replay cache. -/
def State.atomStored (s : State) (c i : Nat) (a : Acc) (pa new r : Nat) : State :=
  let s := s.store pa a.n a.key new
  let s := if a.rel then s.releaseSeat c i else s
  match a.home with
  | none => s
  | some (h, q, _) => if h < 4 then s.keepReply h (16 * c + i) q [r] else s

@[simp] theorem State.atomStored_mem (s : State) (c i : Nat) (a : Acc) (pa new r : Nat) :
    (s.atomStored c i a pa new r).mem = (s.store pa a.n a.key new).mem := by
  unfold State.atomStored
  simp only []
  split <;> split <;> (try split) <;> simp

theorem State.atomStored_seat (s : State) (c i : Nat) (a : Acc) (pa new r c' i' : Nat) :
    (s.atomStored c i a pa new r).seat c' i' = s.seat c' i' := by
  refine State.seat_of_cores ?_ c' i'
  unfold State.atomStored
  simp only []
  split <;> split <;> (try split) <;> simp

section
variable {s : State} {c i id : Nat} {a : Acc}

/-- An atomic that its home completes. -/
theorem State.applyAtom_of_ok {op : AtOp} {pa : Nat} (h : s.homeAcc a.accepted (s.ownerOf c i).1 a a.parts = .ok)
    (hp : a.pas = some [pa]) (hh : placeOf pa = .host → Config.freeValue s.free % 2 = 0) :
    s.applyAtom c i a op =
      (let t := if placeOf pa = .host then s.takeFree.2 else s
       let new := atomNew op (8 * a.n) (s.load pa a.n) a.data a.data2
       let r := atomResult (s.load pa a.n) new.2
       ((t.atomStored c i a pa new.1 r).modSeat c i (fun t => t.modAcc a.id (fun x =>
         { x with result := some r, accepted := none }))).settle c i) := by
  simp only [State.applyAtom, h]
  simp only [Acc.parts_of_one hp, List.headD_cons]
  by_cases hpl : placeOf pa = .host
  · have hev : ¬ s.takeFree.1 % 2 = 1 := by simp [State.takeFree, hh hpl]
    simp only [if_pos hpl, if_neg hev]
    rfl
  · simp only [if_neg hpl]
    rfl

/-- A request to the host that it completes as unsupported. -/
theorem State.applyAtom_of_unsupported {op : AtOp} {pa : Nat} (h : s.homeAcc a.accepted (s.ownerOf c i).1 a a.parts = .ok)
    (hp : a.pas = some [pa]) (hh : placeOf pa = .host) (hv : Config.freeValue s.free % 2 = 1) :
    s.applyAtom c i a op = (s.takeFree.2.deferTrap c i (xlateDeferred a 9)).endAcc c i { a with rel := false } := by
  have hod : s.takeFree.1 % 2 = 1 := hv
  simp only [State.applyAtom, h]
  simp only [Acc.parts_of_one hp, List.headD_cons, if_pos hh, if_pos hod]

end

theorem State.takeFree_load (s : State) (pa n : Nat) : s.takeFree.2.load pa n = s.load pa n := rfl

theorem State.findAcc_settled {s : State} {c i : Nat} {a : Acc} (h : (s.seat c i).findAcc a.id = some a) (r : Nat) :
    (((s.modSeat c i (fun t => t.modAcc a.id (fun x => { x with result := some r, accepted := none }))).settle c i).seat c i).findAcc
      a.id = some { a with result := some r, accepted := none } := by
  rw [Seat.findAcc_of_accs (State.settle_accs ..)]
  exact State.findAcc_modSeat (a := a) (f := fun x => { x with result := some r, accepted := none }) h rfl

/-- Settles O42: each event is its form's performing, and what that does to memory is `byte_store`. -/
theorem accessesPerform : Obligations.AccessesPerform := by
  unfold Obligations.AccessesPerform
  intro s c i id a hd hf hm hh hlost hacc
  simp only [exec]
  have hl := State.liveAcc_of_find hd hf
  obtain rfl := Seat.findAcc_id hf
  have hhome {l : List Nat} (hsub : ∀ pa ∈ l, pa ∈ a.parts) : s.homeAcc none (s.ownerOf c i).1 a l = .ok :=
    State.homeAcc_of_homeAll hlost hh hsub
  refine ⟨fun pa hp _ _ => ?_, fun lanes u hlen hnext => ?_, fun pa hp hk => ?_⟩
  · have hone : laneParts 1 [pa] = [pa] := by simp [laneParts, bitAt]
    have hload (sx : Bool) (hk : a.kind = .load sx) (h1 : a.data = 0) (h2 : a.data2 = 0) :
        execLoadDataReturn c i a.id s = .next ((s.fillLine pa).returnData c i a (extendLoad sx a.n (s.load pa a.n))) := by
      have hleft := Acc.lanesLeft_of_one hp h2
      rw [loadDataReturn_of_scalar hl hm hk, State.nextLanes_of_one hp]
      simp only [hleft]
      rw [State.performLoad_of_ok (hhome (fun _ => mem_laneParts))]
      simp only [if_pos hleft, h1, Acc.parts_of_one hp, hone, State.readParts_of_one, Nat.zero_or]
      rfl
    refine ⟨hload false, fun hk h1 h2 => ?_, fun hk h2 => ?_, fun op hk hn hpl hv => ?_, fun op hk hn hev => ?_⟩
    · rw [hload true hk h1 h2, extendLoad_signed]
    · have hleft := Acc.lanesLeft_of_one hp h2
      have hok : s.homeAcc a.accepted (s.ownerOf c i).1 a (laneParts 1 a.parts) = .ok := by
        rw [hacc]
        exact hhome (fun _ => mem_laneParts)
      refine ⟨_, storeApply_of_store hl hm (.inl hk), fun x hx => ?_, fun k hk => ?_⟩
      · simp only [State.nextLanes_of_one hp, hleft]
        rw [State.performStore_mem hok]
        exact byte_writeParts_out _ _ _ _ _ _ hx
      · simp only [State.nextLanes_of_one hp, hleft]
        rw [State.performStore_mem hok, Acc.parts_of_one hp]
        simp only [State.writeParts, Nat.one_mod, if_true]
        rw [byte_store_in _ _ _ _ _ hk]
        refine BitVec.eq_of_toNat_eq ?_
        rw [BitVec.toNat_ofNat, BitVec.toNat_ofNat, show 8 * a.n = 8 * k + (8 + 8 * (a.n - k - 1)) by omega, Nat.pow_add,
          Nat.mod_mul_right_div_self, Nat.pow_add, Nat.mod_mul_right_mod]
    · rw [atomicApply_of_atom hl (Seat.mayAct_of_mayPerform hm) hk hn,
        State.applyAtom_of_unsupported (by rw [hacc]; exact hhome (fun _ h => h)) hp hpl hv]
    · have hmem (t : State) (ht : t.mem = (if placeOf pa = .host then s.takeFree.2 else s).mem) : t.mem = s.mem := by
        rw [ht]
        split <;> rfl
      refine ⟨_, atomicApply_of_atom hl (Seat.mayAct_of_mayPerform hm) hk hn, ?_⟩
      rw [State.applyAtom_of_ok (by rw [hacc]; exact hhome (fun _ h => h)) hp hev]
      refine ⟨fun x hx => ?_, fun k hk => ?_, ?_⟩
      · rw [State.settle_mem, State.modSeat_mem, State.atomStored_mem, byte_store_out _ _ _ _ _ (hx pa (by simp [Acc.parts_of_one hp])),
          hmem _ rfl]
      · rw [State.settle_mem, State.modSeat_mem, State.atomStored_mem, byte_store_in _ _ _ _ _ hk]
      · refine (State.findAcc_settled ?_ _).trans ?_
        · rw [State.atomStored_seat]
          split <;> exact hf
        · simp only [atomResult, hacc, b2n]
          split <;> simp_all
  · rw [State.nextLanes_of_many hlen, Prod.mk.injEq] at hnext
    obtain ⟨rfl, rfl⟩ := hnext
    have hok : s.takeFree.2.homeAcc none (s.takeFree.2.ownerOf c i).1 a (laneParts (pickLanes a.lanesLeft s.takeFree.1) a.parts) = .ok := by
      have := hhome (l := laneParts (pickLanes a.lanesLeft s.takeFree.1) a.parts) (fun _ => mem_laneParts)
      simp only [State.homeAcc, hlost, State.homesFor_takeFree] at this ⊢
      exact this
    refine ⟨pickLanes_ne_zero _, pickLanes_and _ _, fun hk => ?_, fun hk => ?_⟩
    · rw [loadDataReturn_of_vector hl hm hk, State.nextLanes_of_many hlen, State.performLoad_of_ok hok]
      simp only [State.readParts, bitAt_testBit, State.takeFree_load, extendLoad]
      rfl
    · have hok' := hok
      rw [← hacc] at hok'
      refine ⟨_, storeApply_of_store hl hm (.inr hk), fun x hx => ?_, fun hne => ?_⟩
      · rw [State.nextLanes_of_many hlen, State.performStore_mem hok', byte_writeParts_out _ _ _ _ _ _ hx]
        rfl
      · rw [State.nextLanes_of_many hlen]
        exact State.performStore_find hok' hf hne
  · refine ⟨_, scaleArrive_of_sqld hl hm hk, ?_⟩
    simp only [State.arriveScales, hhome (fun _ h => h), State.pushScales]
    refine ⟨fun x hx => by simp, ?_⟩
    rw [State.endAcc_mx, State.core_modCore, if_pos rfl, Acc.parts_of_one hp, State.readParts_of_one]
    rfl

end Sys2Proof.Machine
end

section
/-! Replies, requests sent again, what a port accepts and what a lost home returns (O43). -/

namespace Sys2Proof.Machine

set_option Elab.async false

open Sys2Proof

/-! ## A seat's list with the first access of an id replaced -/

theorem all_modifyFirst {α : Type} (p q : α → Bool) (f : α → α) (l : List α) {a : α} (h : l.find? p = some a) (hq : q (f a) = q a) :
    (modifyFirst p f l).all q = l.all q := by
  induction l with
  | nil => rfl
  | cons x r ih =>
    by_cases hx : p x = true
    · simp only [List.find?_cons, hx, Option.some.injEq] at h
      subst h
      simp [modifyFirst, hx, hq]
    · simp only [List.find?_cons, hx] at h
      simp [modifyFirst, hx, ih h]

/-- Which access its home has last heard of does not matter for whether one may act. -/
theorem Seat.mayAct_home {t : Seat} {a : Acc} (h : t.findAcc a.id = some a) (x : Option (Nat × Nat × Nat)) :
    (t.modAcc a.id (fun _ => { a with home := x })).mayAct { a with home := x } = t.mayAct a := by
  simp only [Seat.mayAct, Seat.modAcc]
  congr 1
  exact all_modifyFirst _ (fun b => !b.before { a with home := x } || !b.holds { a with home := x }) (fun _ => { a with home := x }) _ h rfl

theorem State.nextLanes_of_few {s : State} {a : Acc} (h : a.parts.length ≤ 1) : s.nextLanes a = (a.lanesLeft, s) := if_pos h

section
variable {s : State} {c i : Nat} {a : Acc}

/-- An atomic two microseconds without a reply, sent again. -/
theorem State.resendAtom_of_due {op : AtOp} {h q tick : Nat} (hf : (s.seat c i).findAcc a.id = some a) (hk : a.kind = .atom op)
    (hh : a.home = some (h, q, tick)) (hs : a.sent.isSome = true) (hr : a.result = none) (ht : tick + 2000 ≤ s.tbase)
    (hm : (s.seat c i).mayAct a = true) (hn : a.due ≠ never) :
    s.resendAtom c i a =
      (let b := { a with home := some (h, q, s.tbase) }
       let t := s.modSeat c i (fun t => t.modAcc a.id (fun _ => b))
       match (if h < 4 then s.keptReply h (16 * c + i) q else none) with
        | some r => t.modSeat c i (fun t => t.modAcc a.id (fun x => { x with result := r.head? }))
        | none => t.applyAtom c i b op) := by
  have hwait : (a.sent.isNone || decide (s.tbase < tick + 2000)) = false := by
    rw [Option.isNone_eq_false_iff.2 hs]
    simpa using ht
  have hact : ((s.modSeat c i (fun t => t.modAcc a.id (fun _ => { a with home := some (h, q, s.tbase) }))).seat c i).mayAct
      { a with home := some (h, q, s.tbase) } = true := by
    rw [State.seat_modSeat, if_pos ⟨rfl, rfl⟩, Seat.mayAct_home hf, hm]
  have hstop : (a.result.isSome || false || a.due == never) = false := by simp [hr, hn]
  unfold State.resendAtom
  split
  · next op' h' q' tick' hk' hh' =>
    obtain rfl := AccKind.atom.inj (hk'.symm.trans hk)
    obtain ⟨rfl, rfl, rfl⟩ : h' = h ∧ q' = q ∧ tick' = tick := by simpa [hh] using hh'.symm
    simp only [hwait, hact, Bool.not_true, hstop, Bool.false_eq_true, if_false]
    rfl
  · next hno => exact absurd hh (hno _ _ _ _ hk)

theorem State.keptReply_of_none {h p q : Nat} (hn : tfind (s.die h).replay (p * 64 + q % 64) = none) :
    (if h < 4 then s.keptReply h p q else none) = none := by
  simp [State.keptReply, hn]

theorem State.keptReply_of_some {h p q : Nat} {r : List Nat} (h4 : h < 4)
    (hn : tfind (s.die h).replay (p * 64 + q % 64) = some (q, r)) : (if h < 4 then s.keptReply h p q else none) = some r := by
  simp [State.keptReply, hn, h4]

theorem requestResend_of_find {id : Nat} (hd : (s.die (c / 128)).halted = none) (hf : (s.seat c i).findAcc id = some a) :
    execRequestResend c i id s = .next (s.resendAtom c i a) := by
  simp only [execRequestResend, dieOf, hd, hf]
  rfl

/-- What a port that cannot send takes on. -/
theorem State.acceptAcc_of_port (ha : a.accepted = none) (hp : a.parts.all throughPort = true) :
    s.acceptAcc c i a = ({ s with pkg := { s.pkg with accepts := s.pkg.accepts + 1 } }.modSeat c i (fun t =>
      t.modAcc a.id (fun x => { x with accepted := some s.pkg.accepts }))).settle c i := by
  simp only [State.acceptAcc, ha, hp]
  rfl

theorem State.performStore_of_silent {lanes : Nat}
    (h : s.homeAcc a.accepted (s.ownerOf c i).1 a (laneParts lanes a.parts) = .silent) :
    s.performStore c i a lanes = s.acceptAcc c i a := by
  simp only [State.performStore, h]

theorem State.applyAtom_of_silent {op : AtOp} (h : s.homeAcc a.accepted (s.ownerOf c i).1 a a.parts = .silent) :
    s.applyAtom c i a op = (s.acceptAcc c i a).refuseAcc c i a .silent := by
  simp only [State.applyAtom, h]

theorem State.homeAcc_of_lost {m : Nat} (h : a.lost = some m) (place : Option Nat) (ten : Nat) (l : List Nat) :
    s.homeAcc place ten a l = .lost m := by
  simp only [State.homeAcc, h]

theorem State.performLoad_of_lost {m : Nat} (h : a.lost = some m) (sx : Bool) (lanes : Nat) :
    s.performLoad c i a sx lanes =
      (s.loseAccess c i m 1 a).returnData c i a (extendLoad sx a.n (2 ^ (8 * a.n * a.parts.length) - 1)) := by
  simp only [State.performLoad, State.homeAcc_of_lost h]

theorem State.performStore_of_lost {m : Nat} (h : a.lost = some m) (lanes : Nat) :
    s.performStore c i a lanes = (s.dropStore m).endAcc c i a := by
  simp only [State.performStore, State.homeAcc_of_lost h]

theorem State.applyAtom_of_lost {m : Nat} (h : a.lost = some m) (op : AtOp) :
    s.applyAtom c i a op = ((s.takeFree.2.loseAccess c i m 2 a).modSeat c i (fun t => t.modAcc a.id (fun x => { x with
      result := some (2 ^ (8 * a.n) - 1 + (if s.takeFree.1 % 2 = 1 then 2 ^ 64 else 0)), accepted := none }))) := by
  simp only [State.applyAtom, State.homeAcc_of_lost h, atomResult, b2n, beq_iff_eq, ite_mul, Nat.one_mul, Nat.zero_mul]

end

theorem Acc.pas_of_length {a : Acc} (h : a.parts.length = 1) : ∃ pa, a.pas = some [pa] := by
  unfold Acc.parts at h
  cases hp : a.pas with
  | none => simp [hp] at h
  | some l =>
    obtain ⟨pa, rfl⟩ := List.length_eq_one_iff.1 (by simpa [hp] using h)
    exact ⟨pa, rfl⟩

/-- Settles O43: replies, resends, what a port accepts, losses and the probes, walks and launches. -/
theorem repliesAndProbes : Obligations.RepliesAndProbes := by
  unfold Obligations.RepliesAndProbes
  intro s c i id a hd hf
  simp only [exec]
  have hl := State.liveAcc_of_find hd hf
  obtain rfl := Seat.findAcc_id hf
  refine ⟨fun r hr hdue => ?_, fun op h q tick hk hh hs hr ht hm hn => ?_, fun hm hlen hport hacc hlost hsil => ?_,
    fun m hlost hlen hm => ?_, fun hm hlen => ?_⟩
  · simp only [execAtomicReply, hl, hr, if_pos hdue]
    rfl
  · rw [requestResend_of_find hd hf, State.resendAtom_of_due hf hk hh hs hr ht hm hn]
    refine ⟨fun r h4 he => ?_, fun he => ?_⟩
    · simp only [State.keptReply_of_some h4 he]
    · simp only [State.keptReply_of_none he]
  · obtain ⟨pa, hp⟩ := Acc.pas_of_length hlen
    have hone : laneParts 1 a.parts = a.parts := by simp [Acc.parts_of_one hp, laneParts, bitAt]
    have hhome : s.homeAcc a.accepted (s.ownerOf c i).1 a a.parts = .silent := by
      simp only [State.homeAcc, hacc, hlost]
      exact hsil
    refine ⟨fun hk h2 => ?_, fun op hk hn => ?_⟩
    · rw [storeApply_of_store hl hm (.inl hk), State.nextLanes_of_one hp]
      simp only [Acc.lanesLeft_of_one hp h2]
      rw [State.performStore_of_silent (by rw [hone, hhome]), State.acceptAcc_of_port hacc hport]
    · rw [atomicApply_of_atom hl (Seat.mayAct_of_mayPerform hm) hk hn, State.applyAtom_of_silent hhome,
        State.acceptAcc_of_port hacc hport]
  · refine ⟨fun sx hk => ?_, fun hk => ?_, fun op hk hn => ?_⟩
    · rw [loadDataReturn_of_scalar hl hm hk, State.nextLanes_of_few (by omega), State.performLoad_of_lost hlost, hlen, Nat.mul_one]
    · rw [storeApply_of_store hl hm (.inl hk), State.nextLanes_of_few (by omega), State.performStore_of_lost hlost]
    · rw [atomicApply_of_atom hl (Seat.mayAct_of_mayPerform hm) hk hn, State.applyAtom_of_lost hlost]
  · simp only [execLoadDataReturn, hl, hm, State.nextLanes_of_few hlen]
    refine ⟨fun hk => ?_, fun hk => ?_, fun hk => ?_, fun csr hk => ?_⟩
    all_goals
      simp only [hk]
      rfl

end Sys2Proof.Machine
end

section
/-! Walkers, banks, ring tiles, the sparsity unit, lines written back and requests that wait too long (O44). -/

namespace Sys2Proof.Machine

set_option Elab.async false

open Sys2Proof

theorem firstSome_eq_none {α β : Type} (f : α → Option β) (l : List α) (h : ∀ x ∈ l, f x = none) : firstSome f l = none := by
  induction l with
  | nil => rfl
  | cons x r ih => simp only [firstSome, h x (by simp), ih (fun y hy => h y (by simp [hy]))]

section
variable {s : State} {c i die ten page : Nat}

theorem walk_begins (hd : (s.die die).halted = none) (hw : (s.die die).walkOf ten page 512 = none) (hl : (s.die die).walks.length < 512)
    (ha : s.missing die ten page ≠ [] ∨ (ten, page) ∈ s.pagesAsked die) :
    execWalk die ten page s = .next (s.modDie die (fun d => { d with walks := d.walks ++ [s.beginWalk ten page] })) := by
  have hasked : ((s.missing die ten page).isEmpty && !(s.pagesAsked die).contains (ten, page)) = false := by
    rcases ha with ha | ha
    · simp [ha]
    · simp [ha]
  simp only [execWalk, hd, hw, hasked, decide_eq_false (Nat.not_le.2 hl)]
  rfl

theorem walkComplete_ends {w : Walk} (hd : (s.die die).halted = none) (hw : (s.die die).walkOf ten page 16 = some w)
    (hs : (s.rooted w).walkStop die ten (page * 2 ^ 16) = none) :
    execWalkComplete die ten page s =
      (let found := (s.rooted w).walk die ten (page * 2 ^ 16)
       let t := s.walked die w
       .next (((t.missing die ten page).foldl (fun (t : State) p => t.endMiss p.1 p.2.1 p.2.2 found) t).answerAsks die ten page found)) := by
  simp only [execWalkComplete, hw, hd, hs]
  rfl

theorem sparsityCmdComplete_of_oldest {x : UnitCmd} {r : List UnitCmd} (hd : (s.die (c / 128)).halted = none)
    (hu : (s.core c).unit = x :: r) (hx : x.dead = false) (hm : s.marked c x.seat x.mark x.ten x.lid x.idx = true)
    (hp : s.poison = []) :
    execSparsityCmdComplete c s =
      (let d := s.doUnit c (s.windowSize x.ten x.lid (c / 128)) (s.windowPa x.ten x.lid (c / 128) 0) x
       .next ((d.2.modCore c (fun k => { k with unit := r })).finishEngine x.ten c 9 x.num d.1)) := by
  have hclean (l : List (Nat × Nat)) (base : Nat) : firstSome (fun p => s.poisonIn (base + p.1) p.2) l = none :=
    firstSome_eq_none _ _ (fun p _ => by simp [State.poisonIn, hp])
  simp only [execSparsityCmdComplete, hu, hx, dieOf, hd, hm, hclean]
  rfl

theorem crossDieTimeout_of_access {id : Nat} {a : Acc} (hi : i < 4) (hf : (s.seat c i).findAcc id = some a)
    (hd : (s.die (c / 128)).halted = none) : execCrossDieTimeout c i id s = .next (s.accTimeout c i a) := by
  simp only [execCrossDieTimeout, dieOf, hd, hf, if_pos hi]
  rfl

theorem crossDieTimeout_of_held {id : Nat} {h : Held} (hi : i < 4) (hf : (s.seat c i).findAcc id = none)
    (hh : (s.seat c i).held = some h) (hd : (s.die (c / 128)).halted = none) :
    execCrossDieTimeout c i id s = .next (s.heldTimeout c i h) := by
  simp only [execCrossDieTimeout, dieOf, hd, hf, hh, if_pos hi]
  rfl

/-- Once the limit has passed a die that has not been reported is reported slow. -/
theorem State.timeOut_die {d sent : Nat} {t : State} (hd : (s.die (c / 128)).halted = none) (ht : sent + 1000 * s.pkg.xdto ≤ s.tbase)
    (hs : d ∉ (s.die (c / 128)).slow) :
    s.timeOut c (.die d) sent t = (t.modDie (c / 128) (fun x => { x with slow := d :: x.slow })).post (c / 128) 0x08 0xFF (c / 8 % 16)
      (c % 8) [BitVec.ofNat 64 (d + (s.tbase - sent) * 2 ^ 8)] := by
  have hslow : (s.die (c / 128)).slow.contains d = false := by simpa using hs
  simp only [State.timeOut, dieOf, hd, hslow, decide_eq_false (Nat.not_lt.2 ht)]
  rfl

/-- Once the limit has passed a module is lost. -/
theorem State.timeOut_module {m sent : Nat} {t : State} (hd : (s.die (c / 128)).halted = none)
    (ht : sent + 1000 * s.pkg.xdto ≤ s.tbase) (hm : s.moduleHeld m = false) : s.timeOut c (.module m) sent t = s.loseModule m := by
  simp only [State.timeOut, dieOf, hd, hm, decide_eq_false (Nat.not_lt.2 ht)]
  rfl

/-- The responder of an access of one part. -/
theorem responder_of_one {a : Acc} {pa : Nat} (hp : a.pas = some [pa]) :
    (((a.parts.map (responderOf (dieOf c))).find? (fun r => r != .own)).getD .own) = responderOf (c / 128) pa := by
  rw [Acc.parts_of_one hp, dieOf, List.map_cons, List.map_nil, List.find?_cons]
  split
  · rfl
  · next h => exact (by simpa using h : responderOf (c / 128) pa = .own).symm

theorem State.accTimeout_first {a : Acc} {pa : Nat} (hp : a.pas = some [pa]) (hr : responderOf (c / 128) pa ≠ .own)
    (hs : a.sent = none) (hm : (s.seat c i).mayAct a = true) (hn : a.due ≠ never) :
    s.accTimeout c i a = s.modSeat c i (fun t => t.modAcc a.id (fun x => x.send s.tbase)) := by
  have hgo : (true && a.due != never) = true := by simp [hn]
  simp only [State.accTimeout, responder_of_one hp, hs, hm, hgo, if_true]

theorem State.accTimeout_again {a : Acc} {pa t : Nat} (hp : a.pas = some [pa]) (hr : responderOf (c / 128) pa ≠ .own)
    (hs : a.sent = some t) :
    s.accTimeout c i a =
      s.timeOut c (responderOf (c / 128) pa) t (s.modSeat c i (fun t => t.modAcc a.id (fun x => x.send s.tbase))) := by
  simp only [State.accTimeout, responder_of_one hp, hs]

end

/-- Settles O44: each event where it may happen. -/
theorem walkersAndEngines : Obligations.WalkersAndEngines := by
  unfold Obligations.WalkersAndEngines
  intro s c i n
  simp only [exec]
  refine ⟨fun die ten page hd hw hl ha => walk_begins hd hw hl ha, fun die ten page w hd hw hs => walkComplete_ends hd hw hs, ?_, rfl,
    fun x r hd hu hx hm hp => sparsityCmdComplete_of_oldest hd hu hx hm hp, fun line l hl => ?_, fun id a pa hi hf hp hd => ?_,
    fun id h t d hi hf hh hd hs hr ht hsl => ?_⟩
  · simp only [execBankOpComplete, State.settleBanks]
    split <;> rfl
  · simp only [execLineWriteBack, hl, State.writeBack, State.keyAfter]
    cases l.dirty <;> rfl
  · rw [crossDieTimeout_of_access hi hf hd]
    obtain rfl := Seat.findAcc_id hf
    refine ⟨fun hr hs hm hn => ?_, fun t d hs ht hr hsl => ?_, fun t m hs ht hr hm => ?_⟩
    · rw [State.accTimeout_first hp hr hs hm hn]
    · rw [State.accTimeout_again hp (by simp [hr]) hs, hr, State.timeOut_die hd ht hsl]
    · rw [State.accTimeout_again hp (by simp [hr]) hs, hr, State.timeOut_module hd ht hm]
  · rw [crossDieTimeout_of_held hi hf hh hd]
    simp only [State.heldTimeout, hs, hr]
    rw [State.timeOut_die hd ht hsl]

end Sys2Proof.Machine
end

section
/-! The oldest commands of the index and copy engines (O45). -/

namespace Sys2Proof.Machine

set_option Elab.async false

open Sys2Proof

/-! ## The window lies above every HBM -/

theorem State.windowPa_ge (s : State) (ten lid d off : Nat) : 0x8000000000000 ≤ s.windowPa ten lid d off := by
  unfold State.windowPa poolBase
  split <;> omega

theorem placeOf_ne_hbm {pa : Nat} (h : 0x8000000000000 ≤ pa) (d : Nat) : placeOf pa ≠ .hbm d := by
  unfold placeOf
  rw [if_neg (show ¬ pa < 0x10000000000 by omega), if_neg (show ¬ pa < 0x8000000000000 by omega)]
  repeat' split
  all_goals simp

theorem State.fillLine_of_high {pa : Nat} (h : 0x8000000000000 ≤ pa) (s : State) : s.fillLine pa = s := by
  unfold State.fillLine
  split
  · next d hp => exact absurd hp (placeOf_ne_hbm h d)
  all_goals rfl

theorem State.store_of_high {pa : Nat} (h : 0x8000000000000 ≤ pa) (s : State) (n key v : Nat) :
    s.store pa n key v = { s with mem := leWrite s.mem pa n v } := by
  unfold State.store State.dirtyLine
  split
  · next d hp => exact absurd hp (placeOf_ne_hbm h d)
  all_goals rfl

/-- A range inside the strand's window on a running die without poison. -/
theorem State.engRange_pool {s : State} {e : Eng} {need : Need} {m : Mode} {off n : Nat} (hp : s.poison = [])
    (hd : (s.die (dieOf e.core)).halted = none) (hw : off + n ≤ s.windowSize e.ten e.lid (dieOf e.core)) :
    s.engRange e true need m (off : Int) n = .ok [(s.windowPa e.ten e.lid (dieOf e.core) off, n, 0)] := by
  have hin : (decide ((off : Int) < 0) || decide ((s.windowSize e.ten e.lid (dieOf e.core) : Int) < (off : Int) + n)) = false := by
    simp only [Bool.or_eq_false_iff, decide_eq_false_iff_not]
    omega
  simp only [State.engRange, if_true, State.engPool, hin, Int.toNat_natCast, State.poisonIn, hp, List.find?_nil, hd]
  rfl

theorem State.engAct_pool (s : State) (e : Eng) (need : Need) (m : Mode) (a : Int) (n : Nat) : s.engAct e true need m a n = s := rfl

/-! ## A window gather and a window scatter, lane by lane -/

/-- Whether the lanes of an index command that are in range lie in the strand's window. -/
def IdxCmd.InWindow (x : IdxCmd) (s : State) (c : Nat) : Prop :=
  ∀ l ∈ x.lanes, l.2 = true → l.1 + x.gran ≤ s.windowSize x.ten x.lid (c / 128)

/-- The granule that lane l of a window gather reads. -/
def IdxCmd.granule (x : IdxCmd) (s : State) (c l : Nat) : Nat :=
  let lane := x.lanes.getD l (0, false)
  if lane.2 then s.load (s.windowPa x.ten x.lid (c / 128) lane.1) x.gran else 0

/-- The command with its lowest n lanes gathered. -/
def IdxCmd.gatheredTo (x : IdxCmd) (s : State) (c n : Nat) : IdxCmd :=
  { x with did := (List.range n).reverse, got := (List.range n).reverse.map (fun l => (l, x.granule s c l)) }

/-- The memory after the lowest n lanes of a window scatter. -/
def IdxCmd.scatterTo (x : IdxCmd) (s : State) (c n : Nat) : State :=
  (List.range n).foldl (fun (t : State) l =>
    if (x.lanes.getD l (0, false)).2 then
      t.store (s.windowPa x.ten x.lid (c / 128) (x.lanes.getD l (0, false)).1) x.gran 0 (field x.data.toNat (8 * x.gran * l) (8 * x.gran))
    else t) s

section
variable {s : State} {c : Nat} {x : IdxCmd}

theorem IdxCmd.InWindow.lane (h : x.InWindow s c) {l : Nat} (hon : (x.lanes.getD l (0, false)).2 = true) :
    (x.lanes.getD l (0, false)).1 + x.gran ≤ s.windowSize x.ten x.lid (c / 128) := by
  refine h _ ?_ hon
  rw [List.getD_eq_getElem?_getD] at hon ⊢
  cases hl : x.lanes[l]? with
  | none => simp [hl] at hon
  | some p => exact List.mem_of_getElem? hl

theorem IdxRun.gather_next (hg : x.glob = false) (hp : s.poison = []) (hd : (s.die (c / 128)).halted = none) (hw : x.InWindow s c)
    {n : Nat} (hn : n < x.lanes.length) :
    IdxRun.gather c ⟨s, x.gatheredTo s c n, none⟩ n = ⟨s, x.gatheredTo s c (n + 1), none⟩ := by
  have hdid : (x.gatheredTo s c n).did.contains n = false := by simp [IdxCmd.gatheredTo]
  have hnext : x.gatheredTo s c (n + 1) =
      { x with did := n :: (List.range n).reverse, got := (n, x.granule s c n) :: (List.range n).reverse.map (fun l => (l, x.granule s c l)) } := by
    simp [IdxCmd.gatheredTo, List.range_succ]
  have hlanes : (x.gatheredTo s c n).lanes = x.lanes := rfl
  rw [hnext]
  by_cases hon : (x.lanes.getD n (0, false)).2 = true
  · have hrange := State.engRange_pool (e := (x.gatheredTo s c n).eng c) (need := .read) (m := 0) hp hd (hw.lane hon)
    have hglob : (!(x.gatheredTo s c n).glob) = true := by simp [IdxCmd.gatheredTo, hg]
    have hgran : (x.gatheredTo s c n).gran = x.gran := rfl
    simp only [IdxRun.gather, Option.isSome_none, decide_eq_false (Nat.not_le.2 hn), hdid, hlanes, hon, hglob, hgran, hrange,
      State.engAct_pool, State.partsFill, List.map_cons, List.map_nil, List.foldl_cons, List.foldl_nil,
      State.fillLine_of_high (s.windowPa_ge ..), IdxCmd.granule, State.partsVal]
    rfl
  · simp only [IdxRun.gather, Option.isSome_none, decide_eq_false (Nat.not_le.2 hn), hdid, hlanes, hon, IdxCmd.granule]
    rfl

theorem IdxRun.gather_range (hg : x.glob = false) (hp : s.poison = []) (hd : (s.die (c / 128)).halted = none) (hw : x.InWindow s c)
    (h0 : x.did = [] ∧ x.got = []) {n : Nat} (hn : n ≤ x.lanes.length) :
    (List.range n).foldl (IdxRun.gather c) ⟨s, x, none⟩ = ⟨s, x.gatheredTo s c n, none⟩ := by
  induction n with
  | zero =>
    have hx : x.gatheredTo s c 0 = x := by
      obtain ⟨h1, h2⟩ := h0
      cases x
      simp_all [IdxCmd.gatheredTo]
    rw [hx]
    rfl
  | succ n ih =>
    rw [List.range_succ, List.foldl_append, ih (by omega)]
    exact IdxRun.gather_next hg hp hd hw (by omega)

theorem find_graph {β : Type} (f : Nat → β) {ls : List Nat} {l : Nat} (h : l ∈ ls) :
    (ls.map (fun l => (l, f l))).find? (fun p => p.1 == l) = some (l, f l) := by
  induction ls with
  | nil => simp at h
  | cons a r ih =>
    by_cases ha : a = l
    · simp [ha]
    · simpa [ha] using ih (by simpa [Ne.symm ha] using h)

/-- What a window gather returns: the granules of its lanes. -/
theorem IdxCmd.gathered_all {y : IdxCmd} (hl : y.lanes = x.lanes) (hg : y.got = (x.gatheredTo s c x.lanes.length).got) :
    y.gathered = x.lanes.map (fun l => if l.2 then s.load (s.windowPa x.ten x.lid (c / 128) l.1) x.gran else 0) := by
  refine List.ext_getElem (by simp [IdxCmd.gathered, hl]) (fun l h1 h2 => ?_)
  have hlt : l < x.lanes.length := by simpa using h2
  simp only [IdxCmd.gathered, hl, hg, IdxCmd.gatheredTo, List.getElem_map, List.getElem_range]
  rw [find_graph _ (by simpa using hlt)]
  simp [IdxCmd.granule, hlt]

/-! ### Scatters -/

/-- The command with its lowest n lanes scattered. -/
def IdxCmd.scatteredTo (x : IdxCmd) (n : Nat) : IdxCmd := { x with did := (List.range n).reverse }

theorem IdxCmd.scatterTo_succ (n : Nat) :
    x.scatterTo s c (n + 1) = if (x.lanes.getD n (0, false)).2 then
      (x.scatterTo s c n).store (s.windowPa x.ten x.lid (c / 128) (x.lanes.getD n (0, false)).1) x.gran 0
        (field x.data.toNat (8 * x.gran * n) (8 * x.gran)) else x.scatterTo s c n := by
  rw [IdxCmd.scatterTo, List.range_succ, List.foldl_append]
  rfl

/-- A window scatter changes nothing but memory. -/
theorem IdxCmd.scatterTo_eq (n : Nat) : ∃ m, x.scatterTo s c n = { s with mem := m } := by
  induction n with
  | zero => exact ⟨s.mem, rfl⟩
  | succ n ih =>
    obtain ⟨m, h⟩ := ih
    rw [IdxCmd.scatterTo_succ, h]
    split
    · exact ⟨_, State.store_of_high (s.windowPa_ge ..) ..⟩
    · exact ⟨m, rfl⟩

theorem IdxRun.scatter_next (hg : x.glob = false) (hp : s.poison = []) (hd : (s.die (c / 128)).halted = none) (hw : x.InWindow s c)
    {n : Nat} (hn : n < x.lanes.length) :
    IdxRun.scatter c ⟨x.scatterTo s c n, x.scatteredTo n, none⟩ n = ⟨x.scatterTo s c (n + 1), x.scatteredTo (n + 1), none⟩ := by
  have hnext : x.scatteredTo (n + 1) = { x with did := n :: (List.range n).reverse } := by simp [IdxCmd.scatteredTo, List.range_succ]
  have hturn : (decide (n ≠ (x.scatteredTo n).did.length)) = false := by simp [IdxCmd.scatteredTo]
  have hlanes : (x.scatteredTo n).lanes = x.lanes := rfl
  rw [hnext, IdxCmd.scatterTo_succ]
  by_cases hon : (x.lanes.getD n (0, false)).2 = true
  · obtain ⟨m, hm⟩ := IdxCmd.scatterTo_eq (s := s) (c := c) (x := x) n
    have hrange := State.engRange_pool (s := { s with mem := m }) (e := (x.scatteredTo n).eng c) (need := .write) (m := 2) hp hd
      (hw.lane hon)
    have hglob : (!(x.scatteredTo n).glob) = true := by simp [IdxCmd.scatteredTo, hg]
    have hgran : (x.scatteredTo n).gran = x.gran := rfl
    have hdata : (x.scatteredTo n).data = x.data := rfl
    have hmod (a b : Nat) : field a b (8 * x.gran) % 2 ^ (8 * x.gran) = field a b (8 * x.gran) := Nat.mod_mod ..
    rw [hm]
    simp only [IdxRun.scatter, Option.isSome_none, decide_eq_false (Nat.not_le.2 hn), hturn, hlanes, hon, hglob, hgran, hdata, hrange,
      State.engAct_pool, State.partsStore, hmod]
    rfl
  · simp only [IdxRun.scatter, Option.isSome_none, decide_eq_false (Nat.not_le.2 hn), hturn, hlanes, hon]
    rfl

theorem IdxRun.scatter_range (hg : x.glob = false) (hp : s.poison = []) (hd : (s.die (c / 128)).halted = none) (hw : x.InWindow s c)
    (h0 : x.did = []) {n : Nat} (hn : n ≤ x.lanes.length) :
    (List.range n).foldl (IdxRun.scatter c) ⟨s, x, none⟩ = ⟨x.scatterTo s c n, x.scatteredTo n, none⟩ := by
  induction n with
  | zero =>
    have hx : x.scatteredTo 0 = x := by
      cases x
      simp_all [IdxCmd.scatteredTo]
    rw [hx]
    rfl
  | succ n ih =>
    rw [List.range_succ, List.foldl_append, ih (by omega)]
    exact IdxRun.scatter_next hg hp hd hw (by omega)

theorem zipIdx_eq_range {α : Type} (l : List α) (d : α) : l.zipIdx = (List.range l.length).map (fun k => (l.getD k d, k)) := by
  refine List.ext_getElem (by simp) (fun k h1 h2 => ?_)
  have hk : k < l.length := by simpa using h1
  simp [hk]

/-- The lanes of a window scatter, as a walk over the list of its lanes. -/
theorem IdxCmd.scatterTo_all :
    x.scatterTo s c x.lanes.length = x.lanes.zipIdx.foldl (fun (t : State) p => if p.1.2 then
      t.store (s.windowPa x.ten x.lid (c / 128) p.1.1) x.gran 0 (x.data.toNat / 2 ^ (8 * x.gran * p.2) % 2 ^ (8 * x.gran)) else t) s := by
  rw [zipIdx_eq_range x.lanes (0, false), List.foldl_map]
  rfl

end

/-! ## The index engine's events -/

section
variable {s : State} {c i : Nat} {x : IdxCmd}

/-- A command of an index engine that may run goes through its lanes. -/
theorem State.completeIdx_of_ready {order : List Nat} {gathers : Bool} (hf : (s.core c).idx.find? (fun y => y.seat == i) = some x)
    (hs : x.stuck = none) (hx : x.dead = false) (hd : (s.die (c / 128)).halted = none)
    (hm : s.marked c i x.mark x.ten x.lid x.idx = true) (hg : (x.op == 0) = gathers)
    (ho : (order.isEmpty && decide ((s.core c).now < x.pushed + s.gatherLat c x)) = false) (hstop : (x.run s c order).stop = none) :
    s.completeIdx c i gathers order =
      (let r := x.run s c order
       let y := { r.x with waits := none, ask := none }
       if !order.isEmpty then r.s.modCore c (fun k => k.keepIdx i y)
        else
          let t := (r.s.releaseCmd (x.eng c).cmd).modCore c (fun k => { k with idx := dropFirst (fun y => y.seat == i) k.idx })
          let t := if gathers && (t.seat c i).runs x.ten x.lid x.idx then
              t.modSeat c i (fun t => { t with dataq := t.dataq ++ [BitVec.ofNat 2048 (packList (8 * x.gran) y.gathered)] })
            else t
          (t.idxLosses c x y.lost).finishEngine x.ten c 8 x.num y.status) := by
  have hgo : ((x.op == 0) != gathers || x.stuck.isSome || x.dead || (s.die (dieOf c)).halted.isSome
      || !s.marked c i x.mark x.ten x.lid x.idx || (order.isEmpty && decide ((s.core c).now < x.pushed + s.gatherLat c x))) = false := by
    simp only [hg, bne_self_eq_false, hs, hx, dieOf, hd, hm, ho]
    rfl
  simp only [State.completeIdx, hf, hgo, hstop, waitNote]
  rfl

theorem IdxCmd.run_of_order (s : State) (c : Nat) {order : List Nat} (ho : order ≠ []) :
    x.run s c order =
      order.foldl (if x.op = 0 then IdxRun.gather c else if x.op = 1 then IdxRun.scatter c else IdxRun.add c) ⟨s, x, none⟩ := by
  have hne : order.isEmpty = false := by simpa using ho
  simp only [IdxCmd.run, hne]
  rfl

theorem State.completeIdx_of_order {order : List Nat} {gathers : Bool} (hf : (s.core c).idx.find? (fun y => y.seat == i) = some x)
    (hs : x.stuck = none) (hx : x.dead = false) (hd : (s.die (c / 128)).halted = none)
    (hm : s.marked c i x.mark x.ten x.lid x.idx = true) (hg : (x.op == 0) = gathers) (ho : order ≠ [])
    (hstop : (x.run s c order).stop = none) :
    s.completeIdx c i gathers order =
      (x.run s c order).s.modCore c (fun k => k.keepIdx i { (x.run s c order).x with waits := none, ask := none }) := by
  have hne : order.isEmpty = false := by simpa using ho
  rw [State.completeIdx_of_ready hf hs hx hd hm hg (by simp [hne]) hstop]
  simp [hne]

theorem State.seat_releaseCmd_idx (s : State) (cmd c i : Nat) (l : List IdxCmd → List IdxCmd) :
    ((s.releaseCmd cmd).modCore c (fun k => { k with idx := l k.idx })).seat c i = s.seat c i := by
  rw [State.seat_modCore_of_seats (by rfl)]
  rfl

/-- A gather from the window completes in one run. -/
theorem State.completeIdx_gather (hf : (s.core c).idx.find? (fun y => y.seat == i) = some x)
    (hs : x.stuck = none) (hx : x.dead = false) (hd : (s.die (c / 128)).halted = none)
    (hm : s.marked c i x.mark x.ten x.lid x.idx = true) (hg : x.glob = false) (h0 : x.did = [] ∧ x.got = []) (hl : x.lost = [])
    (hst : x.status = 0) (hpush : x.pushed ≤ (s.core c).now) (hp : s.poison = []) (hw : x.InWindow s c) (hop : x.op = 0)
    (hr : (s.seat c i).runs x.ten x.lid x.idx = true) :
    s.completeIdx c i true [] =
      (((s.releaseCmd (x.eng c).cmd).modCore c (fun k => { k with idx := dropFirst (fun y => y.seat == i) k.idx })).modSeat c i
        (fun t => { t with dataq := t.dataq ++ [BitVec.ofNat 2048 (packList (8 * x.gran)
          (x.lanes.map (fun l => if l.2 then s.load (s.windowPa x.ten x.lid (c / 128) l.1) x.gran else 0)))] })).finishEngine
        x.ten c 8 x.num 0 := by
  have hrun : x.run s c [] = ⟨s, x.gatheredTo s c x.lanes.length, none⟩ := by
    have hcount : x.count = x.lanes.length := by simp [IdxCmd.count, hop]
    simp only [IdxCmd.run, List.isEmpty_nil, if_true, hop, hcount]
    exact IdxRun.gather_range hg hp hd hw h0 (Nat.le_refl _)
  have hlat : s.gatherLat c x = 0 := by simp [State.gatherLat, hg]
  rw [State.completeIdx_of_ready hf hs hx hd hm (by simp [hop]) (by simp [hlat, hpush]) (by rw [hrun])]
  have hall : IdxCmd.gathered { x.gatheredTo s c x.lanes.length with waits := none, ask := none } = _ :=
    IdxCmd.gathered_all (x := x) (s := s) (c := c) rfl rfl
  have hlost : (x.gatheredTo s c x.lanes.length).lost = [] := hl
  have hstatus : (x.gatheredTo s c x.lanes.length).status = 0 := hst
  simp only [hrun, List.isEmpty_nil, Bool.not_true, Bool.false_eq_true, if_false, Bool.true_and, State.seat_releaseCmd_idx, hr, if_true]
  simp only [] at hall
  simp only [hall]
  simp only [hlost, hstatus, State.idxLosses, List.foldl_nil]

/-- A scatter into the window completes in one run. -/
theorem State.completeIdx_scatter (hf : (s.core c).idx.find? (fun y => y.seat == i) = some x)
    (hs : x.stuck = none) (hx : x.dead = false) (hd : (s.die (c / 128)).halted = none)
    (hm : s.marked c i x.mark x.ten x.lid x.idx = true) (hg : x.glob = false) (h0 : x.did = []) (hl : x.lost = [])
    (hst : x.status = 0) (hpush : x.pushed ≤ (s.core c).now) (hp : s.poison = []) (hw : x.InWindow s c) (hop : x.op = 1) :
    s.completeIdx c i false [] =
      (((x.scatterTo s c x.lanes.length).releaseCmd (x.eng c).cmd).modCore c (fun k =>
        { k with idx := dropFirst (fun y => y.seat == i) k.idx })).finishEngine x.ten c 8 x.num 0 := by
  have hrun : x.run s c [] = ⟨x.scatterTo s c x.lanes.length, x.scatteredTo x.lanes.length, none⟩ := by
    have hcount : x.count = x.lanes.length := by simp [IdxCmd.count, hop]
    simp only [IdxCmd.run, List.isEmpty_nil, if_true, hop, hcount]
    exact IdxRun.scatter_range hg hp hd hw h0 (Nat.le_refl _)
  have hlat : s.gatherLat c x = 0 := by simp [State.gatherLat, hop]
  rw [State.completeIdx_of_ready hf hs hx hd hm (by simp [hop]) (by simp [hlat, hpush]) (by rw [hrun])]
  simp only [hrun, List.isEmpty_nil, Bool.not_true, Bool.false_eq_true, if_false, Bool.false_and]
  simp only [IdxCmd.scatteredTo, hl, hst, State.idxLosses, List.foldl_nil]

end

/-! ## Copies -/

section
variable {s : State} {c ch : Nat} {x : CopyCmd} {r : List CopyCmd} {order : List Nat}

/-- What the end of a strand's copy does, its tile's counting first. -/
def State.copyEnds (c ch : Nat) (e : Eng) (p : CopyRun) (n : Nat) : State :=
  let y : CopyCmd := { p.x with waits := none, ask := none }
  let t := p.s.modCore c (fun k => { k with mx := k.mx.fillTile ch y true })
  if (t.core c).mx.counted ch y then
    (((t.modCore c (fun k => k.modChan ch List.tail)).releaseCmd e.cmd).finishEngine y.ten c ch y.num n).finishCopy y n
  else t.modCore c (fun k => k.modChan ch (fun l => { y with ended := some n } :: l.tail))

theorem State.endChan_eq {e : Eng} {p : CopyRun} {n : Nat} (h : n ≠ 0 ∨ p.x.inc = 0) :
    p.s.endChan c ch e { p.x with waits := none, ask := none } n = State.copyEnds c ch e p n := by
  have hsig (t : State) : t.signalCopy { p.x with waits := none, ask := none } n = (n, t) := by
    have hinc : CopyCmd.inc { p.x with waits := none, ask := none } = p.x.inc := rfl
    simp only [State.signalCopy, hinc]
    rcases h with h | h <;> simp [h]
  simp only [State.endChan, State.copyEnds, hsig, Bool.not_eq_true', ← Bool.not_eq_true, ite_not]

theorem State.runCopy_of_stop_none {e : Eng} (hx : x.status = 0 ∧ x.ended = none) (h : (s.copyMoves e x order).stop = none) :
    s.runCopy e x order = ((s.copyMoves e x order).s, { (s.copyMoves e x order).x with waits := none, ask := none },
      if order.isEmpty then some 0 else none) := by
  obtain ⟨h1, h2⟩ := hx
  have hgo : (x.ended.isSome || decide (x.status ≠ 0)) = false := by simp [h1, h2]
  simp only [State.runCopy, hgo, h, waitNote]
  rfl

theorem State.runCopy_of_status {e : Eng} {n : Nat} (hx : x.status = 0 ∧ x.ended = none)
    (h : (s.copyMoves e x order).stop = some (.status n)) :
    s.runCopy e x order = ((s.copyMoves e x order).s, { (s.copyMoves e x order).x with waits := none, ask := none }, some n) := by
  obtain ⟨h1, h2⟩ := hx
  have hgo : (x.ended.isSome || decide (x.status ≠ 0)) = false := by simp [h1, h2]
  simp only [State.runCopy, hgo, h, waitNote]
  rfl

theorem State.completeChan_of_ready (hc : tget (s.core c).chans [] ch = x :: r) (hs : x.stuck = none) (hx : x.dead = false)
    (hd : (s.die (c / 128)).halted = none) (hm : s.marked c x.seat x.mark x.ten x.lid x.idx = true) :
    s.completeChan c ch order =
      (match s.runCopy ⟨c, x.ten, x.lid, x.idx, 16 * c + 4 + ch, x.num, x.gone, x.ask⟩ x order with
      | (s, y, none) => s.modCore c (fun k =>
          let k := k.modChan ch (fun l => y :: l.tail)
          { k with mx := if y.left.isEmpty then k.mx.fillTile ch y false else k.mx })
      | (s, y, some st) => s.endChan c ch ⟨c, x.ten, x.lid, x.idx, 16 * c + 4 + ch, x.num, x.gone, x.ask⟩ y st) := by
  have hgo : (x.stuck.isSome || x.dead || (s.die (dieOf c)).halted.isSome || !s.marked c x.seat x.mark x.ten x.lid x.idx) = false := by
    simp only [hs, hx, dieOf, hd, hm]
    rfl
  simp only [State.completeChan, hc, hgo]
  rfl

theorem State.completeQueued_of_done {ten : Nat} {p : CopyRun} (hd : (s.die 0).halted = none) (hq : s.qcopies = x :: r)
    (ht : x.ten = ten) (hs : x.stuck = none) (hx : x.dead = false) (hgo : x.status = 0 ∧ x.ended = none) (hinc : x.inc = 0)
    (hp : s.copyMoves ⟨0, ten, 0, 0, 8192, x.num, x.gone, x.ask⟩ x [] = p) (hstop : p.stop = none) (hsame : p.s.qcopies = s.qcopies) :
    s.completeQueued ten 0 [] =
      { p.s.releaseCmd (1 + x.num * 16384 + 8192) with qcopies := r }.finishCopy x 0 := by
  subst hp
  have hhead : (s.qcopies.filter (fun x => x.ten == ten))[0]? = some x := by simp [hq, ht]
  have hmay : (x.stuck.isSome || x.dead || (s.die 0).halted.isSome) = false := by
    simp only [hs, hx, hd]
    rfl
  have hsig (t : State) : t.signalCopy x 0 = (0, t) := by simp [State.signalCopy, hinc]
  have hdrop : dropFirst (fun y : CopyCmd => y.ten == ten && y.num == x.num) (x :: r) = r := by simp [dropFirst, ht]
  simp only [State.completeQueued, hhead, hmay, State.runCopy_of_stop_none hgo hstop, List.isEmpty_nil, if_true, hsig]
  simp only [Bool.false_eq_true, if_false, State.releaseCmd, hsame, hq, hdrop, Eng.cmd]

end

/-- Settles O45: the index engine's command is `completeIdx_of_ready`, the copy's `completeChan_of_ready`. -/
theorem engineCommandsComplete : Obligations.EngineCommandsComplete := by
  unfold Obligations.EngineCommandsComplete
  intro s c i order hd
  simp only [exec]
  refine ⟨fun x hf hs hx hm => ⟨fun ho hstop hop => ?_, fun hg h1 h2 hl hst hpush hp hw => ⟨fun hop hr _ => ?_, fun hop => ?_⟩⟩,
    fun ch x r hc hs hx hm hst hend => ⟨fun p ho hp hstop hleft => ?_, fun p hp hinc hstop => ?_, fun p n hp hstop hn => ?_⟩,
    fun ten x r p hd0 hq ht hs hx hst hend hinc hp hstop hsame => ?_⟩
  · rw [← IdxCmd.run_of_order s c ho] at hstop ⊢
    have hend {gathers : Bool} (hg : (x.op == 0) = gathers) := State.completeIdx_of_order hf hs hx hd hm hg ho hstop
    by_cases h0 : x.op = 0
    · rw [if_pos h0]
      exact congrArg _ (hend (by simp [h0]))
    · rw [if_neg h0]
      exact congrArg _ (hend (by simp [h0]))
  · rw [execGatherArrive, State.completeIdx_gather hf hs hx hd hm hg ⟨h1, h2⟩ hl hst hpush hp hw hop hr]
    rfl
  · rw [execScatterComplete, State.completeIdx_scatter hf hs hx hd hm hg h1 hl hst hpush hp hw hop, IdxCmd.scatterTo_all]
    rfl
  · subst hp
    have hne : order.isEmpty = false := by simpa using ho
    have hl : (CopyCmd.left { (s.copyMoves ⟨c, x.ten, x.lid, x.idx, 16 * c + 4 + ch, x.num, x.gone, x.ask⟩ x order).x with
        waits := none, ask := none }).isEmpty = false := List.isEmpty_eq_false_iff.2 hleft
    rw [execCopyComplete, State.completeChan_of_ready hc hs hx hd hm, State.runCopy_of_stop_none ⟨hst, hend⟩ hstop]
    simp only [hne, Bool.false_eq_true, if_false, hl]
  · subst hp
    rw [execCopyComplete, State.completeChan_of_ready hc hs hx hd hm, State.runCopy_of_stop_none ⟨hst, hend⟩ hstop]
    exact congrArg _ (State.endChan_eq (.inr hinc))
  · subst hp
    rw [execCopyComplete, State.completeChan_of_ready hc hs hx hd hm, State.runCopy_of_status ⟨hst, hend⟩ hstop]
    exact congrArg _ (State.endChan_eq (.inl hn))
  · rw [execCopyComplete, State.completeQueued_of_done hd0 hq ht hs hx ⟨hst, hend⟩ hinc hp hstop hsame]

end Sys2Proof.Machine
end

section
/-! What ends the waits of seats: semaphores, phases and barriers (O46). -/

namespace Sys2Proof.Machine

set_option Elab.async false

open Sys2Proof

/-! ## Semaphores -/

section
variable {s : State} {c n i v : Nat}

theorem State.trySeat_idle (hw : (s.seat c i).wait = none) (hb : (s.seat c i).bcw = .none) : s.trySeat c n i = s := by
  simp only [State.trySeat, hw, hb]

/-- The core once a wait of seat i on a semaphore has completed. -/
def Core.waited (k : Core) (n v i : Nat) : Core := { k.setSem n (k.semVal n - v) with semLast := tset k.semLast 0 n (i + 1) }

theorem State.trySeat_completes (hw : (s.seat c i).wait = some (.sem n v)) (hv : v ≤ (s.core c).semVal n) :
    s.trySeat c n i = (s.setCore c ((s.core c).waited n v i)).modSeat c i (fun t => { t with wait := none }) := by
  simp only [State.trySeat, hw, Core.tryWait, if_pos hv, if_true]
  rfl

theorem Core.semVal_waited {k : Core} (hv : v ≤ k.semVal n) : (k.waited n v i).semVal n + v = k.semVal n := by
  have h := tryWait_eq_some (k := k) (n := n) (v := v) (k' := k.setSem n (k.semVal n - v)) (by rw [Core.tryWait, if_pos hv])
  exact h.1

theorem byOrder_filter_none {p : Rec → Bool} {l : List Rec} (h : ∀ r ∈ l, p r = false) : byOrder (l.filter p) = [] := by
  rw [List.filter_eq_nil_iff.2 (fun r hr => by simp [h r hr])]
  rfl

end

/-- The wait of the seat whose turn it is completes, and the others have none. -/
theorem State.semComplete_of_turn {s : State} {c n j v : Nat} (hrec : ∀ r ∈ (s.die (c / 128)).recs, ∀ ten, r.waitsSem c ten n = false)
    (hj : tget (s.core c).semLast 0 n % 4 = j) (hw : (s.seat c j).wait = some (.sem n v)) (hv : v ≤ (s.core c).semVal n)
    (hidle : ∀ j', j' < 4 → j' ≠ j → (s.seat c j').wait = none ∧ (s.seat c j').bcw = .none) :
    s.semComplete c n = (s.setCore c ((s.core c).waited n v j)).modSeat c j (fun t => { t with wait := none }) := by
  generalize ht : (s.setCore c ((s.core c).waited n v j)).modSeat c j (fun t => { t with wait := none }) = t
  have hseat (k : Nat) (hk : k ≠ j) : t.seat c k = s.seat c k := by
    rw [← ht, State.seat_modSeat, if_neg (by simp [hk]), State.seat, State.core_setCore, if_pos rfl]
    rfl
  have hskip (k : Nat) (hk : k % 4 ≠ j) : t.trySeat c n (k % 4) = t := by
    obtain ⟨h1, h2⟩ := hidle (k % 4) (Nat.mod_lt _ (by omega)) hk
    exact State.trySeat_idle (by rw [hseat _ hk, h1]) (by rw [hseat _ hk, h2])
  have hfirst : s.trySeat c n (tget (s.core c).semLast 0 n % 4) = t := by rw [hj, State.trySeat_completes hw hv, ht]
  have hrecs : (t.die (dieOf c)).recs = (s.die (c / 128)).recs := by rw [← ht]; rfl
  simp only [State.semComplete, hfirst]
  rw [hskip _ (by omega), hskip _ (by omega), hskip _ (by omega)]
  split
  · rfl
  · next ten _ =>
    rw [hrecs, byOrder_filter_none (fun r hr => hrec r hr ten)]
    rfl

/-! ## Phases of a pod -/

theorem State.podArrived_of {s : State} {ten : Nat}
    (hall : ∀ x ∈ s.launches, x.ten = ten → x.dom = 5 → x.started = true → x.noneMissing 0 = true)
    (hany : ∃ x ∈ s.launches, x.ten = ten ∧ x.dom = 5 ∧ x.started = true ∧ 0 < x.here 0) : s.podArrived ten = true := by
  obtain ⟨x, hx, h1, h2, h3, h4⟩ := hany
  simp only [State.podArrived, State.podLaunches, Bool.and_eq_true, List.all_eq_true, List.any_eq_true, List.mem_filter, beq_iff_eq,
    decide_eq_true_eq]
  exact ⟨fun y ⟨hy, ⟨hy1, hy2⟩, hy3⟩ => hall y hy hy1 hy2 hy3, x, ⟨hx, ⟨h1, h2⟩, h3⟩, h4⟩

theorem podPeers_of {members : Word} {mine : Nat} {peers : List (Nat × Word)}
    (h : ∀ m, m < 64 → members.getLsbD m = true → m ≠ mine → ∃ v, (m, v) ∈ peers) :
    (List.range 64).all (fun m => !bitAt members.toNat m || m == mine || peers.any (fun p => p.1 == m)) = true := by
  simp only [List.all_eq_true, List.mem_range, Bool.or_eq_true, Bool.not_eq_true', beq_iff_eq, List.any_eq_true, bitAt_testBit]
  intro m hm
  by_cases hmem : members.toNat.testBit m = true
  · by_cases hmine : m = mine
    · exact .inl (.inr hmine)
    · obtain ⟨v, hv⟩ := h m hm hmem hmine
      exact .inr ⟨(m, v), hv, rfl⟩
  · exact .inl (.inl (by simpa using hmem))

theorem podPhaseRelease_of_arrived {s t : State} {ten lid ch : Nat} {l : Launch} {peers : List (Nat × Word)}
    (ht : s.eachSeat State.arrivePhase = t) (hl : t.launch ten lid = some l) (hch : t.podChannel ten = some ch) (hdom : l.dom = 5)
    (hst : l.started = true) (hall : ∀ x ∈ t.launches, x.ten = ten → x.dom = 5 → x.started = true → x.noneMissing 0 = true)
    (hany : ∃ x ∈ t.launches, x.ten = ten ∧ x.dom = 5 ∧ x.started = true ∧ 0 < x.here 0) (hok : t.homeOne (t.podPa l ch) 0 = .ok)
    (hpeers : ∀ m, m < 64 → (tget t.pkg.pod 0 (2 * ch + 1)).getLsbD m = true → m ≠ t.pkg.lsd.toNat % 64 → ∃ v, (m, v) ∈ peers) :
    execPodPhaseRelease ten lid peers s = .next (t.podRelease l ch peers) := by
  have hmine : field t.pkg.lsd.toNat 0 6 = t.pkg.lsd.toNat % 64 := by simp [field]
  have hgo : (decide (l.dom = 5) && l.started && t.podArrived ten && (List.range 64).all (fun m =>
      !bitAt (tget t.pkg.pod 0 (2 * ch + 1)).toNat m || m == field t.pkg.lsd.toNat 0 6 || peers.any (fun p => p.1 == m))) = true := by
    rw [podPeers_of (by rw [hmine]; exact hpeers), hst, State.podArrived_of hall hany]
    simp [hdom]
  simp only [execPodPhaseRelease, ht, hl, hch, hgo, hok, if_true]

/-! ## Barriers -/

theorem Bar.passed_iff (b : Bar) {g : Nat} (hg : g < 2 ^ 32) (hb : b.gen < 2 ^ 32) :
    b.passed g = true ↔ (BitVec.ofNat 32 b.gen - BitVec.ofNat 32 g).msb = false := by
  rw [BitVec.msb_eq_false_iff_two_mul_lt, BitVec.toNat_sub, BitVec.toNat_ofNat, BitVec.toNat_ofNat, Nat.mod_eq_of_lt hg,
    Nat.mod_eq_of_lt hb, Bar.passed, decide_eq_true_eq, show b.gen + 2 ^ 32 - g = 2 ^ 32 - g + b.gen by omega]
  omega

theorem State.arriveBarr_of_performed {s : State} {c i d id x y : Nat} (hw : (s.seat c i).wait = some (.barr d id x y false))
    (hd : (s.die (c / 128)).halted = none) (ha : ∀ a ∈ (s.seat c i).accs, a.performed = true ∨ a.accepted.isSome = true) :
    s.arriveBarr c i = ((s.releaseSeat c i).modSeat c i (fun t =>
      { t with wait := some (.barr d id (s.bar id).awaits (s.bar id).rst true) })).setBar id ((s.bar id).arrive s.tbase) := by
  have hall : (s.seat c i).accs.all (fun a => a.performedAt false) = true := by
    simp only [List.all_eq_true, Acc.performedAt, Bool.not_false, Bool.true_and, Bool.or_eq_true]
    exact ha
  simp only [State.arriveBarr, hw, dieOf, hd, hall]
  rfl

theorem State.seat_setBar (s : State) (id : Nat) (b : Bar) (c i : Nat) : (s.setBar id b).seat c i = s.seat c i := rfl

section
variable {s : State} {c i d id g rst : Nat}

theorem State.endBarr_of_result (hw : (s.seat c i).wait = some (.barr d id g rst true)) {resumed : Bool} {v : Nat}
    (h : (s.bar id).result g rst resumed = some v) :
    s.endBarr c i resumed = (s.deliverLast c i ⟨.e, d⟩ v).modSeat c i (fun t => { t with wait := none }) := by
  simp only [State.endBarr, hw, h]

theorem State.endBarr_of_none (hw : (s.seat c i).wait = some (.barr d id g rst true)) {resumed : Bool}
    (h : (s.bar id).result g rst resumed = none) : s.endBarr c i resumed = s := by
  simp only [State.endBarr, hw, h]

end

/-- Settles O46: the waits of a semaphore in turn, the phases, and the barriers. -/
theorem waitsEndAndBarriersRelease : Obligations.WaitsEndAndBarriersRelease := by
  unfold Obligations.WaitsEndAndBarriersRelease
  refine ⟨fun s c i n ten lid g peers => ?_, fun s c i d id g rst hw => ?_⟩
  · simp only [exec]
    refine ⟨fun j v hrec hj hw hv hidle _ => ?_, fun l hl hdom => ?_, ?_, fun d id x y hw hd ha => ?_, fun id => ⟨rfl, fun hid => ?_⟩,
      fun id v => ?_⟩
    · refine ⟨_, rfl, ?_, ?_⟩
      · rw [State.semComplete_of_turn hrec hj hw hv hidle]
        have hcore : ((s.setCore c ((s.core c).waited n v j)).core c) = (s.core c).waited n v j := by
          rw [State.core_setCore, if_pos rfl]
        rw [Core.semVal, State.sem_modSeat, hcore]
        exact Core.semVal_waited hv
      · rw [State.semComplete_of_turn hrec hj hw hv hidle, State.seat_modSeat, if_pos ⟨rfl, rfl⟩]
    · simp only [execPhaseRelease, hl, if_neg hdom]
      rfl
    · intro l ch hl hch hdom hst hall hany hok hpeers
      exact podPhaseRelease_of_arrived rfl hl hch hdom hst hall hany hok hpeers
    · refine ⟨_, rfl, ?_⟩
      rw [State.arriveBarr_of_performed hw hd ha]
      refine ⟨?_, ?_⟩
      · exact (tget_tput ..).trans (if_pos rfl)
      · rw [State.seat_setBar, State.seat_modSeat, if_pos ⟨rfl, rfl⟩]
        rfl
    · simp only [execBarrierRelease, Option.isNone_eq_false_iff.2 hid]
      rfl
    · simp only [execBarcfgWrite, State.barWrite, bitAt_testBit]
      rfl
  · intro b passed hg hb
    refine ⟨fun hr => ?_, fun hr => ?_, fun resumed => ⟨fun hne => ?_, fun he hp => ?_, fun he hp => ?_⟩⟩
    · simp [State.takeBarr, hr]
    · simp [State.takeBarr, hr]
    · exact State.endBarr_of_result hw (by rw [Bar.result, if_pos hne])
    · refine State.endBarr_of_result hw ?_
      rw [Bar.result, if_neg (by simpa using he), if_pos ((Bar.passed_iff _ hg hb).2 hp)]
    · refine State.endBarr_of_none hw ?_
      rw [Bar.result, if_neg (by simpa using he), if_neg (fun h => hp ((Bar.passed_iff _ hg hb).1 h))]

end Sys2Proof.Machine
end

section
/-! Held bundles at their boards and CHECKED homes, and BRDCFG (O47). -/

namespace Sys2Proof.Machine

set_option Elab.async false

open Sys2Proof

theorem getLsbD_eq_bitAt (v : Word) (i : Nat) : v.getLsbD i = bitAt v.toNat i := (bitAt_testBit ..).symm

section
variable {s : State} {c i : Nat} {h : Held} {kind : Nat} {handle part value : Word}

/-- A held request that may leave is sent and, where its board's home answers, serialised. -/
theorem boardSerialise_of_ready (hh : (s.seat c i).held = some h) (hb : h.board = some (kind, handle, part, value)) (ha : h.answer = none)
    (hc : h.check = []) (hd : (s.die (c / 128)).halted = none)
    (hp : kind = 1 ∨ kind = 2 ∨ ∀ a ∈ (s.seat c i).accs, a.performedAt (handle.getLsbD 56) = true) :
    execBoardSerialise c i s =
      (let p := s.sendBoard c i h handle
       match p.2.boardHome handle with
        | .lost m => .next (p.2.answerBoard c i 5 [m])
        | .silent => .next p.2
        | _ => .next (p.2.serialise c i (s.seat c i) p.1 kind handle part value)) := by
  have hgo : ((s.die (dieOf c)).halted.isSome ||
      (decide (kind = 0) || decide (kind = 3)) && !(s.seat c i).accs.all (fun a => a.performedAt (handleFields handle).1)) = false := by
    simp only [dieOf, hd, Option.isSome_none, Bool.false_or, Bool.and_eq_false_iff, Bool.or_eq_false_iff, decide_eq_false_iff_not,
      Bool.not_eq_false', List.all_eq_true]
    rcases hp with rfl | rfl | hp
    · exact .inl (by decide)
    · exact .inl (by decide)
    · exact .inr (fun a ha => by rw [← hp a ha, getLsbD_eq_bitAt]; rfl)
  simp only [execBoardSerialise, hh, hb, ha, hc, hgo]
  rfl

/-- A reply whose time has come. -/
theorem boardReply_of_due {reason : Nat} {vals : List Nat} (hh : (s.seat c i).held = some h)
    (hb : h.board = some (kind, handle, part, value)) (ha : h.answer = some (reason, vals)) (hdue : h.due ≤ (s.core c).now)
    (hd : (s.die (c / 128)).halted = none) (hi : s.iss = none) :
    execBoardReply c i s =
      (let t := match boardTarget c handle with
        | none => s
        | some d => s.heard (c / 128) d
       .next (if reason = 0 then t.resumeHeld c i { h.iss with reply := some vals, checked := true }
        else if reason = 5 then t.failHeld c i ⟨0x0A, 3, handle.toNat, 0, vals.headD 0, false, 0⟩
        else t.failHeld c i ⟨0x0B, reason, handle.toNat, if kind = 0 ∨ kind = 2 then part.toNat else 0, vals.headD 0, false, 0⟩)) := by
  have hgo : (decide ((s.core c).now < h.due) || (s.die (dieOf c)).halted.isSome || s.iss.isSome) = false := by
    simp only [decide_eq_false (Nat.not_lt.2 hdue), dieOf, hd, hi]
    rfl
  simp only [execBoardReply, hh, hb, ha, hgo, Bool.false_eq_true, if_false, trapRec, Bool.or_eq_true, decide_eq_true_eq]
  split
  · rfl
  · split <;> rfl

theorem checkedCheck_of_head {x : Strand} {va pa n : Nat} {m : Mode} {r : List (Nat × Nat × Nat × Mode)} (hh : (s.seat c i).held = some h)
    (hx : (s.seat c i).strand = some x) (hc : h.check = (va, pa, n, m) :: r) (hp : s.homeOne pa 0 ≠ .silent)
    (hd : (s.die (c / 128)).halted = none) (hi : s.iss = none) :
    execCheckedCheck c i s =
      (let t := s.heardFrom (c / 128) pa
       match t.raceAt x.ten x.lid x.idx m pa n with
        | some q => .next (t.failHeld c i (memrace q m va))
        | none =>
          let t := t.noteAt x.ten x.lid x.idx m pa n
          let k := { h with check := r, sent := if r.isEmpty then none else h.sent, iss := { h.iss with passed := true } }
          if r.isEmpty && h.board.isNone then .next (t.resumeHeld c i { k.iss with checked := true })
          else .next (t.modSeat c i (fun t => { t with held := some k }))) := by
  have hgo : (decide (s.homeOne pa 0 = .silent) || (s.die (dieOf c)).halted.isSome || s.iss.isSome) = false := by
    simp only [decide_eq_false hp, dieOf, hd, hi]
    rfl
  simp only [execCheckedCheck, hh, hx, hc, hgo, Bool.false_eq_true, if_false]
  rfl

end

/-- Settles O47: a request at its board, its reply, a check at its home, and the writes of BRDCFG. -/
theorem heldBundlesAndBoards : Obligations.HeldBundlesAndBoards := by
  unfold Obligations.HeldBundlesAndBoards
  intro s c i
  simp only [exec]
  refine ⟨fun h kind handle part value hh hb ha hc hd hp => ?_, fun h kind handle part value reason vals hh hb ha hdue hd hi => ?_,
    fun h x va pa n m r hh hx hc hp hd hi => ⟨fun q hq => ?_, fun hq => ?_⟩, fun d b v => ⟨fun hen h63 hten => ?_, fun hen h63 hten => ?_,
    rfl, fun hen h63 => ?_⟩⟩
  · rw [boardSerialise_of_ready hh hb ha hc hd hp]
    refine ⟨fun hs => ?_, fun hok => ?_, fun hsil => ?_, fun m hl => ?_⟩
    · rw [State.sendBoard, if_pos hs]
    · simp only [hok]
    · simp only [hsil]
    · simp only [hl]
  · exact boardReply_of_due hh hb ha hdue hd hi
  · rw [checkedCheck_of_head hh hx hc hp hd hi]
    simp only [hq]
    rfl
  · rw [checkedCheck_of_head hh hx hc hp hd hi]
    simp only [hq, List.isEmpty_iff, Bool.and_eq_true, Option.isNone_iff_eq_none]
    split <;> rfl
  · have h63' : bitAt v.toNat 63 = true := by rw [← getLsbD_eq_bitAt, h63]
    have hle : ¬ 16 < field v.toNat 48 8 := Nat.not_lt.2 hten
    simp only [execBrdcfgCreate, State.boardConfig, State.boardCreate, hen, h63', if_neg hle, getLsbD_eq_bitAt]
    rfl
  · have h63' : bitAt v.toNat 63 = true := by rw [← getLsbD_eq_bitAt, h63]
    have hlt : 16 < field v.toNat 48 8 := hten
    simp only [execBrdcfgCreate, State.boardConfig, State.boardCreate, hen, h63', if_pos hlt]
    rfl
  · have h63' : bitAt v.toNat 63 = true := by rw [← getLsbD_eq_bitAt, h63]
    simp only [execBrdcfgGrant, State.boardConfig, State.modDie, hen, h63', getLsbD_eq_bitAt, Bool.and_self, Bool.not_true,
      Bool.false_eq_true, if_false, if_true]

end Sys2Proof.Machine
end

section
/-! What happens of itself on a core whose die runs (O48). -/

namespace Sys2Proof.Machine

set_option Elab.async false

open Sys2Proof

section
variable {s : State} {c i : Nat}

theorem State.not_absent_of_still (h : s.coreStill c = false) : s.iss = none ∧ (s.core c).absent = false ∧ (s.die (c / 128)).halted = none := by
  simpa [State.coreStill, dieOf, and_assoc] using h

/-! ## Issue -/

theorem State.tryWait_of_none (h : (s.seat c i).wait = none) : s.tryWait c i = (s, true) := by
  simp [State.tryWait, h]

/-- The step of a seat that nothing holds back is what its bundle's verdict asks for. -/
theorem State.issueStep_of_free {fresh : Bool} (hx : (s.seat c i).strand.isSome = true) (hf : (s.refresh c i).fpPending c i = false)
    (ho : (s.refresh c i).seatOpen c i = true) (hov : (s.refresh c i).overdue c i = false)
    (hp : ((s.refresh c i).seat c i).pend = none) (hs : ((s.refresh c i).seat c i).stalled ≤ ((s.refresh c i).core c).now)
    (hw : ((s.refresh c i).seat c i).wait = none) (hd : ((s.refresh c i).seat c i).deferred = []) :
    s.issueStep c i fresh = ((s.refresh c i).attempt c i fresh).1.carry c i ((s.refresh c i).attempt c i fresh).2 := by
  obtain ⟨x, hx⟩ := Option.isSome_iff_exists.1 hx
  simp only [State.issueStep, hx, hf, ho, hov, hp, State.tryWait_of_none hw, hd, if_neg (Nat.not_lt.2 hs)]
  rfl

theorem State.carry_issue (u : Issue) : (s.carry c i (.issue u)).iss = some { u with checked := true, sig0 := none } ∧
    (s.carry c i (.issue u)).mem = s.mem := by
  refine ⟨rfl, ?_⟩
  simp [State.carry]

theorem bundleIssue_of_running {fresh : Bool} (hc : s.coreStill c = false) (hr : (s.core c).running = some i) :
    execBundleIssue c fresh s = .next (if (s.settleSems c).outranked c i || (s.settleSems c).spent c i then s
      else ((s.settleSems c).arriveGears c).issueStep c i fresh) := by
  simp only [execBundleIssue, hc, hr]
  rfl

/-! ## Results -/

theorem State.seat_settleBanks (s : State) (c c' j : Nat) : (s.settleBanks c).seat c' j = s.seat c' j := by
  unfold State.settleBanks
  split
  · rfl
  · exact State.seat_modCore_of_seats (by rfl) ..

/-- Applying a seat's signals leaves every other seat alone. -/
theorem State.applySig_seat_of_ne (s : State) (c i : Nat) (g : Sig) {c' j : Nat} (h : ¬ (c' = c ∧ j = i)) :
    (s.applySig c i g).seat c' j = s.seat c' j := by
  have hadd : (s.semAdded c i g.sem g.inc).seat c' j = s.seat c' j := by
    rw [State.semAdded, State.seat_modCore_of_seats (by rfl), State.seat_of_cores (State.releaseSeat_cores s c i)]
  rw [State.applySig_eq]
  simp only [State.deferTrap]
  split <;> cases g.dst <;> simp only [State.seat_modSeat, if_neg h, hadd]

theorem State.settle_seat_of_ne (s : State) (c i : Nat) {c' j : Nat} (h : ¬ (c' = c ∧ j = i)) : (s.settle c i).seat c' j = s.seat c' j := by
  have hdrain (n : Nat) (s : State) : (s.drainSigs c i n).seat c' j = s.seat c' j := by
    induction n generalizing s with
    | zero => rfl
    | succ n ih =>
      unfold State.drainSigs
      split
      · rfl
      · split
        · rw [ih, State.applySig_seat_of_ne _ _ _ _ h, State.seat_modSeat, if_neg h]
        · rfl
  exact hdrain ..

theorem State.settle_now (s : State) (c i : Nat) : ((s.settle c i).core c).now = (s.core c).now := by
  obtain ⟨_, _, h⟩ := s.drainSigs_core c i (s.seat c i).sigs.length
  rw [State.settle, h]

theorem State.settle_regs (s : State) (c i : Nat) : ((s.settle c i).seat c i).regs = (s.seat c i).regs := by
  obtain ⟨_, _, _, h⟩ := s.drainSigs_seat c i (s.seat c i).sigs.length
  rw [State.settle, h]

theorem Seat.copyVec_regs (t : Seat) (x : Tenancy) : (t.copyVec x).regs = t.regs := by
  unfold Seat.copyVec
  split <;> rfl

theorem State.refresh_seat_of_ne (s : State) (c i : Nat) {c' j : Nat} (h : ¬ (c' = c ∧ j = i)) : (s.refresh c i).seat c' j = s.seat c' j := by
  simp only [State.refresh]
  rw [State.settle_seat_of_ne _ _ _ h, State.seat_settleBanks, State.seat_modSeat, if_neg h]

theorem State.refresh_regs (s : State) (c i : Nat) : ((s.refresh c i).seat c i).regs = ((s.seat c i).commit (s.core c).now).regs := by
  simp only [State.refresh]
  rw [State.settle_regs, State.seat_settleBanks, State.seat_modSeat, if_pos ⟨rfl, rfl⟩, Seat.copyVec_regs]

theorem State.refresh_now (s : State) (c i : Nat) : ((s.refresh c i).core c).now = (s.core c).now := by
  simp only [State.refresh]
  rw [State.settle_now, State.settleBanks]
  split
  · rw [State.core_modSeat, if_pos rfl]
  · rw [State.core_modCore, if_pos rfl, State.core_modSeat, if_pos rfl]
    rfl

/-- Results taken in at every seat of a list that holds a strand. -/
def State.refreshAll (s : State) (c : Nat) (l : List Nat) : State :=
  l.foldl (fun (s : State) i => if (s.seat c i).strand.isSome then s.refresh c i else s) s

theorem State.refreshAll_of_not_mem {c j : Nat} (l : List Nat) (s : State) (h : j ∉ l) :
    (s.refreshAll c l).seat c j = s.seat c j ∧ ((s.refreshAll c l).core c).now = (s.core c).now := by
  induction l generalizing s with
  | nil => exact ⟨rfl, rfl⟩
  | cons k r ih =>
    obtain ⟨hk, hr⟩ := not_or.1 (fun hj => h (List.mem_cons.2 hj))
    rw [State.refreshAll, List.foldl_cons]
    split
    · obtain ⟨h1, h2⟩ := ih (s.refresh c k) hr
      exact ⟨h1.trans (State.refresh_seat_of_ne _ _ _ (by simp [hk])), h2.trans (State.refresh_now ..)⟩
    · exact ih s hr

theorem State.refreshAll_regs {c j : Nat} (l : List Nat) (s : State) (hn : l.Nodup) (hj : j ∈ l) (hx : (s.seat c j).strand.isSome = true) :
    ((s.refreshAll c l).seat c j).regs = ((s.seat c j).commit (s.core c).now).regs := by
  induction l generalizing s with
  | nil => simp at hj
  | cons k r ih =>
    obtain ⟨hk, hr⟩ := List.nodup_cons.1 hn
    rw [State.refreshAll, List.foldl_cons]
    rcases List.mem_cons.1 hj with rfl | hj
    · rw [if_pos hx]
      obtain ⟨h1, -⟩ := State.refreshAll_of_not_mem (c := c) r (s.refresh c j) hk
      exact (congrArg Seat.regs h1).trans (State.refresh_regs ..)
    · have hne : j ≠ k := fun he => hk (he ▸ hj)
      split
      · have hseat : (s.refresh c k).seat c j = s.seat c j := State.refresh_seat_of_ne _ _ _ (by simp [hne])
        have := ih (s.refresh c k) hr hj (by rw [hseat, hx])
        rw [hseat, State.refresh_now] at this
        exact this
      · exact ih s hr hj hx

/-! ## The choice of a seat -/

/-- Of some seats with their ranks, the fold keeps one of the highest rank. -/
theorem foldl_better (l : List (Nat × Nat)) (a : Option (Nat × Nat)) {p : Nat × Nat} (h : l.foldl better a = some p) :
    (p ∈ l ∨ a = some p) ∧ (∀ q ∈ l, q.2 ≤ p.2) ∧ (∀ q, a = some q → q.2 ≤ p.2) := by
  induction l generalizing a with
  | nil =>
    obtain rfl : a = some p := h
    exact ⟨.inr rfl, by simp, fun q hq => by rw [Option.some.inj hq]⟩
  | cons b r ih =>
    obtain ⟨hmem, hr, ha⟩ := ih _ h
    cases a with
    | none =>
      have hb : b.2 ≤ p.2 := ha b rfl
      refine ⟨.inl ?_, fun q hq => ?_, by simp⟩
      · rcases hmem with hm | hm
        · exact List.mem_cons_of_mem _ hm
        · rw [← Option.some.inj hm]
          exact List.mem_cons_self
      · rcases List.mem_cons.1 hq with rfl | hq
        · exact hb
        · exact hr q hq
    | some x =>
      by_cases hlt : x.2 < b.2
      · have hb : b.2 ≤ p.2 := ha b (if_pos hlt)
        simp only [better, if_pos hlt] at hmem
        refine ⟨.inl ?_, fun q hq => ?_, fun q hq => ?_⟩
        · rcases hmem with hm | hm
          · exact List.mem_cons_of_mem _ hm
          · rw [← Option.some.inj hm]
            exact List.mem_cons_self
        · rcases List.mem_cons.1 hq with rfl | hq
          · exact hb
          · exact hr q hq
        · obtain rfl := Option.some.inj hq
          omega
      · have hx : x.2 ≤ p.2 := ha x (if_neg hlt)
        simp only [better, if_neg hlt] at hmem
        refine ⟨hmem.imp_left (List.mem_cons_of_mem _), fun q hq => ?_, fun q hq => ?_⟩
        · rcases List.mem_cons.1 hq with rfl | hq
          · omega
          · exact hr q hq
        · rw [← Option.some.inj hq]
          exact hx

/-- The seat picked is ready and of a highest rank among the ready ones. -/
theorem State.pickSeat_spec {j : Nat} (h : s.pickSeat c = some j) :
    s.seatReady c j = true ∧ ∀ j', j' < 4 → s.seatReady c j' = true → s.seatRank c j' ≤ s.seatRank c j := by
  simp only [State.pickSeat, Option.map_eq_some_iff] at h
  obtain ⟨p, hp, rfl⟩ := h
  obtain ⟨hmem, hmax, -⟩ := foldl_better _ _ hp
  obtain ⟨k, hk, rfl⟩ := List.mem_map.1 (hmem.resolve_right (by simp))
  refine ⟨(List.mem_filter.1 hk).2, fun j' hj hr => ?_⟩
  refine hmax (j', s.seatRank c j') (List.mem_map.2 ⟨j', List.mem_filter.2 ⟨?_, hr⟩, rfl⟩)
  have hcases : j' = ((s.core c).last + 1) % 4 ∨ j' = ((s.core c).last + 2) % 4 ∨ j' = ((s.core c).last + 3) % 4 ∨ j' = (s.core c).last % 4 := by
    omega
  simpa using hcases

theorem seatSwitch_of_free (hc : s.coreStill c = false) (hr : (s.core c).running = none) :
    execSeatSwitch c s =
      (if !(s.core c).gaveUp && (s.settleSems c).seatReady c (s.core c).last then
        .next ((s.settleSems c).modCore c (fun k => { k with running := some k.last, bubbled := false }))
      else if (s.core c).bubbled then
        match (s.settleSems c).pickSeat c with
        | none => .next ((s.settleSems c).idle c 1)
        | some i => .next ((s.settleSems c).runSeat c i)
      else .next (((s.settleSems c).idle c 1).modCore c (fun k => { k with bubbled := true }))) := by
  simp only [execSeatSwitch, hc, hr]
  rfl

theorem seatSwitch_of_running {j : Nat} (hc : s.coreStill c = false) (hr : (s.core c).running = some j) :
    execSeatSwitch c s = .next (if (s.settleSems c).outranked c j then (s.settleSems c).giveUp c j else s.settleSems c) := by
  simp only [execSeatSwitch, hc, hr]
  rfl

theorem State.spent_of {j : Nat} (hq : 4096 ≤ (s.seat c j).run) (hm : (s.seat c j).mode.modectl.toNat.testBit 4 = false)
    (hp : s.pinned c j = false) (ho : s.otherReady c j (s.seatRank c j) = true) : s.spent c j = true := by
  have hrun : quantum ≤ (s.seat c j).run := hq
  simp [State.spent, hrun, bitAt_testBit, hm, hp, ho]

/-! ## Gears -/

theorem Core.adoptGear_gear (k : Core) (v now : Nat) : (k.adoptGear v now).gear = min 8 v ∧ (k.adoptGear v now).gearSeen = k.gearSeen + 1 := by
  unfold Core.adoptGear
  generalize (if k.changed = some now then (k.pgear, k.oldChange) else (k.gear, k.pgear, k.changed)) = p
  simp only []
  split <;> exact ⟨rfl, rfl⟩

/-- A first change in a cycle: a value that differs begins a change. -/
theorem Core.adoptGear_of_new {k : Core} {now : Nat} (v : Nat) (h : k.changed ≠ some now) :
    (k.gear = min 8 v → (k.adoptGear v now).pgear = k.pgear ∧ (k.adoptGear v now).changed = k.changed) ∧
    (k.gear ≠ min 8 v → (k.adoptGear v now).pgear = k.gear ∧ (k.adoptGear v now).changed = some now) := by
  simp only [Core.adoptGear, if_neg h]
  exact ⟨fun hg => by simp [hg], fun hg => by simp [Ne.symm hg]⟩

/-- A further change in the same cycle counts with the first. -/
theorem Core.adoptGear_of_same {k : Core} {now : Nat} (v : Nat) (h : k.changed = some now) :
    (k.pgear = min 8 v → (k.adoptGear v now).pgear = k.oldChange.1 ∧ (k.adoptGear v now).changed = k.oldChange.2) ∧
    (k.pgear ≠ min 8 v → (k.adoptGear v now).pgear = k.pgear ∧ (k.adoptGear v now).changed = some now) := by
  simp only [Core.adoptGear, if_pos h]
  exact ⟨fun hg => by simp [hg], fun hg => by simp [Ne.symm hg]⟩

theorem bundleComplete_of_halt (hc : s.coreStill c = false) (hh : (s.seat c i).held = none) (hl : (s.seat c i).leave = some .halt)
    (hk : (s.seat c i).killed = none) (hl' : ((s.beforeSpill c i).seat c i).leave = some .halt)
    (hk' : ((s.beforeSpill c i).seat c i).killed = none) (hq : (s.beforeSpill c i).quiet c i = true) :
    execBundleComplete c i s = .next ((s.beforeSpill c i).endStrand c i 0) := by
  have h0 : (decide ((s.seat c i).leave = some .halt) && (s.seat c i).killed.isNone) = true := by simp [hl, hk]
  have h1 : (decide (((s.beforeSpill c i).seat c i).leave = some .halt) && ((s.beforeSpill c i).seat c i).killed.isNone &&
      (s.beforeSpill c i).quiet c i) = true := by simp [hl', hk', hq]
  simp only [execBundleComplete, hc, hh, Option.isSome_none, Bool.or_self, Bool.false_eq_true, if_false, h0, if_true, h1]

theorem trapEntry_of_pending {p : PendingTrap} (hc : s.coreStill c = false) (hp : (s.seat c i).pend = some p)
    (hl : (s.seat c i).loading = false) : execTrapEntry c i s = .next (s.enterTrap c i p) := by
  simp only [execTrapEntry, hc, hp, hl]
  rfl

theorem deferredTrap_of_open (hc : s.coreStill c = false) (hr : (s.core c).running = some i) (ho : s.seatOpen c i = true)
    (hp : (s.seat c i).pend = none) (hw : (s.seat c i).wait = none) (hf : (s.refresh c i).fpPending c i = false)
    (hs : (s.seat c i).stalled ≤ (s.core c).now) : execDeferredTrap c i s = .next ((s.refresh c i).takeDeferred c i) := by
  have h0 : (s.coreStill c || (s.core c).running != some i || !s.seatOpen c i || (s.seat c i).pend.isSome || (s.seat c i).wait.isSome)
      = false := by simp [hc, hr, ho, hp, hw]
  have h1 : ((s.refresh c i).fpPending c i || decide ((s.core c).now < (s.seat c i).stalled)) = false := by simp [hf, hs]
  simp only [execDeferredTrap, h0, h1, Bool.false_eq_true, if_false]

end

/-- Settles O48: issue, results, the choice of a seat, gears and traps. -/
theorem coreEvents : Obligations.CoreEvents := by
  unfold Obligations.CoreEvents
  intro s c i hc
  obtain ⟨hiss, -, hhalt⟩ := State.not_absent_of_still hc
  simp only [exec]
  refine ⟨fun fresh u s1 hr ho hs hx hf hopen hov hp hst hw hd ha => ?_, fun fresh hr hor => ?_, ⟨_, rfl, fun j hj hx => ?_⟩,
    fun hh hl hk hl' hk' hq => bundleComplete_of_halt hc hh hl hk hl' hk' hq, fun j hr hg hb hpick => ?_, fun hr hg hready => ?_,
    fun j hr hp ho => ?_, fun j hr hq hm hp ho => ?_, ?_, fun k v now => ?_, fun d v => rfl, fun p hp hl => trapEntry_of_pending hc hp hl,
    fun hr ho hp hw hf hs => deferredTrap_of_open hc hr ho hp hw hf hs⟩
  · rw [bundleIssue_of_running hc hr, ho, hs]
    refine ⟨_, rfl, ?_⟩
    simp only [Bool.or_self, Bool.false_eq_true, if_false]
    rw [State.issueStep_of_free hx hf hopen hov hp hst hw hd, ha]
    exact State.carry_issue u
  · rw [bundleIssue_of_running hc hr, if_pos (by simpa using hor)]
  · have hmem : j ∈ seatNums := by
      have : j = 0 ∨ j = 1 ∨ j = 2 ∨ j = 3 := by omega
      simpa [seatNums] using this
    exact State.refreshAll_regs seatNums s (by decide) hmem hx
  · rw [seatSwitch_of_free hc hr]
    have hno : (!(s.core c).gaveUp && (s.settleSems c).seatReady c (s.core c).last) = false := by
      rcases hg with hg | hg <;> simp [hg]
    simp only [hno, hb, hpick]
    exact ⟨rfl, State.pickSeat_spec hpick⟩
  · rw [seatSwitch_of_free hc hr, hg, hready]
    rfl
  · have hout : (s.settleSems c).outranked c j = true := by simp [State.outranked, hp, ho]
    rw [seatSwitch_of_running hc hr, if_pos hout]
    rfl
  · simp only [execQuantumExpiry, hc, hr, State.spent_of hq hm hp ho]
    rfl
  · simp only [execGearPoint, dieOf, hhalt]
    rfl
  · obtain ⟨h1, h2⟩ := Core.adoptGear_gear k v now
    exact ⟨h1, h2, fun h => Core.adoptGear_of_new v h, fun h => Core.adoptGear_of_same v h⟩

end Sys2Proof.Machine
end

section
/-! Trap entry, traps taken, and the return from a trap (O49, O50). -/

namespace Sys2Proof.Machine

set_option Elab.async false

open Sys2Proof

/-! ## Idle cycles and drains -/

@[simp] theorem Core.idle_now (k : Core) (n : Nat) : (k.idle n).now = k.now + n := by
  induction n generalizing k with
  | zero => rfl
  | succ n ih => rw [Core.idle, ih, Core.place]; simp only; omega

@[simp] theorem Core.idle_seats (k : Core) (n : Nat) : (k.idle n).seats = k.seats := by
  induction n generalizing k with
  | zero => rfl
  | succ n ih => rw [Core.idle, ih]; rfl

@[simp] theorem State.reach_cores (s : State) (now : Nat) : (s.reach now).cores = s.cores := by
  unfold State.reach
  split <;> rfl

theorem State.core_idle (s : State) (c n c' : Nat) : (s.idle c n).core c' = if c' = c then (s.core c).idle n else s.core c' := by
  rw [State.idle, State.core_of_cores (State.reach_cores ..), State.core_setCore]

@[simp] theorem State.seat_idle (s : State) (c n c' i : Nat) : (s.idle c n).seat c' i = s.seat c' i := by
  rw [State.seat, State.core_idle]
  split
  · next h => rw [Core.idle_seats, h, State.seat]
  · rfl

@[simp] theorem State.idle_now (s : State) (c n : Nat) : ((s.idle c n).core c).now = (s.core c).now + n := by
  rw [State.core_idle, if_pos rfl, Core.idle_now]

theorem State.modSeat_now (s : State) (c i : Nat) (f : Seat → Seat) : ((s.modSeat c i f).core c).now = (s.core c).now := by
  rw [State.core_modSeat, if_pos rfl]

theorem State.settleBanks_now (s : State) (c : Nat) : ((s.settleBanks c).core c).now = (s.core c).now := by
  unfold State.settleBanks
  split
  · rfl
  · rw [State.core_modCore, if_pos rfl]
    rfl

theorem State.settleBy_now (s : State) (c i last : Nat) : ((s.settleBy c i last).core c).now = max (s.core c).now last := by
  simp only [State.settleBy]
  rw [State.settleBanks_now, State.modSeat_now]
  split
  · rw [State.idle_now]
    omega
  · omega

theorem State.drain_now (s : State) (c i : Nat) : ((s.drain c i).core c).now = max (s.core c).now (s.lastOf c i) := State.settleBy_now ..

/-! ## The earliest of some traps -/

theorem earliest_spec {l : List TrapRec} {x : TrapRec} (h : earliest l = some x) : x ∈ l ∧ ∀ y ∈ l, x.seq ≤ y.seq := by
  induction l generalizing x with
  | nil => simp [earliest] at h
  | cons r rs ih =>
    rw [earliest] at h
    split at h
    · next hn =>
      obtain rfl := Option.some.inj h
      have hrs : rs = [] := by
        cases rs with
        | nil => rfl
        | cons q qs =>
          rw [earliest] at hn
          split at hn
          · simp at hn
          · split at hn <;> simp at hn
      simp [hrs]
    · next q hq =>
      obtain ⟨hm, hle⟩ := ih hq
      split at h
      · next hlt =>
        obtain rfl := Option.some.inj h
        exact ⟨List.mem_cons_of_mem _ hm, List.forall_mem_cons.2 ⟨by omega, hle⟩⟩
      · next hlt =>
        obtain rfl := Option.some.inj h
        exact ⟨List.mem_cons_self, List.forall_mem_cons.2 ⟨Nat.le_refl _, fun y hy => Nat.le_trans (by omega) (hle y hy)⟩⟩

/-! ## What an entry reports -/

theorem Seat.reports_precise {t : Seat} {p : PendingTrap} (hd : p.rcd.defer = false) (hr : p.redo = none) :
    t.reports p = (p, false, t.deferred) := by
  simp [Seat.reports, hd, hr]

theorem Seat.reports_earliest {t : Seat} {p : PendingTrap} {r : TrapRec} (h : p.rcd.defer = true ∨ p.redo.isSome = true)
    (he : earliest (if p.rcd.defer then p.rcd :: t.deferred else t.deferred) = some r) :
    t.reports p = ({ p with rcd := r, tpc := p.redo.getD p.tpc },
      decide (1 < (if p.rcd.defer then p.rcd :: t.deferred else t.deferred).length), []) := by
  have h' : (p.rcd.defer || p.redo.isSome) = true := by simpa using h
  simp only [Seat.reports, h', he]

theorem Seat.reports_alone {t : Seat} {p : PendingTrap} (hd : p.rcd.defer = false) (ht : t.deferred = []) :
    t.reports p = (p, false, []) := by
  simp [Seat.reports, hd, ht, earliest]

theorem Seat.reports_dly (t : Seat) (p : PendingTrap) : (t.reports p).1.dly = p.dly := by
  simp only [Seat.reports]
  split <;> rfl

/-- The word of a trap's cause with its two bits. -/
def causeWord (cause : Nat) (defer multi : Bool) : Word :=
  BitVec.ofNat 64 (cause + (if defer then 256 else 0) + (if multi then 512 else 0))

theorem causeWord_toNat {cause : Nat} (h : cause < 2 ^ 8) (defer multi : Bool) :
    (causeWord cause defer multi).toNat = cause + (if defer then 256 else 0) + (if multi then 512 else 0) := by
  rw [causeWord, BitVec.toNat_ofNat, Nat.mod_eq_of_lt]
  cases defer <;> cases multi <;> simp <;> omega

theorem causeWord_bits {cause : Nat} (h : cause < 2 ^ 8) (defer multi : Bool) :
    (causeWord cause defer multi).toNat % 2 ^ 8 = cause ∧ (causeWord cause defer multi).getLsbD 8 = defer ∧
    (causeWord cause defer multi).getLsbD 9 = multi ∧ (causeWord cause defer multi).toNat < 2 ^ 10 := by
  have hbit (j : Nat) : (causeWord cause defer multi).getLsbD j =
      decide ((cause + (if defer then 256 else 0) + (if multi then 512 else 0)) / 2 ^ j % 2 = 1) := by
    rw [BitVec.getLsbD, causeWord_toNat h, Nat.testBit_eq_decide_div_mod_eq]
  rw [hbit, hbit, causeWord_toNat h]
  cases defer <;> cases multi <;> simp <;> omega

/-- The seat once a trap's entry has written its registers. -/
def Seat.entered (t : Seat) (p : PendingTrap) : Seat :=
  let q := t.reports p
  { t with
    pend := none
    deferred := q.2.2
    tm := true
    delay := {}
    pc := align8 t.trap.vec
    target := some { tpc := align8 t.trap.vec, mis := false, resumed := false }
    trap := { t.trap with
      cause := causeWord q.1.rcd.cause q.1.rcd.defer q.2.1
      pc := q.1.tpc
      dly := q.1.dly.word
      fall := q.1.dly.falls
      info0 := BitVec.ofNat 64 q.1.rcd.info0
      info1 := BitVec.ofNat 64 q.1.rcd.info1
      info2 := BitVec.ofNat 64 q.1.rcd.info2
      info3 := BitVec.ofNat 64 q.1.rcd.info3 } }

theorem State.enterTrap_eq (s : State) (c i : Nat) (p : PendingTrap) :
    s.enterTrap c i p = (if (s.seat c i).step = true ∨ (s.seat c i).halting = true
      then (s.modSeat c i (fun t => t.entered p)).debugStop c i else s.modSeat c i (fun t => t.entered p)) := by
  simp only [State.enterTrap, State.seat_modSeat, and_self, if_true, Bool.or_eq_true]
  rfl

/-- Settles O49: the entry is `Seat.entered`. -/
theorem trapEntryWritesTheTrapRegisters : Obligations.TrapEntryWritesTheTrapRegisters := by
  unfold Obligations.TrapEntryWritesTheTrapRegisters
  intro s c i p
  refine ⟨⟨fun hd hr => Seat.reports_precise hd hr, fun r h he => Seat.reports_earliest h he, fun _ hd ht => Seat.reports_alone hd ht⟩,
    fun hcause _ => ⟨_, State.enterTrap_eq s c i p, ?_⟩⟩
  have hseat : (s.modSeat c i (fun t => t.entered p)).seat c i = (s.seat c i).entered p := by
    rw [State.seat_modSeat, if_pos ⟨rfl, rfl⟩]
  obtain ⟨h1, h2, h3, h4⟩ := causeWord_bits hcause ((s.seat c i).reports p).1.rcd.defer ((s.seat c i).reports p).2.1
  have hdly := (s.seat c i).reports_dly p
  simp only [hseat]
  refine ⟨rfl, rfl, rfl, rfl, h1, h2, h3, h4, rfl, rfl, ?_, ?_, rfl, rfl, rfl, rfl, rfl, rfl, rfl, rfl, rfl, ?_, fun c' hc => ?_⟩
  · rw [← hdly]
    rfl
  · rw [← hdly]
    rfl
  · exact State.modSeat_now ..
  · rw [State.core_modSeat, if_neg hc]

/-! ## Traps taken -/

/-- The state that a trap begins from: the bundle leaves the seat and its wait is returned. -/
def State.leavesIssue (s : State) (c i : Nat) : State :=
  { (s.returnWait c i).modSeat c i (fun t => { t with holding := false, ported := false, counted := false }) with iss := none }

section
variable {s : State} {c i : Nat} {r : TrapRec} {tpc : Word} {dly : Delay} {redo : Option Word}

theorem State.takeTrap_of_unhandled (h : ((s.leavesIssue c i).seat c i).tm = true ∨ ((s.leavesIssue c i).seat c i).trap.vec.getLsbD 0 = false) :
    s.takeTrap c i r tpc dly redo = (s.leavesIssue c i).killStrand c i 1 := by
  have h' : (((s.leavesIssue c i).seat c i).tm || !trapsOn ((s.leavesIssue c i).seat c i)) = true := by simpa [trapsOn] using h
  exact if_pos h'

theorem State.takeTrap_of_handled (ht : ((s.leavesIssue c i).seat c i).tm = false)
    (hv : ((s.leavesIssue c i).seat c i).trap.vec.getLsbD 0 = true) :
    s.takeTrap c i r tpc dly redo =
      (let d := ((s.leavesIssue c i).drain c i).idle c 4
       if ((s.leavesIssue c i).seat c i).loading then d.modSeat c i (fun t => { t with pend := some ⟨r, tpc, dly, redo⟩ })
       else d.enterTrap c i ⟨r, tpc, dly, redo⟩) := by
  have h' : ¬ (((s.leavesIssue c i).seat c i).tm || !trapsOn ((s.leavesIssue c i).seat c i)) = true := by simp [trapsOn, ht, hv]
  exact if_neg h'

theorem State.takeDeferred_of_earliest {x : TrapRec} (h : earliest (s.seat c i).deferred = some x) :
    s.takeDeferred c i = ((s.modSeat c i (fun t => { t with deferred := dropFirst (fun y => y == x) t.deferred })).idle c
      1).takeTrap c i x (s.seat c i).pc (s.delayOf c i) none := by
  simp only [State.takeDeferred, h]

/-- The seat after a return from a trap. -/
theorem State.seat_returnTrap (s : State) (c i n : Nat) :
    (s.returnTrap c i n).seat c i = (let t := (s.drain c i).seat c i
      { t with tm := false, pc := t.trap.pc, delay := unpackDelay t.trap.dly t.trap.pc t.trap.fall, target := none }) := by
  simp only [State.returnTrap]
  rw [State.seat_modSeat, if_pos ⟨rfl, rfl⟩, State.seat_idle]

theorem State.returnTrap_now (s : State) (c i n : Nat) :
    ((s.returnTrap c i n).core c).now = max ((s.core c).now + n) (s.lastOf c i) := by
  simp only [State.returnTrap]
  rw [State.modSeat_now, State.idle_now, State.drain_now]
  omega

end

/-- Settles O50: the cases of `takeTrap`, and the return. -/
theorem trapTakenAndReturn : Obligations.TrapTakenAndReturn := by
  unfold Obligations.TrapTakenAndReturn
  refine ⟨fun s c i r tpc dly redo => ⟨fun h => State.takeTrap_of_unhandled h, fun ht hv hl => ?_, fun ht hv hl => ?_, ?_, rfl,
    fun x hx => ⟨(earliest_spec hx).1, (earliest_spec hx).2, State.takeDeferred_of_earliest hx⟩⟩, fun s c i n _ => ?_⟩
  · exact (State.takeTrap_of_handled ht hv).trans (if_pos hl)
  · exact (State.takeTrap_of_handled ht hv).trans (if_neg (ne_true_of_eq_false hl))
  · rw [State.idle_now, State.drain_now]
  · simp only [State.seat_returnTrap, State.returnTrap_now]
    exact ⟨trivial, trivial, trivial, trivial, trivial, trivial, trivial, by simp [State.returnTrap], trivial⟩

end Sys2Proof.Machine
end

section
/-! The debugger (O51). -/

namespace Sys2Proof.Machine

set_option Elab.async false

open Sys2Proof

/-! ## A table mapped entry by entry -/

theorem tget_map {α : Type} (g : Nat → α → α) (d : α) (hd : ∀ k, g k d = d) (t : Tab α) (k : Nat) :
    tget (t.map (fun p => (p.1, g p.1 p.2))) d k = g k (tget t d k) := by
  induction t with
  | nil => exact (hd k).symm
  | cons p r ih =>
    simp only [List.map_cons, tget, ih]
    split
    · next h => rw [h]
    · rfl

/-! ## The halt of a die and its end -/

/-- Where no queue has a line to write, none is written. -/
theorem State.writeQlines_of_none {s : State} (h : ∀ p ∈ s.tens, p.2.unwritten = []) : s.writeQlines = s := by
  have hfold (l : List (Nat × Tenancy)) (hl : ∀ p ∈ l, p.2.unwritten = []) (t : State) :
      l.foldl (fun s p => p.2.unwritten.foldl (fun s h => s.writeQline p.1 h) s) t = t := by
    induction l generalizing t with
    | nil => rfl
    | cons p r ih =>
      rw [List.foldl_cons, hl p (by simp)]
      exact ih (fun q hq => hl q (by simp [hq])) t
  exact hfold _ h s

/-- The state of a die that goes on, before lines of queues are written. -/
def State.resumed (s : State) (d n : Nat) : State :=
  let t := s.modDie d (fun x => { x with halted := none, walkWait := x.walkWait.map (fun p => (p.1, min (p.2 + n) s.tbase)) })
  let t : State := { t with cores := t.cores.map (fun p => if dieOf p.1 = d then (p.1, p.2.shift n s.tbase) else p) }
  if d ≠ 0 then t else t.shiftQueues n

theorem State.resumed_unwritten {s : State} (d n : Nat) (h : ∀ p ∈ s.tens, p.2.unwritten = []) :
    ∀ p ∈ (s.resumed d n).tens, p.2.unwritten = [] := by
  unfold State.resumed
  split
  · exact h
  · intro p hp
    obtain ⟨q, hq, rfl⟩ := List.mem_map.1 hp
    exact h q hq

theorem dieDebugResume_of_halted {s : State} {d k : Nat} (hd : (s.die d).halted = some k) (h : ∀ p ∈ s.tens, p.2.unwritten = []) :
    execDieDebugResume d s = .next (s.resumed d (s.tbase - k)) := by
  simp only [execDieDebugResume, hd]
  exact congrArg _ (State.writeQlines_of_none (State.resumed_unwritten d _ h))

theorem State.resumed_mem (s : State) (d n : Nat) : (s.resumed d n).mem = s.mem := by
  unfold State.resumed
  split <;> rfl

theorem State.resumed_halted (s : State) (d n : Nat) : ((s.resumed d n).die d).halted = none := by
  have hdies : (s.resumed d n).dies = (s.modDie d (fun x => { x with
      halted := none, walkWait := x.walkWait.map (fun p => (p.1, min (p.2 + n) s.tbase)) })).dies := by
    unfold State.resumed
    split <;> rfl
  have hdie : (s.resumed d n).die d = (s.modDie d (fun x => { x with
      halted := none, walkWait := x.walkWait.map (fun p => (p.1, min (p.2 + n) s.tbase)) })).die d := by
    rw [State.die, hdies]
    rfl
  rw [hdie, State.die_modDie, if_pos rfl]

theorem State.core_resumed (s : State) (d n c : Nat) :
    (s.resumed d n).core c = if dieOf c = d then (s.core c).shift n s.tbase else s.core c := by
  have hcores : (s.resumed d n).cores =
      s.cores.map (fun p => (p.1, if dieOf p.1 = d then p.2.shift n s.tbase else p.2)) := by
    have hf : (fun (p : Nat × Core) => if dieOf p.1 = d then (p.1, p.2.shift n s.tbase) else p) =
        (fun p => (p.1, if dieOf p.1 = d then p.2.shift n s.tbase else p.2)) := by
      funext p
      split <;> rfl
    unfold State.resumed
    simp only [State.modDie_cores, hf]
    split <;> rfl
  rw [State.core, hcores]
  exact tget_map (fun k (x : Core) => if dieOf k = d then x.shift n s.tbase else x) {}
    (fun k => by split <;> rfl) s.cores c

theorem Core.seat_shift (k : Core) (n now i : Nat) : tget (k.shift n now).seats {} i = (tget k.seats {} i).shift n now :=
  tget_map (fun _ (t : Seat) => t.shift n now) {} (fun _ => rfl) k.seats i

theorem Seat.findAcc_shift (t : Seat) (n now a : Nat) : (t.shift n now).findAcc a = (t.findAcc a).map (fun x => x.shift n now) := by
  rw [Seat.findAcc, Seat.findAcc, Seat.shift, List.find?_map]
  rfl

theorem State.findAcc_resumed (s : State) (d n c i a : Nat) :
    ((s.resumed d n).seat c i).findAcc a =
      if c / 128 = d then ((s.seat c i).findAcc a).map (fun x => x.shift n s.tbase) else (s.seat c i).findAcc a := by
  rw [State.seat, State.core_resumed, dieOf]
  split
  · rw [Core.seat_shift, Seat.findAcc_shift]
    rfl
  · rfl

/-! ## A seat -/

theorem debugHalt_of_haltable {s : State} {c i : Nat} (hc : s.coreStill c = false) (hh : s.haltable c i = true) :
    execDebugHalt c i s = .next ((s.returnWait c i).debugStop c i) := by
  simp only [execDebugHalt, hc, hh]
  rfl

theorem debugAccess_of_halted {s : State} {c i : Nat} (hc : s.coreStill c = false) (hh : (s.seat c i).halted = true) (wr : Bool)
    (what : DbgReg) (n v : Nat) :
    execDebugAccess c i wr what n v s = .next (if wr then s.modSeat c i (fun t => t.debugWrite what n v) else s) := by
  simp only [execDebugAccess, hc, hh]
  cases wr <;> rfl

theorem debugResume_of_halted {s : State} {c i : Nat} (hc : s.coreStill c = false) (hh : (s.seat c i).halted = true) :
    execDebugResume c i s = .next (s.resumeHalted c i false) ∧ execDebugStep c i s = .next (s.resumeHalted c i true) := by
  simp only [execDebugResume, execDebugStep, hc, hh]
  exact ⟨rfl, rfl⟩

/-- A seat with every result returned halts at once. -/
theorem State.debugStop_of_returned {s : State} {c i : Nat} (h : s.resultsOut c i = false) :
    s.debugStop c i = (s.drainAll c i).modSeat c i (fun t => { t with
      halted := true, halting := false, step := false, ported := false, counted := false, holding := false
      delay := ((s.drainAll c i).delayOf c i).resume t.pc }) := by
  simp only [State.debugStop, h, Bool.false_eq_true, if_false]

/-- Settles O51: the debugger's commands, the halt of a die, and the register that a write names. -/
theorem debuggerReadsAndWrites : Obligations.DebuggerReadsAndWrites := by
  unfold Obligations.DebuggerReadsAndWrites
  refine ⟨fun s c i => ?_, fun t n v => ?_⟩
  · simp only [exec]
    refine ⟨fun hc hh => debugHalt_of_haltable hc hh, fun hr => if_pos hr, fun hr _ => ?_, fun hc hh => ?_, fun d hd => ?_,
      fun d k hd hq => ⟨_, dieDebugResume_of_halted hd hq, ?_, ?_, fun a => ?_⟩⟩
    · rw [State.debugStop_of_returned hr, State.seat_modSeat, if_pos ⟨rfl, rfl⟩]
      exact ⟨rfl, rfl, rfl, rfl⟩
    · obtain ⟨h1, h2⟩ := debugResume_of_halted hc hh
      exact ⟨h1, h2, fun what n v => debugAccess_of_halted hc hh false what n v, fun what n v => debugAccess_of_halted hc hh true what n v⟩
    · simp only [execDieDebugHalt, hd]
      rfl
    · exact State.resumed_halted ..
    · exact State.resumed_mem ..
    · exact State.findAcc_resumed ..
  · refine ⟨fun hn => ?_, fun hn => ?_, fun hn => if_pos hn, fun hn => ?_, rfl, rfl, rfl, rfl, rfl, rfl⟩
    · simp only [Seat.debugWrite, Seat.put, Nat.mod_eq_of_lt hn]
    · simp only [Seat.debugWrite, Seat.put, Nat.mod_eq_of_lt hn]
    · simp only [Seat.debugWrite, Seat.put, Nat.mod_eq_of_lt hn]

end Sys2Proof.Machine
end

section
/-! Strands that leave seats, become ready, are restored and end (O52). -/

namespace Sys2Proof.Machine

set_option Elab.async false

open Sys2Proof

section
variable {s : State} {c i : Nat}

/-! ## Leaving a seat -/

/-- A seat that nothing keeps from leaving. -/
def State.mayLeave (s : State) (c i : Nat) : Prop :=
  (s.seat c i).killed = none ∧ (s.seat c i).held = none ∧ (s.seat c i).spoiled = false ∧ s.owed c i = false

theorem State.mayLeave.not_kept (h : s.mayLeave c i) :
    ((s.seat c i).killed.isSome || (s.seat c i).held.isSome || (s.seat c i).spoiled || s.owed c i) = false := by
  obtain ⟨h1, h2, h3, h4⟩ := h
  simp [h1, h2, h3, h4]

theorem suspendSpill_of_suspend (hc : s.coreStill c = false) (hl : (s.seat c i).leave ≠ some .yield) (hm : (s.refresh c i).mayLeave c i)
    (hq : (s.refresh c i).quiet c i = true) {w live : Word} (hs : ((s.refresh c i).seat c i).leave = some (.suspend w live)) :
    execSuspendSpill c i s = .next ((s.refresh c i).leaveSeat c i ((s.refresh c i).suspendExit c i w live)) := by
  simp only [execSuspendSpill, hc, if_neg hl, hm.not_kept, hs, hq, Bool.false_eq_true, if_false, if_true]

theorem suspendSpill_of_page (hc : s.coreStill c = false) (hl : (s.seat c i).leave ≠ some .yield) (hm : (s.refresh c i).mayLeave c i)
    (hq : (s.refresh c i).onlyMissing c i = true) {va k : Nat} (hs : ((s.refresh c i).seat c i).leave = some (.page va k)) :
    execSuspendSpill c i s = .next ((s.refresh c i).leaveSeat c i
      { wake := BitVec.ofNat 64 (2 ^ 62 + va % 2 ^ 56), live := (s.refresh c i).liveOf c i, ready := ((s.refresh c i).seat c i).paged }) := by
  simp only [execSuspendSpill, hc, if_neg hl, hm.not_kept, hs, hq, Bool.false_eq_true, if_false, if_true]
  rfl

theorem suspendSpill_of_yield (hc : s.coreStill c = false) (hl : (s.seat c i).leave = some .yield) (hm : (s.beforeSpill c i).mayLeave c i)
    (hq : (s.beforeSpill c i).quiet c i = true) (hs : ((s.beforeSpill c i).seat c i).leave = some .yield) :
    execSuspendSpill c i s =
      .next ((s.beforeSpill c i).leaveSeat c i { wake := 0, live := (s.beforeSpill c i).liveOf c i, clears := true }) := by
  simp only [execSuspendSpill, hc, if_pos hl, hm.not_kept, hs, hq, Bool.false_eq_true, if_false, if_true]

theorem State.leaveSeat_of_strand {z : Exit} {x : Strand} {e : Nat} (hx : (s.seat c i).strand = some x)
    (he : (s.die (c / 128)).freeEntry = some e) : s.leaveSeat c i z = s.leaveAs c i z (s.exitRec c i z x e) := by
  simp only [State.leaveSeat, hx, dieOf, he]

theorem preemptSpill_of_ready {z : Exit} (hc : s.coreStill c = false) (hl : (s.seat c i).leave = some .preempt)
    (hk : (s.seat c i).killed = none) (hh : (s.seat c i).held = none) (hsp : (s.seat c i).spoiled = false)
    (hp : ((s.beforeSpill c i).seat c i).pend = none) (hd : ((s.beforeSpill c i).seat c i).deferred = [])
    (ha : ((s.beforeSpill c i).seat c i).accs = []) (hg : ((s.beforeSpill c i).seat c i).sigs = [])
    (ho : (s.beforeSpill c i).owed c i = false) (hz : (s.beforeSpill c i).waitExit c i = some z) :
    execPreemptSpill c i s = .next ((((s.beforeSpill c i).drainAll c i).modSeat c i Seat.dropWait).leaveSeat c i z) := by
  have hgo : (s.coreStill c || (s.seat c i).leave != some .preempt || (s.seat c i).killed.isSome || (s.seat c i).held.isSome ||
      (s.seat c i).spoiled) = false := by simp [hc, hl, hk, hh, hsp]
  have hnone : (!((s.beforeSpill c i).seat c i).accs.isEmpty || !((s.beforeSpill c i).seat c i).sigs.isEmpty ||
      (s.beforeSpill c i).owed c i) = false := by simp [ha, hg, ho]
  simp only [execPreemptSpill, hgo, hp, hnone, hz, hd]
  rfl

theorem preemptRequest_of_victim {r : Rec} (hc : s.coreStill c = false) (hh : (s.seat c i).halted = false)
    (hg : (s.seat c i).halting = false) (hr : (s.die (c / 128)).recs.find? (fun r => (s.victims (c / 128) r).contains (c, i)) = some r)
    (hfirst : ∀ p ∈ s.victims (c / 128) r, p ≠ (c, i) → s.victimBefore r.strand.ten (c, i) p = true) :
    execPreemptRequest c i s = .next (s.askFor c i r.entry) := by
  have hall : (s.victims (c / 128) r).all (fun p => p = (c, i) || s.victimBefore r.strand.ten (c, i) p) = true := by
    simp only [List.all_eq_true, Bool.or_eq_true, decide_eq_true_eq]
    intro p hp
    by_cases he : p = (c, i)
    · exact .inl he
    · exact .inr (hfirst p hp he)
  simp only [execPreemptRequest, hc, hh, hg, dieOf, hr, hall]
  rfl

theorem preemptTimeout_of_late {tick : Nat} (hc : s.coreStill c = false) (ht : (s.seat c i).preempt = some tick)
    (hlate : tick + 50000 ≤ s.tbase) (hx : (s.seat c i).strand.isSome = true) (hk : (s.seat c i).killed = none)
    (hl : (s.seat c i).leave = none) (hh : (s.seat c i).held = none) (hp : (s.seat c i).pend = none)
    (hha : (s.seat c i).halted = false) (hhg : (s.seat c i).halting = false) (hr : (s.seat c i).restore = false)
    (hd : (s.seat c i).deferred = []) (hi : s.inTile c i = false) : execPreemptTimeout c i s = .next (s.preemptNow c i) := by
  have hgo : (s.coreStill c || (s.seat c i).strand.isNone || (s.seat c i).killed.isSome || (s.seat c i).held.isSome ||
      (s.seat c i).pend.isSome || (s.seat c i).halted || (s.seat c i).halting || (s.seat c i).restore ||
      ((s.seat c i).leave.isSome && !((s.seat c i).leave == some .yield && (s.seat c i).wait.isSome)) ||
      !(s.seat c i).deferred.isEmpty || s.inTile c i) = false := by
    rw [Option.isNone_eq_false_iff.2 hx]
    simp [hc, hk, hl, hh, hp, hha, hhg, hr, hd, hi]
  have hlim : (decide (s.tbase < tick + preemptLimit) && !s.seatBlocked c i) = false := by
    rw [preemptLimit, decide_eq_false (Nat.not_lt.2 hlate), Bool.false_and]
  simp only [execPreemptTimeout, ht, hgo, hlim, Bool.false_eq_true, if_false]

theorem strandKill_of_idle {status : Nat} {x : Strand} (hc : s.coreStill c = false) (hk : (s.seat c i).killed = some status)
    (hx : (s.seat c i).strand = some x) (ha : ((s.settle c i).seat c i).accs = []) (hg : ((s.settle c i).seat c i).sigs = [])
    (hw : ((s.settle c i).core c).working x = false) : execStrandKill c i s = .next ((s.settle c i).endStrand c i status) := by
  simp only [execStrandKill, hk, hx, hc, ha, hg, hw]
  rfl

theorem resume_of_restored (hc : s.coreStill c = false) (hr : (s.seat c i).restore = true) (hx : (s.seat c i).strand.isSome = true)
    (hk : (s.seat c i).killed = none) (hl : (s.seat c i).leave = none) (ha : (s.seat c i).accs = []) :
    execResume c i s = .next ((s.modSeat c i (fun t => { t with restore := false, leave := t.after, after := none })).endBarr c i true) := by
  have hgo : (s.coreStill c || !(s.seat c i).restore || (s.seat c i).strand.isNone || (s.seat c i).killed.isSome ||
      (s.seat c i).leave.isSome || !(s.seat c i).accs.isEmpty) = false := by
    rw [Option.isNone_eq_false_iff.2 hx]
    simp [hc, hr, hk, hl, ha]
  simp only [execResume, hgo, Bool.false_eq_true, if_false]

end

/-! ## Records -/

section
variable {s : State} {d e : Nat} {r : Rec}

theorem wakeReady_of_met (hf : (s.die d).recs.find? (fun r => r.entry == e) = some r) (hd : (s.die d).halted = none)
    (hr : r.ready = false) (hw : s.wakeMet r = true) (ho : r.only = none ∨ r.kind ≠ 1) :
    execWakeReady d e s = .next (s.wakeWhere d (fun q => q.entry == e)) := by
  simp only [execWakeReady, hf, hr, hd, hw]
  cases hk : r.only with
  | none => rfl
  | some k => exact if_neg (ho.resolve_left (by simp [hk]))

theorem wakeReady_of_semaphore {k : Nat} (hf : (s.die d).recs.find? (fun r => r.entry == e) = some r) (hd : (s.die d).halted = none)
    (hr : r.ready = false) (ho : r.only = some k) (hk : r.kind = 1) :
    execWakeReady d e s = .next (s.semComplete k (r.wake.toNat / 2 ^ 48 % 2 ^ 8)) := by
  simp only [execWakeReady, hf, hr, hd, ho, hk]
  rfl

/-- The record chosen, at the place it is to take. -/
theorem seatRecord_of_chosen {c : Nat} (hf : (s.die d).recs.find? (fun r => r.entry == e) = some r) (hd : (s.die d).halted = none)
    (hn : s.nextPlace d (s.listOf d r) = some (r, c)) (hs : s.entryStop d e = none) :
    execSeatRecord d e s =
      (if !s.recGood d e then .next (s.endRec d r 4)
        else match (s.core c).freeSeatNum with
        | none => .next s
        | some i => match (if r.fresh then none else s.restoreStop r) with
          | some (.err cls pa va) => .next (s.agentConsume (some 5) r.strand.ten r.strand.lid cls pa va)
          | some _ => .next s
          | none => .next ((if r.fresh then s else s.restoreFill r).seatRec d r c i)) := by
  simp only [execSeatRecord, hf, hd, hn, hs, bne_self_eq_false]
  rfl

end

/-- Settles O52: each event under the conditions it waits for. -/
theorem strandEvents : Obligations.StrandEvents := by
  unfold Obligations.StrandEvents
  intro s c i
  simp only [exec]
  refine ⟨fun hc hk hh hsp ho hq hl w live hs => suspendSpill_of_suspend hc hl ⟨hk, hh, hsp, ho⟩ hq hs,
    fun hc hk hh hsp ho hq hl hs => suspendSpill_of_yield hc hl ⟨hk, hh, hsp, ho⟩ hq hs,
    fun hc va k hk hh hsp ho hl hs hq => suspendSpill_of_page hc hl ⟨hk, hh, hsp, ho⟩ hq hs,
    fun z x e hx he => ?_, fun hc hl hk hh hsp z hp hd ha hg ho hz => preemptSpill_of_ready hc hl hk hh hsp hp hd ha hg ho hz,
    fun d e r hf hd => ⟨fun hr hw ho => wakeReady_of_met hf hd hr hw ho, fun k hr ho hk => wakeReady_of_semaphore hf hd hr ho hk,
      fun c' hn => ⟨fun hs hg => ?_, fun j hs hg hj => ⟨fun hfr => ?_, fun hfr hst => ?_, fun cls pa va hfr hst => ?_⟩⟩⟩,
    fun hc hr hx hk hl ha => resume_of_restored hc hr hx hk hl ha,
    fun r hc hh hg hr hfirst => preemptRequest_of_victim hc hh hg hr hfirst,
    fun tick hc ht hlate hx hk hl hh hp hha hhg hr hd hi => preemptTimeout_of_late hc ht hlate hx hk hl hh hp hha hhg hr hd hi,
    fun status x hc hk hx ha hg hw => strandKill_of_idle hc hk hx ha hg hw⟩
  · rw [State.leaveSeat_of_strand hx he, State.leaveAs]
    refine ⟨fun hs => ?_, fun cls pa va hs => ?_⟩
    · simp only [hs]
    · simp only [hs]
  · rw [seatRecord_of_chosen hf hd hn hs, hg]
    rfl
  · rw [seatRecord_of_chosen hf hd hn hs, hg]
    simp only [hj, hfr]
    rfl
  · rw [seatRecord_of_chosen hf hd hn hs, hg]
    simp only [hj, hfr, hst]
    rfl
  · rw [seatRecord_of_chosen hf hd hn hs, hg]
    simp only [hj, hfr, hst]
    rfl

end Sys2Proof.Machine
end

section
/-! Packets and launches (O53). -/

namespace Sys2Proof.Machine

set_option Elab.async false

open Sys2Proof

/-! ## Entries of a table -/

theorem tget_of_tfind {α : Type} {t : Tab α} {k : Nat} {v : α} (h : tfind t k = some v) (d : α) : tget t d k = v := by
  induction t with
  | nil => simp [tfind] at h
  | cons p r ih =>
    rw [tfind] at h
    rw [tget]
    split
    · next hk => simpa [hk] using h
    · next hk => exact ih (by simpa [hk] using h)

theorem tfind_tput_self {α : Type} (t : Tab α) (k : Nat) (v : α) : tfind (tput t k v) k = some v := by
  have hins (l : Tab α) (hl : ∀ p ∈ l, p.1 ≠ k) : tfind (tinsert l k v) k = some v := by
    induction l with
    | nil => simp [tinsert, tfind]
    | cons p r ih =>
      rw [tinsert]
      split
      · simp [tfind]
      · rw [tfind, if_neg (hl p (by simp))]
        exact ih (fun q hq => hl q (by simp [hq]))
  exact hins _ (fun p hp => (mem_terase t k p hp).2)

theorem all_keys_of_tfind {α : Type} {t : Tab α} {k : Nat} {v : α} (h : tfind t k = some v) : t.all (fun p => p.1 != k) = false := by
  induction t with
  | nil => simp [tfind] at h
  | cons p r ih =>
    rw [tfind] at h
    rw [List.all_cons]
    by_cases hk : p.1 = k
    · simp [hk]
    · rw [ih (by simpa [hk] using h), Bool.and_false]

/-! ## Packets -/

section
variable {s : State} {ten q : Nat} {p : Packet}

/-- The queue as it stands once its head has been looked at. -/
def State.probed (s : State) (ten q : Nat) : State := if s.serves ten then s.probeQueue ten q else s

theorem State.onPacket_of_served {types : Nat → Bool} {k : Packet → State → State} (h : (s.probed ten q).served ten q = some p)
    (ht : types p.type = true) : s.onPacket ten q types k = k p ((s.probed ten q).takePacket ten q p) := by
  have h' : (if s.serves ten then s.probeQueue ten q else s).served ten q = some p := h
  simp only [State.onPacket, h', ht, if_true]
  rfl

theorem launchPacket_of_served (h : (s.probed ten q).served ten q = some p) (ht : p.type = 1) :
    execLaunchPacket ten q s =
      (let t := ((s.probed ten q).takePacket ten q p).issueCompl ten p.compl
       let l := p.launch ten q ((t.2.tenancy ten).keys + 1) (s.packetPrio ten q p) t.1 ((t.2.tenancy ten).expert.toNat % 2 ^ 11)
          (tget (s.tenancy ten).queues {} q).since
       let s2 := t.2.modTenancy ten (fun x => { x with keys := x.keys + 1 })
       .next (if !p.launchOk l then s2.failPacket l 2 else if !l.modeOk then s2.failPacket l 3
        else ({ s2 with launches := s2.launches ++ [l] }.dropCode ten).noteQueues ten)) := by
  have hfield (x : Nat) : field x 0 11 = x % 2 ^ 11 := by simp [field]
  simp only [execLaunchPacket, State.onPacket_of_served (types := fun t => t ≤ 1 || 5 < t) h (by simp [ht]), hfield]
  rfl

theorem signalPacket_of_served (h : (s.probed ten q).served ten q = some p) (ht : p.type = 4) :
    execSignalPacket ten q s =
      (let t := ((s.probed ten q).takePacket ten q p).issueCompl ten p.compl
       .next (if !p.signalOk then t.2.finishCompl ten p.compl t.1 2 else t.2.signalStore ten (p.word 1) (p.word 2) p.compl t.1)) := by
  simp only [execSignalPacket, State.onPacket_of_served (types := fun t => t == 4) h (by simp [ht])]

end

/-! ## Launches -/

section
variable {s : State} {ten key : Nat} {l : Launch}

/-- What a launch that waits to start comes to. -/
theorem launchStart_of_met (hl : s.byKey ten key = some l) (ha : s.alive ten = true) (hs : l.started = false)
    (hd : l.deps.all (s.depMet ten) = true) :
    execLaunchStart ten key s =
      .next (if l.dies.any (fun d => decide ((s.die d).largestWindow < l.pool)) then s.endLaunch l 2
        else if s.svcFail && s.svclvl < l.svc then s.endLaunch l 3
        else if !s.canStart l then s
        else (s.modTenancy ten (fun x => { x with lids := nextLid (s.tenancy ten).lids })).modKey ten key
          (fun l => { l with started := true, lid := nextLid (s.tenancy ten).lids })) := by
  have hgo : (l.started || !s.alive ten || !l.deps.all (s.depMet ten)) = false := by simp only [hs, ha, hd]; rfl
  simp only [execLaunchStart, hl, hgo, Bool.false_eq_true, if_false]
  split
  · rfl
  · split
    · rfl
    · split <;> rfl

theorem windows_fit (h : ∀ d ∈ l.dies, l.pool ≤ (s.die d).largestWindow) :
    l.dies.any (fun d => decide ((s.die d).largestWindow < l.pool)) = false := by
  simp only [List.any_eq_false, decide_eq_true_eq, Nat.not_lt]
  exact h

theorem State.svc_of_canStart (h : s.canStart l = true) : (s.svcFail && decide (s.svclvl < l.svc)) = false := by
  simp only [State.canStart, Bool.and_eq_true, decide_eq_true_eq] at h
  obtain ⟨⟨⟨hle, -⟩, -⟩, -⟩ := h
  rw [decide_eq_false (Nat.not_lt.2 hle), Bool.and_false]

theorem launchComplete_of_finished (hl : s.byKey ten key = some l) (ha : s.alive ten = true) (hf : l.finished = true) :
    execLaunchComplete ten key s =
      .next (if l.outcome = 8 && l.rerun && !l.again then s.modKey ten key (fun l => l.rerunOf s.tbase) else s.endLaunch l l.outcome) := by
  have hgo : (!l.finished || !s.alive ten) = false := by simp [hf, ha]
  simp only [execLaunchComplete, hl, hgo, Bool.false_eq_true, if_false]
  split <;> rfl

theorem recordCreate_of_open {lid d base choice : Nat} (hl : s.launch ten lid = some l) (hs : l.started = true) (ha : s.alive ten = true)
    (hh : (s.die d).halted = none) (hd : d ∈ l.dies) (hw : ∀ r ∈ (s.die d).waiting, r.ten ≠ ten) :
    execRecordCreate ten lid d base choice s =
      (if (tfind l.window d).isNone then .next (if s.windowFree d base l.pool then s.reserveWindow l d base else s)
       else if l.dies.all (fun k => (tfind l.window k).isSome) then .next (s.createRec l d choice) else .next s) := by
  have hnone : (s.die d).waiting.any (fun r => r.ten == ten) = false := by simpa using hw
  have hgo : (!l.started || !s.alive ten || (s.die d).halted.isSome || !l.dies.contains d || (s.die d).waiting.any (fun r => r.ten == ten))
      = false := by simp [hs, ha, hh, hd, hnone]
  simp only [execRecordCreate, hl, hgo, Bool.false_eq_true, if_false]

theorem worseStatus_five (n : Nat) : worseStatus n 5 = if n = 0 then 5 else min n 5 := by
  unfold worseStatus
  split
  · rfl
  · simp

theorem cancel_of_launch {lid : Nat} (hl : s.launch ten lid = some l) :
    execCancel ten lid s =
      (if !l.started || l.switch.isSome then .next (s.modTenancy ten (fun x => { x with lctl := lctlWord 1 lid true true }))
       else .next (((s.dropRecsOf ten lid).endLaunch l (worseStatus l.status 5)).modTenancy ten (fun x =>
        { x with lctl := lctlWord 1 lid true false }))) := by
  simp only [execCancel, hl]

/-- What the end of a budget does to a launch. -/
def Launch.overran (now : Nat) (l : Launch) : Launch :=
  match l.switch with
  | none => l
  | some k => if l.budget ≠ 0 ∧ k + 2 ^ l.budget ≤ now then { l with overrun := true } else l

theorem Launch.overran_names (now : Nat) (l : Launch) : (l.overran now).ten = l.ten ∧ (l.overran now).key = l.key := by
  unfold Launch.overran
  split
  · exact ⟨rfl, rfl⟩
  · split <;> exact ⟨rfl, rfl⟩

theorem budgetExpiry_eq : execBudgetExpiry ten key s = .next (s.modKey ten key (Launch.overran s.tbase)) := by
  refine congrArg (fun f => Host.Outcome.next (s.modKey ten key f)) (funext fun l => ?_)
  unfold Launch.overran
  cases l.switch with
  | none => rfl
  | some k => simp only [Bool.and_eq_true, decide_eq_true_eq]

theorem State.byKey_modKey (hl : s.byKey ten key = some l) {f : Launch → Launch} (hf : (f l).ten = l.ten ∧ (f l).key = l.key) :
    (s.modKey ten key f).byKey ten key = some (f l) := by
  obtain ⟨h1, h2⟩ := hf
  refine find_modifyFirst _ f _ hl ?_
  have := List.find?_some hl
  rw [h1, h2]
  exact this

end

/-- Settles O53: packets as they are taken, and what befalls launches. -/
theorem launchEvents : Obligations.LaunchEvents := by
  unfold Obligations.LaunchEvents
  intro s ten q
  simp only [exec]
  refine ⟨fun p hp => ⟨fun ht => ?_, fun ht => ?_, fun ht => ?_, fun ht hok => ?_, fun ht hok ps hps => ?_, fun ht => ?_⟩,
    fun key l hl ha => ⟨fun hs hd => ⟨fun hw => ?_, fun hw hf hv => ?_, fun hw hc => ?_⟩, fun hf => ⟨fun h8 hr hag => ?_, fun h => ?_⟩⟩,
    fun lid d base choice l hl hs ha hh hd hw => ⟨fun hn hfree => ?_, fun hall => ?_⟩,
    fun lid l hl => ⟨fun hs hsw => ?_, fun hsw => ?_⟩, fun x hh hq => ?_, fun key => ⟨_, budgetExpiry_eq, fun l hl => ?_⟩⟩
  · rw [launchPacket_of_served hp ht]
    refine ⟨fun h1 => ?_, fun h1 h2 => ?_, fun h1 h2 => ?_⟩
    · simp only [State.probed, h1]
      rfl
    · simp only [State.probed, h1, h2]
      rfl
    · simp only [State.probed, h1, h2]
      rfl
  · exact congrArg _ (State.onPacket_of_served hp (by simp [ht]))
  · exact congrArg _ (State.onPacket_of_served hp (by simp [ht]))
  · rw [signalPacket_of_served hp ht, hok]
    rfl
  · rw [signalPacket_of_served hp ht, hok]
    simp only [State.signalStore, State.probed, hps]
    rfl
  · exact congrArg _ (State.onPacket_of_served hp (by simp [ht]))
  · rw [launchStart_of_met hl ha hs hd, if_pos (by simpa using hw)]
  · rw [launchStart_of_met hl ha hs hd, windows_fit hw, hf]
    simp [hv]
  · rw [launchStart_of_met hl ha hs hd, windows_fit hw, State.svc_of_canStart hc, hc]
    rfl
  · rw [launchComplete_of_finished hl ha hf]
    simp [h8, hr, hag]
  · rw [launchComplete_of_finished hl ha hf, if_neg]
    rcases h with h | h | h <;> simp [h]
  · rw [recordCreate_of_open hl hs ha hh hd hw, hn, hfree]
    rfl
  · have hsome : (tfind l.window d).isNone = false := Option.isNone_eq_false_iff.2 (hall d hd)
    rw [recordCreate_of_open hl hs ha hh hd hw, hsome, List.all_eq_true.2 hall]
    rfl
  · rw [cancel_of_launch hl, hs, hsw, worseStatus_five]
    simp [lctlWord, b2n]
  · rw [cancel_of_launch hl, hsw]
    simp [lctlWord, b2n]
  · have hgo : ((s.die 0).halted.isSome || (s.tenancy ten).queues.all (fun p => p.1 != q)) = false := by
      rw [hh, all_keys_of_tfind hq]
      rfl
    simp only [execPriorityAgeing, hgo, Bool.false_eq_true, if_false, Bool.and_eq_true, decide_eq_true_eq]
    refine ⟨_, rfl, ?_, rfl⟩
    have hten (t : State) (ls : List Launch) : State.tenancy { t with launches := ls } ten = t.tenancy ten := rfl
    rw [hten, State.tenancy_modTenancy, if_pos rfl, tget_of_tfind hq]
    exact tfind_tput_self ..
  · exact State.byKey_modKey hl (Launch.overran_names _ _)

end Sys2Proof.Machine
end

section
/-! Tenancies, the table-update engine and register writes (O54). -/

namespace Sys2Proof.Machine

set_option Elab.async false

open Sys2Proof

/-- What every step of a fold keeps, the fold keeps. -/
theorem foldl_keeps {α β γ : Type} (F : β → γ) {f : β → α → β} (h : ∀ s x, F (f s x) = F s) (l : List α) (s : β) : F (l.foldl f s) = F s := by
  induction l generalizing s with
  | nil => rfl
  | cons x r ih => exact (ih _).trans (h s x)

/-! ## What a store leaves: everything but the memory side -/

/-- Two states that differ in the memory side alone: bytes, cached lines with their keys and poison, and the free values used. -/
def MemorySide (s t : State) : Prop :=
  t = { s with mem := t.mem, lines := t.lines, keys := t.keys, poison := t.poison, free := t.free }

namespace MemorySide

theorem trans {s t u : State} (h : MemorySide s t) (h' : MemorySide t u) : MemorySide s u :=
  Eq.trans h' (congrArg (fun x : State => { x with mem := u.mem, lines := u.lines, keys := u.keys, poison := u.poison, free := u.free }) h)

theorem cores {s t : State} (h : MemorySide s t) : t.cores = s.cores :=
  Eq.trans (congrArg State.cores (show t = _ from h)) rfl
theorem dies {s t : State} (h : MemorySide s t) : t.dies = s.dies :=
  Eq.trans (congrArg State.dies (show t = _ from h)) rfl
theorem tens {s t : State} (h : MemorySide s t) : t.tens = s.tens :=
  Eq.trans (congrArg State.tens (show t = _ from h)) rfl
theorem pkg {s t : State} (h : MemorySide s t) : t.pkg = s.pkg :=
  Eq.trans (congrArg State.pkg (show t = _ from h)) rfl

theorem foldl {α : Type} {f : State → α → State} (h : ∀ s x, MemorySide s (f s x)) (l : List α) (s : State) :
    MemorySide s (l.foldl f s) := by
  induction l generalizing s with
  | nil => exact rfl
  | cons x r ih => exact (h s x).trans (ih _)

end MemorySide

theorem State.keyAfter_memorySide (s : State) (line : Nat) (l : Line) : MemorySide s (s.keyAfter line l) := by
  simp only [State.keyAfter]
  split <;> exact rfl

theorem State.writeBack_memorySide (s : State) (line : Nat) (l : Line) : MemorySide s (s.writeBack line l) :=
  (s.keyAfter_memorySide line l).trans rfl

theorem State.makeRoom_memorySide (s : State) (d : Nat) : MemorySide s (s.makeRoom d) := by
  simp only [State.makeRoom]
  split
  · exact rfl
  · split
    · exact rfl
    · exact MemorySide.trans (t := s.takeFree.2) rfl (State.writeBack_memorySide _ _ _)

theorem State.fillLine_memorySide (s : State) (pa : Nat) : MemorySide s (s.fillLine pa) := by
  simp only [State.fillLine]
  split
  · split
    · exact rfl
    · exact (s.makeRoom_memorySide _).trans rfl
  all_goals exact rfl

theorem State.dirtyLine_memorySide (s : State) (pa key : Nat) : MemorySide s (s.dirtyLine pa key) := by
  simp only [State.dirtyLine]
  split
  · exact (s.fillLine_memorySide pa).trans rfl
  all_goals exact rfl

theorem State.store_memorySide (s : State) (pa n key v : Nat) : MemorySide s (s.store pa n key v) :=
  MemorySide.trans (t := { s with mem := leWrite s.mem pa n v }) rfl (State.dirtyLine_memorySide _ _ _)

theorem State.rewriteReplica_memorySide (s : State) (off v d : Nat) : MemorySide s (State.rewriteReplica off v s d) :=
  (s.store_memorySide (s.tablePa d off / 64 * 64) 64 0 v).trans rfl

theorem State.rewriteSector_memorySide (s : State) (good off : Nat) : MemorySide s (s.rewriteSector good off) :=
  MemorySide.foldl (fun s d => State.rewriteReplica_memorySide s _ _ d) _ s

theorem State.partsFill_memorySide (s : State) (ps : List Part) : MemorySide s (s.partsFill ps) :=
  MemorySide.foldl State.fillLine_memorySide _ s

theorem State.partsStore_memorySide (s : State) (ps : List Part) (v : Nat) : MemorySide s (s.partsStore ps v) := by
  induction ps generalizing s v with
  | nil => exact rfl
  | cons p r ih => exact (s.store_memorySide _ _ _ _).trans (ih _ _)

theorem State.relink_memorySide (s : State) (d : Nat) (rs : List Rec) : MemorySide s (s.relink d rs) := by
  induction rs generalizing s with
  | nil => exact rfl
  | cons r rs ih => exact (s.store_memorySide _ _ _ _).trans (ih _)

/-- Records changed: the die's list, and the memory side. -/
theorem State.setRecs_memorySide (s : State) (d : Nat) (rs : List Rec) :
    MemorySide (s.modDie d (fun x => { x with recs := rs })) (s.setRecs d rs) := State.relink_memorySide _ d rs

@[simp] theorem State.setRecs_pkg (s : State) (d : Nat) (rs : List Rec) : (s.setRecs d rs).pkg = s.pkg :=
  (s.setRecs_memorySide d rs).pkg

/-! ## Records woken -/

@[simp] theorem State.wakeWhere_tens (s : State) (d : Nat) (p : Rec → Bool) : (s.wakeWhere d p).tens = s.tens :=
  (s.setRecs_memorySide d _).tens

theorem State.die_of_dies {s t : State} (h : t.dies = s.dies) (d : Nat) : t.die d = s.die d := by simp only [State.die, h]

@[simp] theorem State.wakeWhere_posted (s : State) (d k : Nat) (p : Rec → Bool) : ((s.wakeWhere d p).die k).posted = (s.die k).posted := by
  rw [State.wakeWhere, State.die_of_dies (State.setRecs_memorySide s d _).dies, State.die_modDie]
  split
  · next h => rw [h]
  · rfl

/-! ## A kill leaves the host's link as it is -/

@[simp] theorem State.post_pkg (s : State) (die ty ten cluster core : Nat) (ws : List Word) : (s.post die ty ten cluster core ws).pkg = s.pkg := rfl

theorem State.fixTable_pkg (d : Nat) (s : State) (off : Nat) : (s.fixTable d off).pkg = s.pkg := by
  simp only [State.fixTable]
  split
  · split
    · rfl
    · exact (s.rewriteSector_memorySide _ _).pkg
  · exact (s.fillLine_memorySide _).pkg

theorem State.agentWalks_pkg (s : State) (ten va n : Nat) : (s.agentWalks ten va n).pkg = s.pkg := by
  simp only [State.agentWalks]
  split
  · rfl
  · exact foldl_keeps State.pkg (fun s k => foldl_keeps State.pkg (State.fixTable_pkg 0) _ s) _ s

@[simp] theorem State.consume_pkg (s : State) (ten lid cls agent pa va : Nat) : (s.consume ten lid cls agent pa va).pkg = s.pkg := by
  simp only [State.consume]
  split
  · rfl
  · split <;> rfl

@[simp] theorem State.consumeAt_pkg (s : State) (ten lid cls agent pa va : Nat) : (s.consumeAt ten lid cls agent pa va).pkg = s.pkg := by
  simp only [State.consumeAt]
  split
  · exact s.consume_pkg ..
  · exact s.consume_pkg ..

theorem State.agentConsume_pkg (s : State) (agent : Option Nat) (ten lid cls pa va : Nat) :
    (s.agentConsume agent ten lid cls pa va).pkg = s.pkg := by
  cases agent with
  | none => exact State.consumeAt_pkg s.takeFree.2 _ _ _ _ _ _
  | some a => exact s.consumeAt_pkg ..

/-- A store of an agent counts at most a dropped one. -/
theorem State.agentStore_hostUp (s : State) (agent : Option Nat) (ten lid va n v : Nat) :
    (s.agentStore agent ten lid va n v).pkg.hostUp = s.pkg.hostUp := by
  have hw := congrArg Pkg.hostUp (s.agentWalks_pkg ten va n)
  simp only [State.agentStore]
  split
  · exact (congrArg Pkg.hostUp ((State.partsFill_memorySide _ _).trans (State.partsStore_memorySide _ _ _)).pkg).trans hw
  · exact hw
  · exact (congrArg Pkg.hostUp (State.agentConsume_pkg ..)).trans hw
  · exact hw

theorem State.writeQline_hostUp (s : State) (ten h : Nat) : (s.writeQline ten h).pkg.hostUp = s.pkg.hostUp := by
  simp only [State.writeQline]
  split
  · rfl
  · rw [State.agentStore_hostUp, State.agentStore_hostUp, State.modTenancy_pkg]

theorem State.finishCompl_hostUp (s : State) (ten h num status : Nat) : (s.finishCompl ten h num status).pkg.hostUp = s.pkg.hostUp := by
  simp only [State.finishCompl]
  split
  · rfl
  · exact State.writeQline_hostUp _ ten h

theorem State.finishCopy_hostUp (s : State) (x : CopyCmd) (status : Nat) : (s.finishCopy x status).pkg.hostUp = s.pkg.hostUp :=
  s.finishCompl_hostUp _ _ _ _

theorem State.finishEngine_hostUp (s : State) (ten c t num status : Nat) :
    (s.finishEngine ten c t num status).pkg.hostUp = s.pkg.hostUp := congrArg Pkg.hostUp (s.modTenancy_pkg ten _)

theorem State.endLaunch_hostUp (s : State) (l : Launch) (status : Nat) : (s.endLaunch l status).pkg.hostUp = s.pkg.hostUp := by
  simp only [State.endLaunch, State.childDone]
  split <;> exact State.finishCompl_hostUp _ _ _ _ _

@[simp] theorem State.releaseSeat_pkg (s : State) (c i : Nat) : (s.releaseSeat c i).pkg = s.pkg := by
  simp only [State.releaseSeat]
  split <;> rfl

theorem State.evictSeats_pkg (s : State) (ten c : Nat) (l : List Nat) : (s.evictSeats ten c l).pkg = s.pkg := by
  induction l generalizing s with
  | nil => rfl
  | cons i r ih =>
    refine (ih _).trans ?_
    split
    · rfl
    · split
      · exact s.releaseSeat_pkg c i
      · rfl

theorem State.finishCopies_hostUp (l : List CopyCmd) (s : State) :
    (l.foldl (fun s x => s.finishCopy x 0x1A) s).pkg.hostUp = s.pkg.hostUp :=
  foldl_keeps (fun s : State => s.pkg.hostUp) (fun s x => s.finishCopy_hostUp x _) l s

theorem State.finishEngines_hostUp (ten c : Nat) (l : List (Nat × Nat)) (s : State) :
    (l.foldl (fun s p => s.finishEngine ten c p.1 p.2 0x1A) s).pkg.hostUp = s.pkg.hostUp :=
  foldl_keeps (fun s : State => s.pkg.hostUp) (fun s p => s.finishEngine_hostUp ten c p.1 p.2 _) l s

theorem State.evictCore_hostUp (s : State) (ten c : Nat) : (s.evictCore ten c).pkg.hostUp = s.pkg.hostUp := by
  simp only [State.evictCore, State.finishCopies_hostUp, State.finishEngines_hostUp, State.modCore_pkg, State.evictSeats_pkg]

theorem State.retireFrame_pkg (s : State) (f : Nat) : (s.retireFrame f).pkg = s.pkg := by
  simp only [State.retireFrame]
  split <;> rfl

theorem State.dropTenRecs_hostUp (ten : Nat) (s : State) (d : Nat) : (State.dropTenRecs ten s d).pkg.hostUp = s.pkg.hostUp :=
  congrArg Pkg.hostUp (s.setRecs_pkg d _)

theorem State.retireFrames_hostUp (l : List Nat) (s : State) : (l.foldl State.retireFrame s).pkg.hostUp = s.pkg.hostUp :=
  foldl_keeps (fun s : State => s.pkg.hostUp) (fun s f => congrArg Pkg.hostUp (s.retireFrame_pkg f)) l s

theorem State.dropTensRecs_hostUp (ten : Nat) (l : List Nat) (s : State) : (l.foldl (State.dropTenRecs ten) s).pkg.hostUp = s.pkg.hostUp :=
  foldl_keeps (fun s : State => s.pkg.hostUp) (State.dropTenRecs_hostUp ten) l s

theorem State.evictCores_hostUp (ten : Nat) (l : Tab Core) (s : State) :
    (l.foldl (fun s p => s.evictCore ten p.1) s).pkg.hostUp = s.pkg.hostUp :=
  foldl_keeps (fun s : State => s.pkg.hostUp) (f := fun s (p : Nat × Core) => s.evictCore ten p.1) (fun s p => s.evictCore_hostUp ten p.1) l s

theorem State.endLaunches_hostUp (l : List Launch) (s : State) :
    (l.foldl (fun s l => s.endLaunch l (worseStatus l.status 6)) s).pkg.hostUp = s.pkg.hostUp :=
  foldl_keeps (fun s : State => s.pkg.hostUp) (fun s l => s.endLaunch_hostUp l _) l s

@[simp] theorem State.releaseTen_pkg (s : State) (ten : Nat) : (s.releaseTen ten).pkg = s.pkg := rfl

theorem State.killTenancy_hostUp (s : State) (ten : Nat) : (s.killTenancy ten).pkg.hostUp = s.pkg.hostUp := by
  simp only [State.killTenancy, State.modTenancy_pkg, State.releaseTen_pkg, State.retireFrames_hostUp, State.finishCopies_hostUp,
    State.dropTensRecs_hostUp, State.evictCores_hostUp, State.endLaunches_hostUp]

theorem State.doomTenancy_hostUp (s : State) (ten : Nat) : (s.doomTenancy ten).pkg.hostUp = s.pkg.hostUp := by
  simp only [State.doomTenancy]
  split
  · rfl
  · rw [State.post_pkg, State.modTenancy_pkg]
    exact s.killTenancy_hostUp ten

/-- The kill that a reset of a tenancy makes, where it has not been killed before. -/
def State.resetKill (s : State) (ten : Nat) : State :=
  if (s.tenancy ten).doom.isSome then s.doomTenancy ten else if (s.tenancy ten).killed then s else (s.postKill ten).killTenancy ten

theorem State.resetKill_hostUp (s : State) (ten : Nat) : (s.resetKill ten).pkg.hostUp = s.pkg.hostUp := by
  simp only [State.resetKill]
  split
  · exact s.doomTenancy_hostUp ten
  · split
    · rfl
    · exact (s.postKill ten).killTenancy_hostUp ten

/-- A board after the reset of a tenancy: freed where it was the tenancy's. -/
def Board.freedOf (ten : Nat) (b : Board) : Board := if b.ten = ten && b.en then {} else b

theorem Board.freedOf_ten {ten : Nat} {b : Board} (h : (b.freedOf ten).en = true) : (b.freedOf ten).ten ≠ ten := by
  revert h
  rw [Board.freedOf]
  split
  · exact fun h => absurd h (by decide)
  · next hb => exact fun h ht => hb (by simp [ht, h])

/-- A die after the reset of a tenancy. -/
def Die.resetTen (ten : Nat) (x : Die) : Die :=
  { x with
    boards := x.boards.map (fun b => (b.1, b.2.freedOf ten))
    posted := x.posted.filter (fun y => y.1 != ten) }

theorem Die.resetTen_boards {ten : Nat} {x : Die} {b : Nat} (h : (tget (x.resetTen ten).boards {} b).en = true) :
    (tget (x.resetTen ten).boards {} b).ten ≠ ten := by
  have hb : tget (x.resetTen ten).boards {} b = (tget x.boards {} b).freedOf ten :=
    tget_map (fun _ => Board.freedOf ten) {} (fun _ => by rw [Board.freedOf]; split <;> rfl) x.boards b
  rw [hb] at h ⊢
  exact Board.freedOf_ten h

theorem tcbResetKill_eq (ten : Nat) (s : State) : exec (.tcbResetKill ten) s =
    .next ({ s.resetKill ten with dies := (s.resetKill ten).dies.map (fun p : Nat × Die => (p.1, p.2.resetTen ten)) }.setTenancy ten
      { frozen := (s.tenancy ten).frozen && !(s.resetKill ten).pkg.hostUp }) := rfl

theorem State.die_mapDies (s : State) (g : Die → Die) (hg : g {} = {}) (d : Nat) :
    ({ s with dies := s.dies.map (fun p => (p.1, g p.2)) } : State).die d = g (s.die d) :=
  tget_map (fun _ => g) {} (fun _ => hg) s.dies d

/-! ## The page's release -/

theorem released_page (v : Word) (page : Nat) :
    released v (page * 2 ^ 16) = true ↔ v.getLsbD 0 = true ∨ page % 2 ^ 40 = v.toNat / 2 ^ 16 % 2 ^ 40 := by
  simp only [released, field, getLsbD_eq_bitAt, Bool.or_eq_true, beq_iff_eq, Nat.mul_div_cancel _ (Nat.two_pow_pos 16)]

/-- A tenancy with TCB_PGREL written. -/
def Tenancy.release (v : Word) (x : Tenancy) : Tenancy := { x with pgrel := v &&& (mask 55 16 ||| 1) }

/-- The state of a page release before the records that wait for the page are woken. -/
def State.unstuck (s : State) (ten : Nat) (v : Word) : State :=
  { s.modTenancy ten (Tenancy.release v) with
    cores := s.cores.map (fun p => (p.1, p.2.release ten v))
    dies := s.dies.map (fun p => (p.1, { p.2 with posted := p.2.posted.filter (fun x => !(x.1 == ten && released v (x.2 * 2 ^ 16))) }))
    qcopies := s.qcopies.map (fun x => { x with stuck := unstick v (x.ten == ten) x.stuck }) }

theorem pageRelease_eq (ten : Nat) (v : Word) (s : State) : exec (.pageRelease ten v) s =
    .next ((s.unstuck ten v).dies.foldl (fun (s : State) p =>
      s.wakeWhere p.1 (fun r => r.strand.ten == ten && r.kind == 4 && released v (field r.wake.toNat 0 56))) (s.unstuck ten v)) := rfl

theorem State.unstuck_pgrel (s : State) (ten : Nat) (v : Word) : ((s.unstuck ten v).tenancy ten).pgrel = v &&& (mask 55 16 ||| 1) := by
  have h : (s.unstuck ten v).tenancy ten = (s.tenancy ten).release v :=
    (State.tenancy_modTenancy s ten (Tenancy.release v) ten).trans (if_pos rfl)
  rw [h]
  rfl

theorem State.unstuck_posted (s : State) (ten d : Nat) (v : Word) :
    ((s.unstuck ten v).die d).posted = (s.die d).posted.filter (fun x => !(x.1 == ten && released v (x.2 * 2 ^ 16))) :=
  congrArg Die.posted (tget_map (fun _ (x : Die) => { x with posted := x.posted.filter (fun x => !(x.1 == ten && released v (x.2 * 2 ^ 16))) })
    {} (fun _ => rfl) s.dies d)

/-! ## The table-update engine -/

theorem State.tueStep_of_head {s : State} {x : TueCmd} (hh : ∀ k, k < 4 → (s.die k).halted = none) (hx : s.tueHead = some x)
    (hb : x.bad s.pkg.tueNext = false) {mine : Nat → Bool} (hm : mine x.op = true) (k : TueCmd → State → State) :
    s.tueStep mine k = k x s := by
  simp [State.tueStep, hh 0 (by omega), hh 1 (by omega), hh 2 (by omega), hh 3 (by omega), hx, hm, hb]

theorem cdiv_pages {n : Nat} (h : 0 < n) : cdiv n (2 ^ 16) * 2 ^ 16 ≠ 0 := by
  simp only [cdiv]
  omega

/-! ## Register writes -/

theorem regWrite_pf (v : Word) (s : State) {off : Nat} (h : off < 0x20000 ∨ 0x31000 ≤ off) :
    exec (.regWrite 0 off v) s = .next { s with pkg := s.pkg.regWrite off v } := by
  show execRegWrite 0 off v s = _
  rw [execRegWrite, if_neg (not_not.2 rfl), if_neg]
  simp only [Bool.and_eq_true, decide_eq_true_eq]
  omega

theorem regWrite_tcb (v : Word) (s : State) {t off : Nat} (ht : t ≤ 16) (ho : off < 0x1000) :
    exec (.regWrite 0 (0x20000 + 0x1000 * t + off) v) s = .next (s.modTenancy t (fun x => x.regWrite true off v)) := by
  have hn : (0x20000 + 0x1000 * t + off - 0x20000) / 0x1000 = t := by omega
  have hm : (0x20000 + 0x1000 * t + off) % 0x1000 = off := by omega
  have hin : (decide (0x20000 ≤ 0x20000 + 0x1000 * t + off) && decide (0x20000 + 0x1000 * t + off < 0x31000)) = true := by
    simp only [Bool.and_eq_true, decide_eq_true_eq]
    omega
  show execRegWrite 0 _ v s = _
  rw [execRegWrite, if_neg (not_not.2 rfl), if_pos hin, hn, hm]

theorem regWrite_vf (v : Word) (s : State) {ten off : Nat} (h0 : 1 ≤ ten) (h16 : ten ≤ 16) (ho : off < 0x1000) :
    exec (.regWrite ten off v) s = .next (s.modTenancy ten (fun x => x.regWrite false off v)) := by
  show execRegWrite ten off v s = _
  rw [execRegWrite, if_pos (by omega), if_pos (by simp [h16, ho])]

theorem tget_filter_of_dropped {α : Type} {p : Nat × α → Bool} {n : Nat} (h : ∀ v, p (n, v) = false) (t : Tab α) (d : α) :
    tget (t.filter p) d n = d := by
  induction t with
  | nil => rfl
  | cons q r ih =>
    rw [List.filter_cons]
    split
    · next hq =>
      have hn : q.1 ≠ n := fun e => absurd hq (by rw [← e] at h; simp [h q.2])
      rw [tget, if_neg hn]
      exact ih
    · exact ih

/-- The routes with a peer's entry written. -/
def State.setRoute (s : State) (m : Nat) (v : Word) : State :=
  { s with pkg := { s.pkg with route := tset s.pkg.route 0 m (v &&& (mask 63 63 ||| mask 3 0)) } }

theorem routeTableWrite_of_peer {m : Nat} (h : m < 64) (v : Word) (s : State) : exec (.routeTableWrite m v) s =
    .next (if bitAt v.toNat 63 && !bitAt (tget s.pkg.route 0 m).toNat 63 then (s.setRoute m v).newHome m else s.setRoute m v) :=
  if_neg (by omega)

/-- Settles O54: the clauses on registers are the writes themselves; a page release and a kill change, beside what they name, records and
timelines, whose stores leave the rest. -/
theorem tenancyAndRegisterEvents : Obligations.TenancyAndRegisterEvents := by
  unfold Obligations.TenancyAndRegisterEvents
  intro s ten d v
  refine ⟨rfl, ⟨_, pageRelease_eq .., ?_, ?_⟩, fun q hq => if_neg (by omega), fun q slot hdr base log2 dev w r hq => ?_, fun h => if_pos h,
    ⟨_, tcbResetKill_eq .., ?_, fun k b => ?_⟩, rfl, fun hh x hx hb => ⟨fun ho => ?_, fun ho hv => ?_, fun ho => ?_⟩, fun hr hw hc => ?_,
    congrArg _ ?_, ?_, ?_, fun off => regWrite_pf v s, fun t off => regWrite_tcb v s, fun off => regWrite_vf v s, fun m hm => ?_⟩
  · have htens : ∀ t : State, t.tens = (s.unstuck ten v).tens → (t.tenancy ten).pgrel = v &&& (mask 55 16 ||| 1) := fun t ht => by
      rw [State.tenancy_of_tens ht]
      exact s.unstuck_pgrel ten v
    exact htens _ (foldl_keeps State.tens (fun s p => s.wakeWhere_tens _ _) _ _)
  · intro x hx
    rw [foldl_keeps (fun t : State => (t.die d).posted) (fun s p => s.wakeWhere_posted _ _ _), State.unstuck_posted, List.mem_filter] at hx
    refine ⟨hx.1, fun ⟨ht, hr⟩ => ?_⟩
    have := hx.2
    rw [(released_page v x.2).2 hr] at this
    simp [ht] at this
  · intro va hw
    show execNotifyWrite ten q slot hdr s = _
    simp only [execNotifyWrite, hq]
    exact if_neg (ne_true_of_eq_false hw)
  · rw [State.tenancy_setTenancy, if_pos rfl, State.resetKill_hostUp]
  · rw [State.die_of_dies (State.setTenancy_dies _ _ _), State.die_mapDies _ _ rfl]
    exact Die.resetTen_boards
  · have hm : (decide (x.op ≤ 1) || decide (3 < x.op)) = true := by rw [ho]; rfl
    exact congrArg Host.Outcome.next (State.tueStep_of_head hh hx hb (mine := fun op => op ≤ 1 || 3 < op) hm _)
  · exact congrArg _ ((State.tueStep_of_head hh hx hb (by simp [ho]) _).trans (if_neg (cdiv_pages hv)))
  · exact congrArg _ (State.tueStep_of_head hh hx hb (by simp [ho]) _)
  · have hbusy : (!(s.die d).recs.isEmpty || !(s.windowsOn d).isEmpty || s.cores.any (fun p => dieOf p.1 == d && !p.2.residents.isEmpty)) = false := by
      have hany : s.cores.any (fun p => dieOf p.1 == d && !p.2.residents.isEmpty) = false := List.any_eq_false.2 fun p hp => by
        have := hc p hp
        simp only [dieOf, Bool.and_eq_true, beq_iff_eq, Bool.not_eq_true', not_and, Bool.not_eq_false]
        exact fun h => by rw [this h]; rfl
      rw [hr, hw, hany]
      rfl
    refine (if_neg (ne_true_of_eq_false hbusy)).trans ?_
    rw [field, Nat.pow_zero, Nat.div_one]
    rfl
  · rfl
  · show execXdtoWrite v s = _
    rw [execXdtoWrite, field, Nat.pow_zero, Nat.div_one]
  · rfl
  · rw [routeTableWrite_of_peer hm]
    refine ⟨_, rfl, ?_, fun h1 h0 n hn => ?_⟩
    · rw [apply_ite (fun t : State => tget t.pkg.route 0 m)]
      exact (ite_self _).trans ((tget_tset _ _ _ _ _).trans (if_pos rfl))
    · rw [getLsbD_eq_bitAt] at h1 h0
      rw [if_pos (show (_ && !_) = true by rw [h1, show bitAt (tget s.pkg.route 0 m).toNat 63 = false from h0]; rfl)]
      exact tget_filter_of_dropped (fun _ => by simp [hn]) _ _

end Sys2Proof.Machine
end

section
/-! The host, its peers and the links (O55). -/

namespace Sys2Proof.Machine

set_option Elab.async false

open Sys2Proof

theorem field_low_four (x : Nat) : field x 0 4 = x % 16 := by
  rw [field, Nat.pow_zero, Nat.div_one]
  rfl

/-! ## The host's accesses -/

section
variable {s : State} {fn va n : Nat} {ps : List Part}

theorem hostAccess_of_up (hu : s.pkg.hostUp = true) (hh : s.pkg.hostHeld = none) (hf : fn ≤ 16) (op : HostOp) (v : Nat) :
    exec (.hostAccess fn va n op v) s = match op with
      | .read => .next ((s.agentWalks fn va n).hostRead fn va n)
      | .write => .next ((s.agentWalks fn va n).hostWrite fn va n v)
      | .regRead => .next (s.replyHost false false (s.regRead fn va)) := by
  refine (if_neg ?_).trans (by cases op <;> rfl)
  simp [hu, hh, hf]

theorem State.hostRead_of_ok (h : s.agentRange fn .read va n = .ok ps) :
    s.hostRead fn va n = (s.partsFill ps).replyHost false false (s.partsVal ps) := by
  simp only [State.hostRead, h]

theorem State.hostRead_of_fail {r : Nat} (h : s.agentRange fn .read va n = .error (.fail r)) :
    s.hostRead fn va n = s.replyHost true false (2 ^ (8 * n) - 1) := by
  simp only [State.hostRead, h]

theorem State.hostWrite_of_ok (h : s.agentRange fn .write va n = .ok ps) (v : Nat) :
    s.hostWrite fn va n v = ((s.partsFill ps).partsStore ps v).noteQueues fn := by
  simp only [State.hostWrite, h]

theorem State.hostWrite_of_fail {r : Nat} (h : s.agentRange fn .write va n = .error (.fail r)) (v : Nat) : s.hostWrite fn va n v = s := by
  simp only [State.hostWrite, h]

end

/-! ## A peer's requests -/

section
variable {s : State} {ten va n : Nat} {ps : List Part}

theorem State.applyPeer_load (h : s.agentRange ten .read va n = .ok ps) :
    s.applyPeer ten (.load va n) = (s.partsFill ps).replyPeer 0 [s.partsVal ps] := by
  simp only [State.applyPeer, h]

theorem State.applyPeer_store (h : s.agentRange ten .write va n = .ok ps) (v : Nat) :
    s.applyPeer ten (.store va n v) = (((s.partsFill ps).partsStore ps v).noteQueues ten).replyPeer 0 [] := by
  simp only [State.applyPeer, h]

theorem State.onceFor_of_new {tag : FabTag} (h : tag.replay = false) (d : Nat) (k : State → State × Nat × List Nat) :
    s.onceFor d tag k = ((k s).1.keepReply d (tagSource tag) tag.seq ((k s).2.1 :: (k s).2.2)).replyPeer (k s).2.1 (k s).2.2 := by
  simp [State.onceFor, h]

theorem State.applyPeer_atomic {op : AtOp} {v u pa : Nat} {tag : FabTag} (h : s.agentRange ten .atomic va n = .ok ps)
    (hpa : ps.map Prod.fst = [pa]) (ho : ownHome ps = true) (ht : tag.replay = false) (hr : accRefused (.atom op) pa = none) :
    let new := atomNew op (8 * n) (s.partsVal ps) v u
    s.applyPeer ten (.atomic op va n v u tag) = (((s.partsFill ps).partsStore ps new.1).keepReply (homeDie pa) (tagSource tag) tag.seq
      [0, s.partsVal ps, b2n new.2]).replyPeer 0 [s.partsVal ps, b2n new.2] := by
  simp only [State.applyPeer, h, ho, hpa, if_true, State.onceFor_of_new ht, State.peerAtomic, List.headD_cons, hr]

theorem fabricRequestIn_of_bound {key : Nat} (h : (tget s.pkg.keymap 0 key).getLsbD 63 = true) (req : FabReq) :
    exec (.fabricRequestIn key req) s = .next (s.applyPeer (field (tget s.pkg.keymap 0 key).toNat 48 8) req) := by
  rw [getLsbD_eq_bitAt] at h
  exact if_neg (by rw [h]; decide)

theorem fabricRequestIn_of_unbound {key : Nat} (h : (tget s.pkg.keymap 0 key).getLsbD 63 = false) (req : FabReq) :
    exec (.fabricRequestIn key req) s = .next (s.replyPeer (match req with
      | .board _ _ _ _ _ _ => 4
      | _ => 12) []) := by
  rw [getLsbD_eq_bitAt] at h
  refine (if_pos (by rw [h]; decide)).trans ?_
  cases req <;> rfl

end

/-! ## The loss of a module -/

theorem Pkg.losePod_route (p : Pkg) (m c : Nat) : (p.losePod m c).route = p.route := by
  induction c with
  | zero => rfl
  | succ c ih =>
    simp only [Pkg.losePod]
    split <;> exact ih

/-- A number without a bit that it had. -/
theorem testBit_sub_two_pow {w m : Nat} (h : w.testBit m = true) : (w - 2 ^ m).testBit m = false := by
  rw [Nat.testBit_eq_decide_div_mod_eq, decide_eq_true_eq] at h
  rw [Nat.testBit_eq_decide_div_mod_eq, decide_eq_false_iff_not]
  have hle : 2 ^ m ≤ w := by
    by_contra hlt
    rw [Nat.div_eq_of_lt (Nat.lt_of_not_le hlt)] at h
    exact absurd h (by decide)
  have := Nat.sub_mul_div w (2 ^ m) 1
  rw [Nat.mul_one] at this
  omega

theorem Pkg.losePod_bit (p : Pkg) (m n c : Nat) (hc : c < n) : (tget (p.losePod m n).pod 0 (2 * c + 1)).getLsbD m = false := by
  induction n with
  | zero => omega
  | succ n ih =>
    simp only [Pkg.losePod]
    split
    · next hb =>
      rw [tget_tset]
      split
      · next he =>
        rw [bitAt_testBit] at hb
        rw [BitVec.getLsbD_ofNat, testBit_sub_two_pow hb, Bool.and_false]
      · exact ih (by omega)
    · next hb =>
      by_cases he : c = n
      · subst he
        rw [getLsbD_eq_bitAt]
        exact eq_false_of_ne_true hb
      · exact ih (by omega)

/-- The state in which a module has been lost, before the record of it. -/
def State.lost (s : State) (m : Nat) : State :=
  { s.loseRequests m with pkg := { s.pkg with route := tset s.pkg.route 0 m (tget s.pkg.route 0 m &&& mask 62 0) }.losePod m 16 }

theorem State.loseModule_pkg_of_peer {s : State} {m : Nat} (hm : m < 64) (hr : (tget s.pkg.route 0 m).getLsbD 63 = true) :
    (s.loseModule m).pkg = { s.pkg with route := tset s.pkg.route 0 m (tget s.pkg.route 0 m &&& mask 62 0) }.losePod m 16 := by
  rw [getLsbD_eq_bitAt] at hr
  simp only [State.loseModule]
  rw [if_neg (by omega), if_neg (by rw [hr]; decide)]
  rfl

theorem mask_62_getLsbD (v : Word) : (v &&& mask 62 0).getLsbD 63 = false := by
  rw [BitVec.getLsbD_and, show (mask 62 0).getLsbD 63 = false by decide, Bool.and_false]

theorem State.loseModule_of_host {s : State} (h : s.pkg.hostUp = true) :
    s.loseModule 64 = ({ s with pkg := { s.pkg with hostUp := false, hostHeld := none } }.loseRequests 64).freezeAll :=
  if_pos h

theorem State.freezeAll_pkg (s : State) : s.freezeAll.pkg = s.pkg :=
  foldl_keeps State.pkg (fun s t => s.modTenancy_pkg t _) _ s

/-- A tenancy frozen. -/
def Tenancy.freeze (x : Tenancy) : Tenancy := { x with frozen := true }

theorem State.frozen_of_frozen (l : List Nat) {s : State} {ten : Nat} (h : (s.tenancy ten).frozen = true) :
    ((l.foldl (fun (s : State) t => s.modTenancy t Tenancy.freeze) s).tenancy ten).frozen = true := by
  induction l generalizing s with
  | nil => exact h
  | cons t r ih =>
    refine ih ?_
    rw [State.tenancy_modTenancy]
    split
    · rfl
    · exact h

theorem State.frozen_of_mem {l : List Nat} {ten : Nat} (h : ten ∈ l) (s : State) :
    ((l.foldl (fun (s : State) t => s.modTenancy t Tenancy.freeze) s).tenancy ten).frozen = true := by
  induction l generalizing s with
  | nil => exact absurd h (by simp)
  | cons t r ih =>
    rcases List.mem_cons.1 h with rfl | h
    · refine State.frozen_of_frozen r ?_
      rw [State.tenancy_modTenancy, if_pos rfl]
      rfl
    · exact ih h _

/-! ## Links -/

theorem tfind_terase_self {α : Type} (t : Tab α) (k : Nat) : tfind (terase t k) k = none := by
  induction t with
  | nil => rfl
  | cons p r ih =>
    rw [terase]
    split
    · exact ih
    · next h => rw [tfind, if_neg h, ih]

section
variable {s : State} {port : Nat}

theorem State.endHold_of_free (h : tfind s.pkg.portHeld port = none) : s.endHold port = s := by
  simp only [State.endHold, h]

theorem State.beginHold_of_free (h : tfind s.pkg.portHeld port = none) :
    s.beginHold port = { s with pkg := { s.pkg with portHeld := tput s.pkg.portHeld port s.tbase } } := by
  simp only [State.beginHold, State.endHold_of_free h]

theorem State.endHold_frees {k : Nat} (h : tfind s.pkg.portHeld port = some k) : tfind (s.endHold port).pkg.portHeld port = none := by
  simp only [State.endHold, h]
  exact tfind_terase_self _ _

theorem State.retrain_of_up (h7 : bitAt (s.pkg.lane port) 7 = true) (h6 : bitAt (s.pkg.lane port) 6 = false) :
    s.retrain port = { s.beginHold port with pkg := (s.beginHold port).pkg.setLane port true true (field (s.pkg.lane port) 0 4) } :=
  if_neg (by rw [h7, h6]; decide)

theorem laneFault_of_second {l : Nat} (h7 : bitAt (s.pkg.lane port) 7 = true) (hl : l < 9) (h15 : field (s.pkg.lane port) 0 4 ≠ 15)
    (hne : field (s.pkg.lane port) 0 4 ≠ l) : exec (.laneFault port l) s = .next (s.retrain port) := by
  refine (if_neg ?_).trans (if_pos h15)
  simp [h7, hne]
  omega

theorem laneFault_of_first {l : Nat} (h7 : bitAt (s.pkg.lane port) 7 = true) (hl : l < 9) (h15 : field (s.pkg.lane port) 0 4 = 15) :
    exec (.laneFault port l) s =
      let t := if bitAt (s.pkg.lane port) 6 then s else s.beginHold port
      .next { t with pkg := t.pkg.setLane port true (bitAt (s.pkg.lane port) 6) l } := by
  refine (if_neg ?_).trans (if_neg (by simp [h15]))
  simp [h7, h15]
  omega

theorem linkRetrainComplete_of_held {k : Nat} (h : tfind s.pkg.portHeld port = some k)
    (ht : bitAt (s.pkg.lane port) 6 = true → s.tbase ≤ k + 150000) : exec (.linkRetrainComplete port) s =
      .next { s.endHold port with pkg := (s.endHold port).pkg.setLane port true false (field (s.pkg.lane port) 0 4) }.writeQlines := by
  show execLinkRetrainComplete port s = _
  simp only [execLinkRetrainComplete, h]
  refine if_neg ?_
  simp only [Bool.and_eq_true, holdLimit]
  exact fun ⟨h6, hk⟩ => absurd (ht h6) (Nat.not_le.2 (of_decide_eq_true hk))

theorem pcieRetrainComplete_of_held {k : Nat} (h : s.pkg.hostHeld = some k) :
    let t := s.shiftModules (fun m => m == 64) (min (s.tbase - k) 150000)
    exec .pcieRetrainComplete s = .next { t with pkg := { t.pkg with hostHeld := none, hostNarrow := true } }.writeQlines := by
  show execPcieRetrainComplete s = _
  simp only [execPcieRetrainComplete, h]
  rfl

end

/-- Settles O55: each clause is one branch of its event, selected by the stated conditions. -/
theorem hostAndFabricEvents : Obligations.HostAndFabricEvents := by
  unfold Obligations.HostAndFabricEvents
  intro s fn m port
  refine ⟨fun va n v ps hu hh hf => ⟨fun h => ?_, fun h => ?_, fun r h => ?_, fun r h => ?_, hostAccess_of_up hu hh hf .regRead v⟩,
    fun key req h => fabricRequestIn_of_unbound h req,
    fun ten va n ps v => ⟨State.applyPeer_load, fun h => State.applyPeer_store h v, fun op u tag pa h hpa ho ht hr => ?_⟩,
    fun key req h => fabricRequestIn_of_bound h req, fun hu page hp => if_neg (by simp [hu, hp]), rfl, fun hm => congrArg _ (if_pos hm),
    fun hm hr t ht => ?_, fun hu => ⟨?_, fun ten ht => ?_⟩, fun hu => if_neg (by simp [hu]), ?_, fun hu hh => if_neg (by simp [hu, hh]),
    fun k hk => ⟨rfl, pcieRetrainComplete_of_held hk⟩⟩
  · rw [hostAccess_of_up hu hh hf]
    exact congrArg _ (State.hostRead_of_ok h)
  · rw [hostAccess_of_up hu hh hf]
    exact congrArg _ (State.hostWrite_of_ok h v)
  · rw [hostAccess_of_up hu hh hf]
    exact congrArg _ (State.hostRead_of_fail h)
  · rw [hostAccess_of_up hu hh hf]
    exact congrArg _ (State.hostWrite_of_fail h v)
  · exact State.applyPeer_atomic h hpa ho ht hr
  · subst ht
    rw [State.loseModule_pkg_of_peer hm hr, Pkg.losePod_route]
    refine ⟨?_, fun c hc => Pkg.losePod_bit _ m 16 c hc⟩
    rw [tget_tset, if_pos rfl]
    exact mask_62_getLsbD _
  · rw [State.loseModule_of_host hu, State.freezeAll_pkg]
    rfl
  · rw [State.loseModule_of_host hu]
    exact State.frozen_of_mem (List.mem_range.2 (by omega)) _
  · have h7 : bitAt (s.pkg.lane port) 7 = (s.pkg.lane port).testBit 7 := bitAt_testBit _ _
    have h6 : bitAt (s.pkg.lane port) 6 = (s.pkg.lane port).testBit 6 := bitAt_testBit _ _
    have hf := field_low_four (s.pkg.lane port)
    refine ⟨State.beginHold_of_free, fun hd => ?_, fun hu ht => ⟨?_, fun l hl h15 hne => ?_⟩, fun hu l hl h15 => ?_, fun hu => ?_,
      fun k hk hk6 => ⟨State.endHold_frees hk, s.endHold_mem port, ?_⟩, fun hu => ?_⟩
    · rw [← hf]
      exact if_neg (by rw [h7, hd]; decide)
    · rw [← hf]
      exact congrArg _ (State.retrain_of_up (h7.trans hu) (h6.trans ht))
    · rw [← hf] at h15 hne ⊢
      rw [laneFault_of_second (h7.trans hu) hl h15 hne]
      exact congrArg _ (State.retrain_of_up (h7.trans hu) (h6.trans ht))
    · rw [← h6]
      exact laneFault_of_first (h7.trans hu) hl (hf.trans h15)
    · exact if_neg (by rw [h7, hu]; decide)
    · rw [← hf]
      exact linkRetrainComplete_of_held hk (h6 ▸ hk6)
    · rw [← hf]
      exact if_neg (by rw [h7, hu]; decide)

end Sys2Proof.Machine
end

section
/-! Errors, passes over clusters, pairs and records (O56). -/

namespace Sys2Proof.Machine

set_option Elab.async false

open Sys2Proof

/-! ## What posting a record leaves of a die -/

theorem Die.post_scrubbed (x : Die) (space : Bool) (r : EvRec) : (x.post space r).scrubbed = x.scrubbed := by
  simp only [Die.post]
  split
  · split <;> rfl
  · split
    · rfl
    · split <;> rfl

theorem Die.post_clusters (x : Die) (space : Bool) (r : EvRec) : (x.post space r).clusters = x.clusters := by
  simp only [Die.post]
  split
  · split <;> rfl
  · split
    · rfl
    · split <;> rfl

theorem State.post_scrubbed (s : State) (k ty ten cl core : Nat) (ws : List Word) (d : Nat) :
    ((s.post k ty ten cl core ws).die d).scrubbed = (s.die d).scrubbed := by
  rw [State.post, State.die_modDie]
  split
  · next h => rw [Die.post_scrubbed, h]
  · rfl

theorem State.post_cluster (s : State) (k ty ten c core : Nat) (ws : List Word) (d cl : Nat) :
    (s.post k ty ten c core ws).cluster d cl = s.cluster d cl := by
  rw [State.cluster, State.post, State.die_modDie]
  split
  · next h => rw [Die.post_clusters, State.cluster, h]
  · rfl

/-! ## Poison and the scrub -/

theorem State.mem_poisonUnit (s : State) (u v : Nat) : v ∈ (s.poisonUnit u).poison ↔ v = u ∨ v ∈ s.poison := by
  by_cases h : s.poison.contains u = true
  · rw [State.poisonUnit, if_pos h]
    exact ⟨.inr, fun hv => hv.elim (fun e => e ▸ List.contains_iff_mem.1 h) id⟩
  · have hp : (s.poisonUnit u).poison = u :: s.poison := by
      rw [State.poisonUnit, if_neg h]
      simp only []
      split <;> rfl
    rw [hp, List.mem_cons]

theorem State.poisonUnit_scrubbed (s : State) (u d : Nat) : ((s.poisonUnit u).die d).scrubbed = (s.die d).scrubbed := by
  simp only [State.poisonUnit]
  split
  · rfl
  · split
    · rw [State.die_modDie]
      split
      · next h =>
        subst h
        split <;> rfl
      · rfl
    all_goals rfl

/-- A unit with an uncorrectable error found by the scrub. -/
def State.scrubUnit (d : Nat) (s : State) (u : Nat) : State := (s.poisonUnit u).postAt d evScrubue 0xFF (64 * u)

theorem State.mem_scrubUnits (d v : Nat) (l : List Nat) (s : State) :
    v ∈ (l.foldl (State.scrubUnit d) s).poison ↔ v ∈ l ∨ v ∈ s.poison := by
  induction l generalizing s with
  | nil => simp
  | cons u r ih =>
    have hu : v ∈ (s.scrubUnit d u).poison ↔ v = u ∨ v ∈ s.poison := s.mem_poisonUnit u v
    rw [List.foldl_cons, ih, hu, List.mem_cons]
    tauto

/-- The state of a scrub after the correctable errors. -/
def State.scrubCe (s : State) (d : Nat) (ce : List Nat) : State :=
  (ce.filter (unitOn d)).foldl (fun (s : State) u => s.postAt d evCe 0xFF (64 * u)) (s.modDie d (fun x => { x with scrubbed := s.tbase }))

theorem scrub_of_due {s : State} {d : Nat} (hh : (s.die d).halted = none)
    (ht : (s.die d).scrubbed + s.pkg.scrubint.toNat * 1000000000 ≤ s.tbase) (ce ue : List Nat) : exec (.scrub d ce ue) s =
      .next ((ue.filter (fun u => unitOn d u && !(s.scrubCe d ce).poison.contains u)).foldl (State.scrubUnit d) (s.scrubCe d ce)) := by
  refine if_neg ?_
  simp only [hh, Option.isSome_none, Bool.false_or, decide_eq_true_eq]
  omega

theorem State.scrubCe_poison (s : State) (d : Nat) (ce : List Nat) : (s.scrubCe d ce).poison = s.poison :=
  foldl_keeps State.poison (f := fun (s : State) u => s.postAt d evCe 0xFF (64 * u)) (fun _ _ => rfl) _ _

theorem State.scrubCe_mem (s : State) (d : Nat) (ce : List Nat) : (s.scrubCe d ce).mem = s.mem :=
  foldl_keeps State.mem (f := fun (s : State) u => s.postAt d evCe 0xFF (64 * u)) (fun _ _ => rfl) _ _

theorem State.scrubCe_scrubbed (s : State) (d : Nat) (ce : List Nat) : ((s.scrubCe d ce).die d).scrubbed = s.tbase := by
  refine (foldl_keeps (fun t : State => (t.die d).scrubbed) (fun s u => s.post_scrubbed _ _ _ _ _ _ _) _ _).trans ?_
  rw [State.die_modDie, if_pos rfl]

theorem State.scrubUnit_scrubbed (d : Nat) (s : State) (u : Nat) : ((s.scrubUnit d u).die d).scrubbed = (s.die d).scrubbed :=
  (State.post_scrubbed _ _ _ _ _ _ _ _).trans (s.poisonUnit_scrubbed u d)

theorem State.scrubUnit_mem (d : Nat) (s : State) (u : Nat) : (s.scrubUnit d u).mem = s.mem := s.poisonUnit_mem u

/-! ## A cluster's record -/

theorem State.cluster_of_dies {s t : State} (h : t.dies = s.dies) (d cl : Nat) : t.cluster d cl = s.cluster d cl := by
  rw [State.cluster, State.die_of_dies h, State.cluster]

@[simp] theorem State.cluster_modCluster (s : State) (d cl : Nat) (f : Cluster → Cluster) :
    (s.modCluster d cl f).cluster d cl = f (s.cluster d cl) := by
  simp only [State.cluster, State.modCluster, State.die_modDie, if_true, tget_tput]

@[simp] theorem State.cluster_setDrain (s : State) (d cl : Nat) (z : Drain) :
    (s.setDrain d cl z).cluster d cl = { s.cluster d cl with drain := z } :=
  (State.cluster_of_dies (State.relink_memorySide _ d _).dies d cl).trans (s.cluster_modCluster d cl _)

theorem State.stopDrain_dies (s : State) (d cl : Nat) : (s.stopDrain d cl).dies = s.dies :=
  foldl_keeps State.dies (fun s _ => s.modSeat_dies _ _ _) _ s

theorem Die.replaceRows_clusters (x : Die) (d cl : Nat) : (x.replaceRows d cl).clusters = x.clusters := by
  refine foldl_keeps Die.clusters (fun x u => ?_) _ x
  simp only []
  split
  · rfl
  · split <;> rfl

theorem State.cluster_modDie_of_clusters (s : State) (d cl : Nat) {f : Die → Die} (h : ∀ x, (f x).clusters = x.clusters) :
    (s.modDie d f).cluster d cl = s.cluster d cl := by
  rw [State.cluster, State.die_modDie, if_pos rfl, h, State.cluster]

/-! ## Passes -/

section
variable {s : State} {d cl t0 : Nat}

/-- The cluster as the self-test begins, with its semaphores saved. -/
def State.scanFrom (s : State) (d cl : Nat) (x : Cluster) : Cluster :=
  { x with drain := .scan s.tbase, saved := (List.range 8).map (fun j => (j, (s.core (128 * d + 8 * cl + j)).sem)) }

theorem fumarolePass_of_drained (hp : (s.die d).passCluster = some (cl, t0)) (hv : s.vacant d cl = true) (he : s.enginesDone d cl = true) :
    exec (.fumarolePass d) s = .next (s.modCluster d cl (s.scanFrom d cl)) := by
  show execFumarolePass d s = _
  simp only [execFumarolePass, hp]
  exact if_pos (by rw [hv, he]; rfl)

theorem fumarolePass_of_due (hp : (s.die d).passCluster = none) (hd : s.pkg.fumDie = d) (ht : s.pkg.fumLast + s.pkg.passTicks ≤ s.tbase) :
    exec (.fumarolePass d) s = .next (s.beginPass d) := by
  show execFumarolePass d s = _
  simp only [execFumarolePass, hp]
  exact if_pos (by simp [hd, ht])

theorem fumaroleAbandon_of_late (hp : (s.die d).passCluster = some (cl, t0)) (ht : t0 + 10000000 ≤ s.tbase) :
    exec (.fumaroleAbandon d) s = .next ((s.setDrain d cl .none).stopDrain d cl) := by
  show execFumaroleAbandon d s = _
  simp only [execFumaroleAbandon, hp]
  exact if_pos ht

theorem tget_saved {α : Type} (f : Nat → Tab α) {j : Nat} (h : j < 8) : tget ((List.range 8).map (fun j => (j, f j))) [] j = f j := by
  rw [show List.range 8 = [0, 1, 2, 3, 4, 5, 6, 7] from rfl]
  interval_cases j <;> rfl

end

/-! ## The judging of a cluster -/

/-- The semaphores of a cluster's cores as they were saved. -/
def State.restoreSems (s : State) (d cl : Nat) : State :=
  (List.range 8).foldl (fun (s' : State) j => s'.modCore (128 * d + 8 * cl + j) (fun k => { k with sem := tget (s.cluster d cl).saved [] j })) s

theorem State.cluster_restoreSems (s : State) (d cl : Nat) : (s.restoreSems d cl).cluster d cl = s.cluster d cl :=
  State.cluster_of_dies (foldl_keeps State.dies (fun s _ => s.modCore_dies _ _) _ s) d cl

theorem scanSelfTestComplete_of_scan {s : State} {d cl t0 : Nat} (h : (s.cluster d cl).drain = .scan t0) (failed : List Nat) :
    exec (.scanSelfTestComplete d cl failed) s =
      .next (((((s.restoreSems d cl).judgeCluster d cl failed).modCluster d cl (fun x => { x with saved := [] })).setDrain d cl .none).modDie d
        (fun x => x.replaceRows d cl)) := by
  show execScanSelfTestComplete d cl failed s = _
  simp only [execScanSelfTestComplete, h]
  rfl

theorem scanSelfTestComplete_of_none {s : State} {d cl : Nat} (h : (s.cluster d cl).drain = .none) (failed : List Nat) :
    exec (.scanSelfTestComplete d cl failed) s =
      .next (s.modCluster d cl (fun x => { x with pending := (x.pending ++ failed).eraseDups })) := by
  show execScanSelfTestComplete d cl failed s = _
  simp only [execScanSelfTestComplete, h]

/-- The cluster after a completed scan, by what judging its cores has left of it. -/
theorem State.cluster_of_scan (s : State) (d cl : Nat) (failed : List Nat) :
    (((((s.judgeCluster d cl failed).modCluster d cl (fun x => { x with saved := [] })).setDrain d cl .none).modDie d
      (fun x => x.replaceRows d cl))).cluster d cl = { (s.judgeCluster d cl failed).cluster d cl with saved := [], drain := .none } := by
  rw [State.cluster_modDie_of_clusters _ _ _ (fun x => x.replaceRows_clusters d cl), State.cluster_setDrain, State.cluster_modCluster]

/-- The cores of a cluster judged. -/
def State.judgeCores (s : State) (d cl : Nat) (failed : List Nat) : State := (List.range 8).foldl (fun (s : State) j => s.judgeCore d cl failed j) s

theorem State.cluster_judgeCluster (s : State) (d cl : Nat) (found : List Nat) : (s.judgeCluster d cl found).cluster d cl =
    let failed := found ++ (s.cluster d cl).pending
    let t := s.judgeCores d cl failed
    { t.cluster d cl with
      pending := [], spareUsed := (t.cluster d cl).spareUsed || failed.contains 8, split := bitAt t.pkg.split.toNat (16 * d + cl) } := by
  unfold State.judgeCluster State.judgeCores
  exact State.cluster_modCluster _ d cl _

theorem State.judgeCores_of_sound {s : State} {d cl : Nat} {failed : List Nat} (h : ∀ j, j < 8 → (s.cluster d cl).physOf j ∉ failed) :
    s.judgeCores d cl failed = s := by
  have hall (l : List Nat) (hl : ∀ j ∈ l, j < 8) : l.foldl (fun (s : State) j => s.judgeCore d cl failed j) s = s := by
    induction l with
    | nil => rfl
    | cons j r ih =>
      have hj : s.judgeCore d cl failed j = s := if_pos (by simp [h j (hl j (by simp))])
      rw [List.foldl_cons, hj]
      exact ih (fun k hk => hl k (by simp [hk]))
  exact hall _ (fun j hj => List.mem_range.1 hj)

theorem State.judgeCluster_pending (s : State) (d cl : Nat) (found : List Nat) : ((s.judgeCluster d cl found).cluster d cl).pending = [] := by
  rw [State.cluster_judgeCluster]

theorem State.judgeCluster_spareUsed {s : State} {d cl : Nat} {found : List Nat} (h : 8 ∈ found) :
    ((s.judgeCluster d cl found).cluster d cl).spareUsed = true := by
  rw [State.cluster_judgeCluster]
  simp [h]

theorem State.judgeCluster_phys {s : State} {d cl : Nat} {found : List Nat}
    (h : ∀ j, j < 8 → (s.cluster d cl).physOf j ∉ found ++ (s.cluster d cl).pending) :
    ((s.judgeCluster d cl found).cluster d cl).phys = (s.cluster d cl).phys := by
  rw [State.cluster_judgeCluster]
  dsimp only
  rw [State.judgeCores_of_sound h]

/-! ## Pairs -/

section
variable {s : State} {d cl : Nat}

theorem pairCheckpoint_of_due (hp : (s.cluster d cl).paired = true) (hr : (s.cluster d cl).retry = none)
    (ht : 256 * ((s.cluster d cl).ckpt + 1) ≤ s.cyc) :
    exec (.pairCheckpoint d cl) s = .next (s.modCluster d cl (fun x => { x with ckpt := s.cyc / 256 })) :=
  if_pos (by simp [hp, hr, ht])

theorem pairMismatch_first (hp : (s.cluster d cl).paired = true) (hm : (s.cluster d cl).mism = []) (hd : (s.cluster d cl).drain = .none) :
    exec (.pairMismatch d cl) s = .next (((s.modCluster d cl (fun x =>
      { x with mism := [s.tbase], retry := some s.cyc })).setDrain d cl (.pair s.tbase)).drainSeats d cl) := by
  refine (if_neg (by rw [hp]; decide)).trans ?_
  rw [hm, hd]
  rfl

/-- The state in which a pair has been retired, before the record of it. -/
def State.retirePair (s : State) (d cl : Nat) : State :=
  (s.modCluster d cl (fun x => { x with mism := [], pairOut := true, retry := none })).setDrain d cl (match (s.cluster d cl).drain with
    | .pair _ => .none
    | z => z)

theorem pairMismatch_third {a b : Nat} {r : List Nat} (hp : (s.cluster d cl).paired = true) (hm : (s.cluster d cl).mism = a :: b :: r)
    (ha : s.tbase < a + 2 ^ 30) (hb : s.tbase < b + 2 ^ 30) :
    exec (.pairMismatch d cl) s = .next ((s.retirePair d cl).post d evPairfail 0xFF cl 0 [0]) := by
  refine (if_neg (by rw [hp]; decide)).trans (if_pos ?_)
  simp only [hm, List.filter_cons, decide_eq_true ha, decide_eq_true hb, if_true, List.length_cons]
  omega

theorem pairReturnToService_of_vacant {k t0 : Nat} (hr : (s.cluster d cl).retry = some k) (hd : (s.cluster d cl).drain = .pair t0)
    (hv : s.vacant d cl = true) (ht : k + 256 ≤ s.cyc) : exec (.pairReturnToService d cl) s =
      .next ((((s.modCluster d cl (fun x => { x with retry := none })).judgeCluster d cl []).setDrain d cl .none).post d evPairretry 0xFF cl 0 [0]) := by
  show execPairReturnToService d cl s = _
  simp only [execPairReturnToService, hr, hv, hd]
  exact (if_neg (by decide)).trans (if_neg (by omega))

end

/-! ## Records sent to the host -/

theorem State.hostSpace_of_frozen {s : State} (h : ∃ p ∈ s.tens, p.2.frozen = true) : s.hostSpace = false := by
  obtain ⟨p, hp, hf⟩ := h
  have hall : s.tens.all (fun p => !p.2.frozen) = false := List.all_eq_false.2 ⟨p, hp, by simp [hf]⟩
  rw [State.hostSpace, hall, Bool.and_false, Bool.false_and]

theorem State.sendEvent_of_full {s : State} (h : s.hostSpace = false) (d : Nat) : s.sendEvent d = s :=
  if_pos (by rw [h]; rfl)

theorem State.sendEvent_of_record {s : State} {d : Nat} {r : EvRec} {rs : List EvRec} (hb : (s.die d).faultBuf = r :: rs)
    (hs : (s.die d).summary.any = false) (hh : s.hostSpace = true) (hl : s.pkg.hostHeld = none) (hd : (s.die d).halted = none) :
    s.sendEvent d = (s.emit d r).modDie d (fun x => { x with faultBuf := x.faultBuf.tail }.admitEvent) := by
  refine (if_neg (by simp [hh, hl, hd])).trans ((if_neg (ne_true_of_eq_false hs)).trans ?_)
  rw [hb]

theorem State.emit_evqWidx (s : State) (d : Nat) (r : EvRec) : (s.emit d r).pkg.evqWidx = s.pkg.evqWidx + 1 := rfl

/-- Settles O56: each clause is a branch of its event; what a scan and a pass leave of the cluster is read off its record. -/
theorem reliabilityEvents : Obligations.ReliabilityEvents := by
  unfold Obligations.ReliabilityEvents
  intro s d cl
  refine ⟨fun ten lid cls agent pa va h => ⟨?_, (s.mem_poisonUnit _ _).2 (.inl rfl)⟩, fun ten lid agent pa va => rfl, fun place => rfl,
    fun ce ue hh ht => ⟨_, scrub_of_due hh ht ce ue, ?_, ?_, fun u hu ho => ?_, fun u hu => ?_⟩, fumarolePass_of_due,
    fun t0 hp => ⟨fun hv he => ⟨_, fumarolePass_of_drained hp hv he, ?_, fun j hj => ?_⟩, fun ht => ⟨_, fumaroleAbandon_of_late hp ht, ?_⟩⟩,
    fun failed t0 h => ⟨_, scanSelfTestComplete_of_scan h failed, ?_⟩, fun failed h => scanSelfTestComplete_of_none h failed,
    fun hp => ⟨pairCheckpoint_of_due hp, pairMismatch_first hp, fun a b r hm ha hb => ⟨_, pairMismatch_third hp hm ha hb, ?_⟩⟩,
    fun k t0 => pairReturnToService_of_vacant, fun ty ten place => rfl, fun h => ?_, fun r rs hb hs hh hl hd => ?_⟩
  · rcases h with rfl | rfl <;> rfl
  · refine (foldl_keeps (fun t : State => (t.die d).scrubbed) (State.scrubUnit_scrubbed d) _ _).trans ?_
    exact s.scrubCe_scrubbed d ce
  · exact (foldl_keeps State.mem (State.scrubUnit_mem d) _ _).trans (s.scrubCe_mem d ce)
  · rw [State.mem_scrubUnits, s.scrubCe_poison, List.mem_filter]
    by_cases hm : u ∈ s.poison
    · exact .inr hm
    · exact .inl ⟨hu, by simp [ho, hm]⟩
  · rw [State.mem_scrubUnits, s.scrubCe_poison]
    exact .inr hu
  · rw [State.cluster_modCluster]
    rfl
  · rw [State.cluster_modCluster]
    exact tget_saved (fun j => (s.core (128 * d + 8 * cl + j)).sem) hj
  · rw [State.cluster_of_dies (State.stopDrain_dies _ _ _), State.cluster_setDrain]
  · rw [State.cluster_of_scan]
    dsimp only
    refine ⟨rfl, (s.restoreSems d cl).judgeCluster_pending d cl failed, State.judgeCluster_spareUsed, fun hj => ?_⟩
    rw [← s.cluster_restoreSems d cl] at hj ⊢
    exact State.judgeCluster_phys hj
  · rw [State.post_cluster, State.retirePair, State.cluster_setDrain, State.cluster_modCluster]
    exact ⟨rfl, rfl⟩
  · exact congrArg _ (State.sendEvent_of_full (State.hostSpace_of_frozen h) d)
  · have he := State.sendEvent_of_record hb hs hh hl hd
    exact ⟨congrArg _ he, congrArg _ he, s.emit_evqWidx d r⟩

end Sys2Proof.Machine
end

section
/-! The package: reset (O1), a package reset and bring-up (O57), and words of the encoding tables (O60). -/

namespace Sys2Proof.Machine

set_option Elab.async false

open Sys2Proof

/-- A table restricted to some keys. -/
theorem tget_filter_keys {α : Type} (p : Nat → Bool) (t : Tab α) (d : α) (k : Nat) :
    tget (t.filter (fun q => p q.1)) d k = if p k = true then tget t d k else d := by
  induction t with
  | nil => simp [tget]
  | cons q r ih =>
    rw [List.filter_cons, tget]
    by_cases hk : q.1 = k
    · subst hk
      by_cases hp : p q.1 = true
      · rw [if_pos hp, if_pos hp, tget, if_pos rfl, if_pos rfl]
      · rw [if_neg hp, ih, if_neg hp, if_neg hp]
    · rw [if_neg hk, ← ih]
      split
      · rw [tget, if_neg hk]
      · rfl

/-- Every entry of a table with one value reads as that value or as the default. -/
theorem tget_const {α β : Type} (l : Tab β) (v d : α) (k : Nat) : tget (l.map (fun p => (p.1, v))) d k = v ∨ tget (l.map (fun p => (p.1, v))) d k = d := by
  induction l with
  | nil => exact .inr rfl
  | cons p r ih =>
    rw [List.map_cons, tget]
    split
    · exact .inl rfl
    · exact ih

/-- The state that a package reset leaves. -/
def State.afterReset (s : State) : State :=
  let t : State := s.lines.foldl (fun (s : State) p => s.keyAfter p.1 p.2) s
  { State.reset with
    mem := s.mem.filter (fun p => !inPool p.1), keys := t.keys, poison := s.poison.filter (fun u => !inPool (64 * u))
    cores := (s.cores.filter (fun p => p.2.absent)).map (fun p => (p.1, { absent := true }))
    dies := s.dies.map (fun p => (p.1, { clusters := p.2.clusters.map (fun q => (q.1, q.2.repairs)) }))
    pkg := { keygen := s.pkg.keygen + 1 }, agenda := s.agenda, free := s.free }

theorem packageReset_eq (s : State) : exec .packageReset s = .next s.afterReset := rfl

theorem State.afterReset_core {s : State} {c : Nat} (h : (s.afterReset.core c).absent = false) : s.afterReset.core c = {} := by
  rcases tget_const (s.cores.filter (fun p => p.2.absent)) { absent := true } ({} : Core) c with hc | hc
  · exact absurd (h.symm.trans (congrArg Core.absent hc)) (by decide)
  · exact hc

theorem State.afterReset_byte (s : State) (a : Nat) : Memory.byte s.afterReset.mem a = if inPool a = true then 0 else Memory.byte s.mem a := by
  refine (tget_filter_keys (fun a => !inPool a) s.mem Config.blank a).trans ?_
  cases inPool a <;> rfl

theorem Pkg.measured_iff (p : Pkg) : p.measured = true ↔ p.rejected = false ∧ ∀ k, k < 3 → ∃ x ∈ p.images, x.1 = k := by
  rw [Pkg.measured, Bool.and_eq_true, Bool.not_eq_true', List.all_eq_true]
  refine and_congr_right fun _ => ⟨fun h k hk => ?_, fun h k hk => ?_⟩
  · have := h k (by simp only [List.mem_cons, List.not_mem_nil, or_false]; omega)
    simpa using this
  · have hk3 : k < 3 := by
      simp only [List.mem_cons, List.not_mem_nil, or_false] at hk
      omega
    simpa using h k hk3

/-- Settles O57: a reset's state is read field by field, and each other event has one branch for the stated conditions. -/
theorem packageEvents : Obligations.PackageEvents := by
  unfold Obligations.PackageEvents
  intro s
  refine ⟨⟨_, packageReset_eq s, rfl, rfl, rfl, rfl, rfl, rfl, rfl, fun c => State.afterReset_core, s.afterReset_byte⟩, s.pkg.measured_iff,
    fun hf hm hl ht => if_neg ?_, fun hl => if_neg (by omega), fun h => if_pos ?_, fun image digest h0 hi hn => ?_, fun key ten hk hk' ht hb => if_neg ?_⟩
  · have hb : ¬bringupLimit ≤ s.tbase := Nat.not_le.2 ht
    simp [hf, hm, hb]
    omega
  · rcases h with h | h | h
    · simp [h]
    · simp [h]
    · have hb : bringupLimit ≤ s.tbase := h
      simp [hb]
  · have hfresh : s.pkg.images.any (fun q => q.1 == image) = false := List.any_eq_false.2 fun q hq => by simp [hn q hq]
    have hgo : ¬(decide (s.svclvl ≠ 0) || decide (2 < image) || s.pkg.images.any (fun q => q.1 == image)) = true := by
      simp [hfresh, h0]
      omega
    exact ⟨(if_neg hgo).trans (if_pos rfl), (if_neg hgo).trans (if_neg (by decide))⟩
  · simp [hb]
    omega

/-- Settles O1: every table of the reset state is empty, so that each entry is its default. -/
theorem resetState : Obligations.ResetState := by
  unfold Obligations.ResetState
  refine ⟨rfl, fun a => rfl, rfl, rfl, rfl, rfl, rfl, fun c i => ?_, fun d => ?_, ?_, fun t => ?_, fun c => ?_, fun m => ?_, fun port => rfl⟩
  · exact ⟨rfl, rfl, rfl, rfl, rfl, rfl, rfl, rfl, rfl, rfl⟩
  · exact ⟨rfl, rfl, rfl⟩
  · decide
  · exact ⟨rfl, rfl, rfl, rfl, rfl, rfl, rfl, rfl, rfl, rfl, rfl, rfl, rfl⟩
  · exact ⟨rfl, rfl, rfl, rfl, rfl, rfl, rfl, rfl, rfl, rfl⟩
  · show (0 : Word).getLsbD 63 = false
    decide

/-! ## Words of the encoding tables -/

/-- Settles O60: each word decodes, field by field, as the tables say. -/
theorem specWordsDecode : Obligations.SpecWordsDecode := by
  unfold Obligations.SpecWordsDecode
  extract_lets ctx g reads refuses
  refine ⟨?_, ?_, ?_, ?_, ?_, ?_, ?_, ?_, ?_, ?_, ?_, ?_, ?_, ?_, ?_, ?_, ?_, ?_, ?_, ?_, ?_, ?_, ?_, ?_, ?_⟩
  all_goals exact ⟨_, rfl, rfl⟩

end Sys2Proof.Machine
end

section
/-! The bundle that issues (O5). What an operation leaves of the bundle being issued comes first; what it leaves of the seats (`Steady`) is
used for the syllables again (O58, O59). -/

namespace Sys2Proof.Machine

set_option Elab.async false

open Sys2Proof

/-! ## What an operation leaves of the bundle being issued -/

theorem MemorySide.iss {s t : State} (h : MemorySide s t) : t.iss = s.iss := Eq.trans (congrArg State.iss (show t = _ from h)) rfl

@[simp] theorem State.setRecs_iss (s : State) (d : Nat) (rs : List Rec) : (s.setRecs d rs).iss = s.iss := (s.setRecs_memorySide d rs).iss

@[simp] theorem State.reach_iss (s : State) (now : Nat) : (s.reach now).iss = s.iss := by
  simp only [State.reach]
  split <;> rfl

@[simp] theorem State.idle_iss (s : State) (c n : Nat) : (s.idle c n).iss = s.iss := State.reach_iss _ _

@[simp] theorem State.releaseSeat_iss (s : State) (c i : Nat) : (s.releaseSeat c i).iss = s.iss := by
  simp only [State.releaseSeat]
  split <;> rfl

@[simp] theorem State.trySeat_iss (s : State) (c n i : Nat) : (s.trySeat c n i).iss = s.iss := by
  simp only [State.trySeat]
  (repeat' split) <;> rfl

@[simp] theorem State.semComplete_iss (s : State) (c n : Nat) : (s.semComplete c n).iss = s.iss := by
  simp only [State.semComplete]
  split
  · simp
  · split <;> simp

@[simp] theorem State.settleSems_iss (s : State) (c : Nat) : (s.settleSems c).iss = s.iss :=
  foldl_keeps State.iss (fun s n => s.semComplete_iss c n) _ s

@[simp] theorem State.settleBanks_iss (s : State) (c : Nat) : (s.settleBanks c).iss = s.iss := by
  simp only [State.settleBanks]
  split <;> rfl

@[simp] theorem State.applySig_iss (s : State) (c i : Nat) (g : Sig) : (s.applySig c i g).iss = s.iss := by
  simp only [State.applySig]
  split
  · split <;> exact s.releaseSeat_iss c i
  · split <;> exact s.releaseSeat_iss c i

@[simp] theorem State.settle_iss (s : State) (c i : Nat) : (s.settle c i).iss = s.iss := by
  have hd (n : Nat) (s : State) : (s.drainSigs c i n).iss = s.iss := by
    induction n generalizing s with
    | zero => rfl
    | succ n ih =>
      simp only [State.drainSigs]
      split
      · rfl
      · split
        · rw [ih, State.applySig_iss, State.modSeat_iss]
        · rfl
  exact hd _ s

@[simp] theorem State.refresh_iss (s : State) (c i : Nat) : (s.refresh c i).iss = s.iss := by simp [State.refresh]

@[simp] theorem State.arrivePhase_iss (s : State) (c i : Nat) : (s.arrivePhase c i).iss = s.iss := by
  simp only [State.arrivePhase]
  split
  · split
    · rw [State.modLaunch_iss, State.modSeat_iss]
      split
      · rfl
      · exact s.releaseSeat_iss c i
    · rfl
  · rfl

@[simp] theorem State.takePhase_iss (s : State) (c i : Nat) : (s.takePhase c i).iss = s.iss := by
  simp only [State.takePhase]
  (repeat' split) <;> rfl

@[simp] theorem State.takeBarr_iss (s : State) (c i : Nat) : (s.takeBarr c i).iss = s.iss := by
  simp only [State.takeBarr, State.endBarr]
  (repeat' split) <;> rfl

theorem State.tryWait_iss (s : State) (c i : Nat) : (s.tryWait c i).1.iss = s.iss := by
  simp only [State.tryWait]
  split
  · rfl
  · exact s.semComplete_iss c _
  · (repeat' split) <;> rfl
  · rw [State.takePhase_iss, State.arrivePhase_iss]
  · exact s.takeBarr_iss c i
  · split <;> rfl
  · split <;> rfl

@[simp] theorem State.returnWait_iss (s : State) (c i : Nat) : (s.returnWait c i).iss = s.iss := by
  simp only [State.returnWait]
  split <;> rfl

@[simp] theorem State.blockSeat_iss (s : State) (c i : Nat) : (s.blockSeat c i).iss = s.iss := s.idle_iss c 1

theorem State.preemptNow_iss (s : State) (c i : Nat) : (s.preemptNow c i).iss = s.iss := by
  unfold State.preemptNow
  extract_lets s1 s2
  have hw : s2.iss = s.iss := by
    show s1.iss = s.iss
    simp only [s1]
    split
    · rfl
    · exact s.returnWait_iss c i
  split <;> exact hw

@[simp] theorem State.settleBy_iss (s : State) (c i last : Nat) : (s.settleBy c i last).iss = s.iss := by
  simp only [State.settleBy, State.settleBanks_iss, State.modSeat_iss]
  split
  · exact s.idle_iss c _
  · rfl

@[simp] theorem State.debugStop_iss (s : State) (c i : Nat) : (s.debugStop c i).iss = s.iss := by
  simp only [State.debugStop]
  split
  · rfl
  · exact s.settleBy_iss c i _

@[simp] theorem State.enterTrap_iss (s : State) (c i : Nat) (p : PendingTrap) : (s.enterTrap c i p).iss = s.iss := by
  simp only [State.enterTrap]
  rw [apply_ite State.iss, State.debugStop_iss, State.modSeat_iss, ite_self]

theorem State.killStrand_iss {s : State} (c i status : Nat) (h : s.iss = none) : (s.killStrand c i status).iss = none := by
  have hw : (s.returnWait c i).iss = none := (s.returnWait_iss c i).trans h
  simp only [State.killStrand, State.modSeat_iss, State.dropIssue, hw]

/-- A trap taken leaves no bundle being issued. -/
theorem State.takeTrap_iss (s : State) (c i : Nat) (r : TrapRec) (tpc : Word) (dly : Delay) (redo : Option Word) :
    (s.takeTrap c i r tpc dly redo).iss = none := by
  unfold State.takeTrap
  extract_lets held stopped t p drained
  have hstop : stopped.iss = none := rfl
  have hdrain : drained.iss = none := (State.idle_iss _ c 4).trans (stopped.settleBy_iss c i _)
  clear_value drained stopped
  split
  · exact State.killStrand_iss c i 1 hstop
  · split
    · exact hdrain
    · exact (drained.enterTrap_iss c i p).trans hdrain

theorem State.takeDeferred_iss {s : State} (c i : Nat) (h : s.iss = none) : (s.takeDeferred c i).iss = none := by
  simp only [State.takeDeferred]
  split
  · exact h
  · exact State.takeTrap_iss ..

@[simp] theorem State.pageSuspend_iss (s : State) (c i va kind : Nat) : (s.pageSuspend c i va kind).iss = s.iss := by
  have hp (d ten lid : Nat) : (s.postPage d ten lid va kind).iss = s.iss := by
    simp only [State.postPage]
    split <;> rfl
  simp only [State.pageSuspend]
  split
  · rfl
  · split
    · rw [State.modSeat_iss, State.returnWait_iss, hp]
    · rw [State.modSeat_iss, State.returnWait_iss, hp]

theorem State.consumeAt_iss (s : State) (ten lid cls agent pa va : Nat) : (s.consumeAt ten lid cls agent pa va).iss = s.iss := by
  have hc : (s.consume ten lid cls agent pa va).iss = s.iss := by
    simp only [State.consume]
    split
    · rfl
    · split <;> rfl
  simp only [State.consumeAt]
  split <;> exact hc

/-- Of all verdicts only that to issue makes a bundle issue. -/
theorem State.carry_iss {s : State} {c i : Nat} {v : Verdict} {u : Issue} (hs : s.iss = none) (h : (s.carry c i v).iss = some u) :
    ∃ u', v = .issue u' ∧ u = { u' with checked := true, sig0 := none } := by
  have absurdly {t : State} (ht : t.iss = none) (h : t.iss = some u) : ∃ u', v = .issue u' ∧ u = { u' with checked := true, sig0 := none } := by
    rw [ht] at h
    exact absurd h (by simp)
  cases v with
  | issue u' => exact ⟨u', rfl, (Option.some.inj h).symm⟩
  | hold fixed =>
    refine absurdly ?_ h
    simp only [State.carry, State.holdSeat, State.modSeat_iss, State.idle_iss, State.countDeficit]
    split <;> exact hs
  | throttle =>
    refine absurdly ?_ h
    exact (State.idle_iss _ c 1).trans hs
  | extra n =>
    refine absurdly ?_ h
    exact (State.idle_iss _ c n).trans hs
  | block =>
    refine absurdly ?_ h
    exact (s.blockSeat_iss c i).trans hs
  | page va kind =>
    refine absurdly ?_ h
    exact (State.pageSuspend_iss _ c i va kind).trans ((State.blockSeat_iss _ c i).trans hs)
  | walk va need =>
    refine absurdly ?_ h
    exact (s.idle_iss c 1).trans hs
  | trap r =>
    refine absurdly ?_ h
    exact State.takeTrap_iss ..
  | target tpc r =>
    refine absurdly ?_ h
    exact State.takeTrap_iss ..
  | consume cls agent pa va =>
    refine absurdly ?_ h
    exact (State.blockSeat_iss _ c i).trans ((State.consumeAt_iss ..).trans hs)
  | send u' check board =>
    refine absurdly ?_ h
    exact (State.reach_iss _ _).trans hs

/-! ## What an operation leaves of the seats -/

/-- What no syllable changes of a seat: its registers but the hold latches, its pc, delay state and trap registers; of a seat that is not its own,
its latches and results under way neither. -/
structure Seat.Steady (own : Prop) (t t' : Seat) : Prop where
  regs : t'.regs = { t.regs with hl := t'.regs.hl }
  pc : t'.pc = t.pc
  trap : t'.trap = t.trap
  delay : t'.delay = t.delay
  tm : t'.tm = t.tm
  other : ¬own → t'.regs.hl = t.regs.hl ∧ t'.flights = t.flights

namespace Seat.Steady

theorem refl (own : Prop) (t : Seat) : t.Steady own t := ⟨rfl, rfl, rfl, rfl, rfl, fun _ => ⟨rfl, rfl⟩⟩

theorem trans {own : Prop} {t t' t'' : Seat} (h : t.Steady own t') (h' : t'.Steady own t'') : t.Steady own t'' where
  regs := h'.regs.trans (congrArg (fun r : Regs => { r with hl := t''.regs.hl }) h.regs)
  pc := h'.pc.trans h.pc
  trap := h'.trap.trans h.trap
  delay := h'.delay.trans h.delay
  tm := h'.tm.trans h.tm
  other := fun ho => ⟨(h'.other ho).1.trans (h.other ho).1, (h'.other ho).2.trans (h.other ho).2⟩

/-- A change to fields that a syllable may change of any seat. -/
theorem of_eq {own : Prop} {t t' : Seat} (hr : t'.regs = t.regs := by rfl) (hp : t'.pc = t.pc := by rfl) (ht : t'.trap = t.trap := by rfl)
    (hd : t'.delay = t.delay := by rfl) (hm : t'.tm = t.tm := by rfl) (hf : t'.flights = t.flights := by rfl) : t.Steady own t' :=
  ⟨by rw [hr], hp, ht, hd, hm, fun _ => ⟨by rw [hr], hf⟩⟩

/-- A change to the results under way of the own seat. -/
theorem of_own {own : Prop} {t t' : Seat} (ho : own) (hr : t'.regs = t.regs := by rfl) (hp : t'.pc = t.pc := by rfl)
    (ht : t'.trap = t.trap := by rfl) (hd : t'.delay = t.delay := by rfl) (hm : t'.tm = t.tm := by rfl) : t.Steady own t' :=
  ⟨by rw [hr], hp, ht, hd, hm, fun h => absurd ho h⟩

end Seat.Steady

/-- Every seat is left as a syllable of seat i of core c may leave it. -/
def Steady (c i : Nat) (s t : State) : Prop := ∀ c' j, (s.seat c' j).Steady (c' = c ∧ j = i) (t.seat c' j)

namespace Steady
variable {c i : Nat}

theorem refl (s : State) : Steady c i s s := fun _ _ => .refl _ _

theorem trans {s t r : State} (h : Steady c i s t) (h' : Steady c i t r) : Steady c i s r := fun c' j => (h c' j).trans (h' c' j)

theorem of_cores {s t : State} (h : t.cores = s.cores) : Steady c i s t := fun c' j => by
  rw [State.seat_of_cores h]
  exact .refl _ _

theorem of_memorySide {s t : State} (h : MemorySide s t) : Steady c i s t := of_cores h.cores

theorem modSeat {f : Seat → Seat} (s : State) (c' j : Nat) (h : ∀ t : Seat, t.Steady (c' = c ∧ j = i) (f t)) : Steady c i s (s.modSeat c' j f) := fun c'' k => by
  rw [State.seat_modSeat]
  split
  · next hk =>
    obtain ⟨rfl, rfl⟩ := hk
    exact h _
  · exact .refl _ _

theorem modCore {f : Core → Core} (s : State) (c' : Nat) (h : ∀ k, (f k).seats = k.seats) : Steady c i s (s.modCore c' f) := fun c'' j => by
  rw [State.seat_modCore_of_seats (h _)]
  exact .refl _ _

theorem setCore {k : Core} (s : State) (c' : Nat) (h : k.seats = (s.core c').seats) : Steady c i s (s.setCore c' k) := fun c'' j => by
  have hs : (s.setCore c' k).seat c'' j = s.seat c'' j := by
    simp only [State.seat, State.core_setCore]
    split
    · next hc => rw [h, hc]
    · rfl
  rw [hs]
  exact .refl _ _

theorem foldl {α : Type} {f : State → α → State} (h : ∀ s x, Steady c i s (f s x)) (l : List α) (s : State) : Steady c i s (l.foldl f s) := by
  induction l generalizing s with
  | nil => exact refl s
  | cons x r ih => exact (h s x).trans (ih _)

end Steady

/-! ## A fetch and a BCW's wait leave the seats -/

theorem Core.tryWait_seats {k k' : Core} {n v : Nat} (h : k.tryWait n v = some k') : k'.seats = k.seats := by
  simp only [Core.tryWait] at h
  split at h
  · cases h
    rfl
  · exact absurd h (by simp)

theorem wakeRecs_seats (n : Nat) (l : List Rec) (k : Core) : (wakeRecs n l k).2.seats = k.seats := by
  induction l generalizing k with
  | nil => rfl
  | cons r rs ih =>
    rw [wakeRecs]
    split
    · exact ih k
    · next h => exact (ih _).trans (Core.tryWait_seats h)

section
variable {c i : Nat}

theorem State.trySeat_steady (s : State) (k n j : Nat) : Steady c i s (s.trySeat k n j) := by
  simp only [State.trySeat]
  split
  · split
    · split
      · exact .refl s
      · next h =>
        have hk := Core.tryWait_seats h
        refine Steady.trans (Steady.setCore s k ?_) (Steady.modSeat _ k j ?_)
        · exact hk
        · exact fun _ => .of_eq
    · exact .refl s
  · exact .refl s
  · split
    · split
      · split
        · exact .refl s
        · next h =>
          have hk := Core.tryWait_seats h
          refine Steady.trans (Steady.setCore s k ?_) (Steady.modSeat _ k j ?_)
          · exact hk
          · exact fun _ => .of_eq
      · exact .refl s
    · exact .refl s
    · exact .refl s

theorem State.setRecs_steady (s : State) (d : Nat) (rs : List Rec) : Steady c i s (s.setRecs d rs) :=
  .of_cores (s.setRecs_memorySide d rs).cores

theorem State.semComplete_steady (s : State) (k n : Nat) : Steady c i s (s.semComplete k n) := by
  unfold State.semComplete
  extract_lets start s1 s2 s3 s4
  have h4 : Steady c i s s4 :=
    (((s.trySeat_steady k n _).trans (s1.trySeat_steady k n _)).trans (s2.trySeat_steady k n _)).trans (s3.trySeat_steady k n _)
  split
  · exact h4
  · simp only []
    split
    · exact h4
    · exact (h4.trans (.setCore s4 k (wakeRecs_seats n _ _))).trans (State.setRecs_steady _ _ _)

theorem State.tryBcw_steady (s : State) (k j : Nat) (b : Bcw) : Steady c i s (s.tryBcw k j b).1 := by
  unfold State.tryBcw
  extract_lets took asked
  split
  · exact .refl s
  · split
    · exact .refl s
    · exact Steady.trans (Steady.modSeat s k j fun _ => .of_eq) (State.semComplete_steady _ k _)

theorem State.steady_of_tryBcw {s r : State} {k j : Nat} {b : Bcw} {p : Bool} (h : s.tryBcw k j b = (r, p)) : Steady c i s r := by
  have := s.tryBcw_steady (c := c) (i := i) k j b
  rwa [h] at this

theorem State.fetched_steady (s : State) (k ten lid : Nat) (fresh : Bool) (va : Nat) : Steady c i s (s.fetched k ten lid fresh va) := by
  simp only [State.fetched, State.prefetchLine]
  split
  · exact .refl s
  · split
    · split
      · exact .of_memorySide (s.fillLine_memorySide _)
      · exact .refl s
    all_goals exact .refl s

theorem State.buffer_steady (s : State) (k ten va : Nat) (ws : List Word) (own : Bool) : Steady c i s (s.buffer k ten va ws own) := by
  have hc : (s.buffer k ten va ws own).cores = (s.modCore k (fun k => { k with ibuf := bufferBundle ten va ws k.ibuf })).cores := by
    cases own <;> rfl
  refine Steady.trans (Steady.modCore s k ?_) (.of_cores hc)
  exact fun _ => rfl

end

/-! ## The bundle at the pc -/

theorem decodeBundle_bcw {ctx : DecCtx} {ws : List Word} {b : Bundle} (h : decodeBundle ctx ws = .ok b) : b.bcw = Bcw.of (ws.headD 0) := by
  have hcheck {b' : Bcw} {syls : List Syl} (h : checkBundle ctx b' syls = .ok b) : b.bcw = b' := by
    simp only [checkBundle] at h
    (repeat' split at h) <;> cases h
    rfl
  simp only [decodeBundle] at h
  split at h
  · cases h
  · split at h
    · cases h
    · split at h
      · cases h
      · split at h
        · cases h
        · exact hcheck h

section
variable {s : State} {c i : Nat} {x : Strand} {fresh : Bool}

theorem State.fetchWords_length {ten lid n va : Nat} {ws : List Word} (h : s.fetchWords c ten lid fresh n va = .ok ws) : ws.length = n := by
  induction n generalizing va ws with
  | zero =>
    cases h
    rfl
  | succ n ih =>
    simp only [State.fetchWords] at h
    split at h
    · split at h
      · next hr =>
        cases h
        rw [List.length_cons, ih hr]
      · cases h
    · cases h

theorem State.fetchWords_head {ten lid n va : Nat} {ws : List Word} {w : Word} (hw : s.codeFetch c ten lid va fresh = .word w)
    (h : s.fetchWords c ten lid fresh (n + 1) va = .ok ws) : ws.headD 0 = w := by
  simp only [State.fetchWords, hw] at h
  split at h
  · cases h
    rfl
  · cases h

theorem Bcw.words_succ (b : Bcw) : ∃ n, b.words = n + 1 := ⟨b.slots.length + b2n b.ext, by rw [Bcw.words]; omega⟩

/-- Whether a seat's pc is no bundle's address, by its low bits or by the branch that gave it. -/
def Seat.offBundle (t : Seat) : Bool := t.pc &&& 7 ≠ 0 || (match t.target with
    | none => false
    | some y => y.mis)

/-- The bundle at a seat's pc where that can be a bundle's address. -/
def State.bundleAt (s : State) (c i : Nat) (x : Strand) (fresh : Bool) : Except Verdict (List Word × Bundle) :=
  let t := s.seat c i
  match s.codeFetch c x.ten x.lid t.pc.toNat fresh with
  | .word w =>
    if !w.getLsbD 63 then .error (badTarget t)
    else match s.fetchWords c x.ten x.lid fresh (Bcw.of w).words t.pc.toNat with
      | .error (va, f) => .error (s.fetchVerdict va f)
      | .ok ws => match decodeBundle (s.decCtx c t x) ws with
        | .error e => .error (.trap (decodeRec e))
        | .ok b => .ok (ws, b)
  | f => .error (s.fetchVerdict t.pc.toNat f)

theorem State.nextBundle_eq (s : State) (c i : Nat) (x : Strand) (fresh : Bool) : s.nextBundle c i x fresh =
    if (s.seat c i).offBundle then .error (badTarget (s.seat c i)) else s.bundleAt c i x fresh := rfl

/-- A bundle fetched is the decoding of its words, and its BCW gives their number. -/
theorem State.nextBundle_ok {ws : List Word} {b : Bundle} (h : s.nextBundle c i x fresh = .ok (ws, b)) :
    decodeBundle (s.decCtx c (s.seat c i) x) ws = .ok b ∧ b.bcw.words = ws.length := by
  rw [State.nextBundle_eq] at h
  split at h
  · cases h
  · simp only [State.bundleAt] at h
    split at h
    · next w hw =>
      split at h
      · cases h
      · split at h
        · cases h
        · next ws' hf =>
          split at h
          · cases h
          · next b' hd =>
            cases h
            refine ⟨hd, ?_⟩
            obtain ⟨n, hn⟩ := Bcw.words_succ (Bcw.of w)
            rw [decodeBundle_bcw hd, State.fetchWords_head hw (hn ▸ hf), State.fetchWords_length hf]
    · cases h

theorem State.fetchVerdict_ne_issue (va : Nat) (f : Fetch) (u : Issue) : s.fetchVerdict va f ≠ .issue u := by
  cases f <;> exact fun h => Verdict.noConfusion h

theorem badTarget_ne_issue (t : Seat) (u : Issue) : badTarget t ≠ .issue u := by
  rw [badTarget]
  split <;> exact fun h => Verdict.noConfusion h

theorem State.nextBundle_error {v : Verdict} (h : s.nextBundle c i x fresh = .error v) (u : Issue) : v ≠ .issue u := by
  rw [State.nextBundle_eq] at h
  split at h
  · cases h
    exact badTarget_ne_issue _ u
  · simp only [State.bundleAt] at h
    split at h
    · split at h
      · cases h
        exact badTarget_ne_issue _ u
      · split at h
        · cases h
          exact State.fetchVerdict_ne_issue _ _ u
        · split at h
          · cases h
            exact fun h => Verdict.noConfusion h
          · cases h
    · cases h
      exact State.fetchVerdict_ne_issue _ _ u

theorem State.missVerdict_ne_issue (va : Nat) (u : Issue) : s.missVerdict c i va ≠ .issue u := by
  simp only [State.missVerdict]
  split
  · exact State.fetchVerdict_ne_issue _ _ u
  · exact State.fetchVerdict_ne_issue _ _ u
  · exact fun h => Verdict.noConfusion h

/-! ## The judgement -/

theorem firstSome_spec {α β : Type} {f : α → Option β} {l : List α} {b : β} (h : firstSome f l = some b) : ∃ a ∈ l, f a = some b := by
  induction l with
  | nil => cases h
  | cons a r ih =>
    rw [firstSome] at h
    split at h
    · next hb =>
      cases h
      exact ⟨a, by simp, hb⟩
    · obtain ⟨a', ha, hf⟩ := ih h
      exact ⟨a', by simp [ha], hf⟩

theorem preVerdict_ne_issue {syls : List Instr} {ps : List Pre} {b : Busy} {v : Verdict} (h : preVerdict syls ps b = some v) (u : Issue) :
    v ≠ .issue u := by
  have hfirst {v : Verdict} (l : List Pre) (h : firstSome (fun p => match p with
      | Pre.page va k => some (Verdict.page va k)
      | Pre.walk va need => some (Verdict.walk va need)
      | _ => none) l = some v) : v ≠ .issue u := by
    obtain ⟨p, -, hp⟩ := firstSome_spec h
    split at hp
    · cases hp
      exact fun h => Verdict.noConfusion h
    · cases hp
      exact fun h => Verdict.noConfusion h
    · cases hp
  simp only [preVerdict] at h
  split at h
  · cases h
    exact fun h => Verdict.noConfusion h
  · split at h
    · cases h
      exact fun h => Verdict.noConfusion h
    · split at h
      · cases h
        exact fun h => Verdict.noConfusion h
      · split at h
        · next v' hv =>
          cases h
          exact hfirst ps hv
        · split at h
          · cases h
            exact fun h => Verdict.noConfusion h
          · cases h

theorem State.linkPoison_ne_issue {u' : Issue} {v : Verdict} (h : s.linkPoison u' = some v) (u : Issue) : v ≠ .issue u := by
  simp only [State.linkPoison] at h
  split at h
  · split at h
    · cases h
      exact State.fetchVerdict_ne_issue _ _ u
    · cases h
      exact State.fetchVerdict_ne_issue _ _ u
    · cases h
  · cases h

theorem State.checkMiss_ne_issue {u' : Issue} {v : Verdict} (h : s.checkMiss u' = some v) (u : Issue) : v ≠ .issue u := by
  obtain ⟨p, -, hp⟩ := firstSome_spec h
  obtain ⟨-, hp⟩ := Option.ite_none_right_eq_some.1 hp
  cases hp
  exact fun h => Verdict.noConfusion h

/-- A bundle that passes issues as the bundle at the pc, with what has been found of it at issue. -/
theorem State.judge_issue {b : Bundle} {u : Issue} (h : s.judge c i b = .issue u) :
    ∃ saved eval, u = { s.asIssue c i b with saved := saved, eval := eval } := by
  have hcon {v : Verdict} {bad : Option Nat} {u' : Issue}
      (hv : (bad.map (fun p => Verdict.consume 2 0 (64 * p) (2 ^ 64 - 1)) <|> s.linkPoison u' <|> s.checkMiss u') = some v) : v ≠ .issue u := by
    cases bad with
    | some p =>
      cases hv
      exact fun h => Verdict.noConfusion h
    | none =>
      cases hl : s.linkPoison u' with
      | some v' =>
        rw [hl] at hv
        cases hv
        exact State.linkPoison_ne_issue hl u
      | none =>
        rw [hl] at hv
        exact State.checkMiss_ne_issue hv u
  unfold State.judge at h
  extract_lets t u' n at h
  split at h
  next ps bad hp =>
    split at h
    · next v hv => exact absurd h (preVerdict_ne_issue hv u)
    · split at h
      · cases h
      · split at h
        · cases h
        · cases h
        · split at h
          · cases h
          · split at h
            · next v hv => exact absurd h (hcon hv)
            · split at h
              · exact ⟨_, _, (Verdict.issue.inj h).symm⟩
              · cases h

/-- A seat whose wait is over issues the bundle that the words at its pc decode to. -/
theorem State.attempt_issue {u : Issue} (hw : (s.seat c i).wait = none) (h : (s.attempt c i fresh).2 = .issue u) :
    ∃ x ws b saved eval, ∃ r : State, (s.seat c i).strand = some x ∧ s.nextBundle c i x fresh = .ok (ws, b) ∧
      (r.seat c i).pc = (s.seat c i).pc ∧ u = { r.asIssue c i b with saved := saved, eval := eval } := by
  unfold State.attempt at h
  split at h
  · cases h
  · next x hx =>
    split at h
    · cases h
    · rw [State.tryWait_of_none hw] at h
      simp only [] at h
      split at h
      · exact absurd h (State.missVerdict_ne_issue _ u)
      · split at h
        · next v hv => exact absurd h (State.nextBundle_error hv u)
        · next ws b hb =>
          split at h
          · cases h
          · next r hr =>
            obtain ⟨saved, eval, hu⟩ := State.judge_issue h
            refine ⟨x, ws, b, saved, eval, r, hx, hb, ?_, hu⟩
            have hst : Steady c i s r := by
              refine Steady.trans ?_ (State.steady_of_tryBcw hr)
              exact Steady.trans (Steady.foldl (fun s va => s.fetched_steady c x.ten x.lid fresh va) _ s) (State.buffer_steady _ _ _ _ _ _)
            exact (hst c i).pc

theorem State.tryWait_snd (s : State) (c i : Nat) : (s.tryWait c i).2 = ((s.tryWait c i).1.seat c i).wait.isNone := rfl

theorem State.fetched_iss (s : State) (c ten lid : Nat) (fresh : Bool) (va : Nat) : (s.fetched c ten lid fresh va).iss = s.iss := by
  simp only [State.fetched, State.prefetchLine]
  split
  · rfl
  · split
    · split
      · exact (s.fillLine_memorySide _).iss
      · rfl
    all_goals rfl

theorem State.buffer_iss (s : State) (c ten va : Nat) (ws : List Word) (own : Bool) : (s.buffer c ten va ws own).iss = s.iss := by
  cases own <;> rfl

theorem State.tryBcw_iss (s : State) (c i : Nat) (b : Bcw) : (s.tryBcw c i b).1.iss = s.iss := by
  unfold State.tryBcw
  extract_lets took asked
  split
  · rfl
  · split
    · rfl
    · exact (State.semComplete_iss _ c _).trans rfl

theorem State.attempt_iss (hs : s.iss = none) (hw : (s.seat c i).wait = none) : (s.attempt c i fresh).1.iss = none := by
  unfold State.attempt
  split
  · exact hs
  · next x hx =>
    split
    · exact hs
    · rw [State.tryWait_of_none hw]
      simp only []
      split
      · exact hs
      · have hf : ((s.bundleAddrs c x.ten x.lid fresh (s.seat c i).pc.toNat).foldl (fun s va => s.fetched c x.ten x.lid fresh va) s).iss = none :=
          (foldl_keeps State.iss (fun s va => s.fetched_iss c x.ten x.lid fresh va) _ s).trans hs
        split
        · exact hf
        · have hb := fun va ws own b => (State.tryBcw_iss _ c i b).trans ((State.buffer_iss _ c x.ten va ws own).trans hf)
          split
          · next h => exact congrArg (fun p : State × Bool => p.1.iss) h ▸ hb ..
          · next h => exact congrArg (fun p : State × Bool => p.1.iss) h ▸ hb ..

/-- A step of a seat that makes a bundle issue has found no wait left, and its attempt's verdict was to issue. -/
theorem State.issueStep_issue {u : Issue} (hs : s.iss = none) (h : (s.issueStep c i fresh).iss = some u) :
    let s' := ((s.refresh c i).tryWait c i).1
    (s'.seat c i).wait = none ∧ ∃ u', (s'.attempt c i fresh).2 = .issue u' ∧ u = { u' with checked := true, sig0 := none } := by
  have absurdly {t : State} {p : Prop} (ht : t.iss = none) (h : t.iss = some u) : p := by
    rw [ht] at h
    exact absurd h (by simp)
  have hr : (s.refresh c i).iss = none := (s.refresh_iss c i).trans hs
  unfold State.issueStep at h
  split at h
  · exact absurdly hs h
  · have hsnd := (s.refresh c i).tryWait_snd c i
    generalize s.refresh c i = r at h hr hsnd ⊢
    dsimp only at h
    split at h
    · refine absurdly ?_ h
      exact (State.idle_iss _ c 1).trans hr
    · split at h
      · refine absurdly ?_ h
        exact (State.blockSeat_iss _ c i).trans hr
      · split at h
        · refine absurdly ?_ h
          exact (State.idle_iss _ c 1).trans hr
        · split at h
          · refine absurdly ?_ h
            exact (State.idle_iss _ c 1).trans hr
          · split at h
            · refine absurdly ?_ h
              exact (State.preemptNow_iss _ c i).trans hr
            · have ht := (r.tryWait_iss c i).trans hr
              split at h
              · next w hw =>
                rw [hw] at ht
                exact absurdly ((State.blockSeat_iss _ c i).trans ht) h
              · next w hw =>
                rw [hw] at ht ⊢
                split at h
                · refine absurdly ?_ h
                  exact State.takeDeferred_iss c i ht
                · have hwait : (w.seat c i).wait.isNone = true := by
                    rw [hw] at hsnd
                    exact hsnd.symm
                  have hkept : (w.attempt c i fresh).1.iss = none := State.attempt_iss ht (by simpa using hwait)
                  exact ⟨by simpa using hwait, State.carry_iss hkept h⟩

end

/-- Settles O5: of everything that a step of the core may do only the verdict to issue leaves a bundle being issued, and that verdict is given
to the decoding of the words fetched at the pc. -/
theorem issuedBundleIsTheDecodedOne : Obligations.IssuedBundleIsTheDecodedOne := by
  unfold Obligations.IssuedBundleIsTheDecodedOne
  intro s t c i fresh u hs hex hrun hu s'
  have hne : t ≠ s := fun h => by
    rw [h, hs] at hu
    cases hu
  have hex : execBundleIssue c fresh s = .next t := hex
  have hstill : s.coreStill c = false := by
    by_contra h
    rw [execBundleIssue, if_pos (Bool.not_eq_false _ ▸ h)] at hex
    exact hne (Host.Outcome.next.inj hex).symm
  rw [bundleIssue_of_running hstill hrun] at hex
  have hstep : t = ((s.settleSems c).arriveGears c).issueStep c i fresh := by
    have := Host.Outcome.next.inj hex
    split at this
    · exact absurd this.symm hne
    · exact this.symm
  rw [hstep] at hu
  obtain ⟨hw, u', hv, rfl⟩ := State.issueStep_issue (s := (s.settleSems c).arriveGears c) ((s.settleSems_iss c).trans hs) hu
  obtain ⟨x, ws, b, saved, eval, r, hx, hb, hpc, rfl⟩ := State.attempt_issue hw hv
  obtain ⟨hd, hlen⟩ := State.nextBundle_ok hb
  refine ⟨x, ws, b, hx, hb, hd, rfl, rfl, rfl, hpc, ?_, rfl⟩
  rw [← hlen, ← hpc]
  rfl

end Sys2Proof.Machine
end

section
/-! What the operations of a syllable leave of the seats (O58, O59): each puts its results on its own seat's list, and changes no register but
a hold latch. -/

namespace Sys2Proof.Machine

set_option Elab.async false

open Sys2Proof

/-! ## Results and traps under way -/

section
variable {c i : Nat}

theorem State.deferTrap_steady (s : State) (k j : Nat) (r : TrapRec) : Steady c i s (s.deferTrap k j r) := .modSeat s k j fun _ => .of_eq

theorem State.modAcc_steady (s : State) (k j id : Nat) (f : Acc → Acc) : Steady c i s (s.modSeat k j (fun t => t.modAcc id f)) :=
  .modSeat s k j fun _ => .of_eq

theorem State.dropAcc_steady (s : State) (k j id : Nat) : Steady c i s (s.modSeat k j (fun t => t.dropAcc id)) :=
  .modSeat s k j fun _ => .of_eq

theorem State.deliverBy_steady (s : State) (due seq pos : Nat) (dst : Option Reg) (val : Nat) :
    Steady c i s (s.deliverBy c i due seq pos dst val) :=
  .modSeat s c i fun _ => .of_own ⟨rfl, rfl⟩

theorem State.releaseSeat_steady (s : State) (k j : Nat) : Steady c i s (s.releaseSeat k j) := .of_cores (s.releaseSeat_cores k j)

theorem State.setEline_steady (s : State) (ten core t : Nat) (l : TLine) : Steady c i s (s.setEline ten core t l) :=
  .of_cores (s.setEline_cores ten core t l)

theorem State.heardFrom_steady (s : State) (me pa : Nat) : Steady c i s (s.heardFrom me pa) := .of_cores (s.heardFrom_cores me pa)

theorem State.applySig_steady (s : State) (g : Sig) : Steady c i s (s.applySig c i g) := by
  unfold State.applySig
  extract_lets r old m now f
  have hm : Steady c i s m := Steady.trans (State.releaseSeat_steady s c i) (.modCore r c fun _ => rfl)
  have hf : Steady c i m f := by
    cases hg : g.dst with
    | none =>
      simp only [f, hg]
      exact .refl m
    | some x =>
      simp only [f, hg]
      exact .modSeat m c i fun _ => .of_own ⟨rfl, rfl⟩
  split
  · exact (hm.trans hf).trans (State.deferTrap_steady f c i _)
  · exact hm.trans hf

theorem State.drainSigs_steady (s : State) (n : Nat) : Steady c i s (s.drainSigs c i n) := by
  induction n generalizing s with
  | zero => exact .refl s
  | succ n ih =>
    simp only [State.drainSigs]
    split
    · exact .refl s
    · split
      · refine Steady.trans (Steady.trans ?_ (State.applySig_steady _ _)) (ih _)
        exact .modSeat s c i fun _ => .of_eq
      · exact .refl s

theorem State.settle_steady (s : State) : Steady c i s (s.settle c i) := s.drainSigs_steady _

end

section
variable (s : State) (u : Issue)

theorem State.fly_steady (pos lat : Nat) (dst : Option Reg) (val fl : Nat) (fixed fpu : Bool) :
    Steady u.core u.seat s (s.fly u pos lat dst val fl fixed fpu) :=
  .modSeat s _ _ fun _ => .of_own ⟨rfl, rfl⟩

theorem State.result_steady (pos lat : Nat) (f : File) (n val : Nat) : Steady u.core u.seat s (s.result u pos lat f n val) :=
  s.fly_steady u _ _ _ _ _ _ _

theorem State.resultVar_steady (pos lat : Nat) (f : File) (n val : Nat) : Steady u.core u.seat s (s.resultVar u pos lat f n val) :=
  s.fly_steady u _ _ _ _ _ _ _

theorem State.resultFpu_steady (pos lat : Nat) (f : File) (n val : Nat) : Steady u.core u.seat s (s.resultFpu u pos lat f n val) :=
  s.fly_steady u _ _ _ _ _ _ _

theorem State.resultFp_steady (pos lat : Nat) (dst : Option Reg) (val : Nat) (fls : List Nat) :
    Steady u.core u.seat s (s.resultFp u pos lat dst val fls) := by
  have hfly (fl : Nat) := s.fly_steady u pos lat dst val fl true true
  simp only [State.resultFp]
  split
  · exact hfly _
  · split
    · exact hfly _
    · exact (hfly _).trans (State.deferTrap_steady _ _ _ _)

theorem State.resultVec_steady (x : VW) (lat : Nat) (d : R11) (w : Nat) (rs : List FRes) :
    Steady u.core u.seat s (s.resultVec u x lat d w rs) := s.resultFp_steady u _ _ _ _ _

theorem State.signal_steady (g : Sig) : Steady u.core u.seat s (s.signal u g) :=
  Steady.trans (.modSeat s u.core u.seat fun _ => .of_eq) (State.settle_steady _)

theorem State.await_steady (w : PWait) : Steady u.core u.seat s (s.await u w) := .modSeat s _ _ fun _ => .of_eq

theorem State.ask_steady (k : Ctl) : Steady u.core u.seat s (s.ask k) := .of_cores rfl

theorem State.prefetch_steady (c ten lid va : Nat) : Steady u.core u.seat s (s.prefetch c ten lid va) := .of_cores (s.prefetch_cores c ten lid va)

/-- A capture changes a hold latch of its own seat (R24). -/
theorem State.capture_steady (x : VW) (k : Nat) (v : VSrc) (val : Vec) : Steady u.core u.seat s (s.capture u x k v val) := by
  cases v with
  | cap _ => exact .modSeat s _ _ fun _ => ⟨rfl, rfl, rfl, rfl, rfl, fun h => absurd ⟨rfl, rfl⟩ h⟩
  | reg _ => exact .refl s
  | latch => exact .refl s
  | fl => exact .refl s
  | ind _ _ => exact .refl s

theorem State.captures_steady (x : VW) (k : Nat) (src : List VSrc) (vs : List Vec) : Steady u.core u.seat s (s.captures u x k src vs) := by
  induction src generalizing s k vs with
  | nil => exact .refl s
  | cons v r ih =>
    cases vs with
    | nil => exact .refl s
    | cons a b => exact (s.capture_steady u x k v a).trans (ih _ _ b)

/-! ## Accesses sent -/

theorem State.pushAcc_steady (a : Acc) : Steady u.core u.seat s (s.pushAcc u a) := by
  refine Steady.trans (.modCore s u.core ?_) (.modSeat _ _ _ ?_)
  · exact fun _ => rfl
  · exact fun _ => .of_eq

theorem State.pushPool_steady (a : Acc) (pas : List Nat) (lat : Nat) : Steady u.core u.seat s (s.pushPool u a pas lat) := s.pushAcc_steady u _

theorem State.pushLanes_steady (a : Acc) (off stride : Int) : Steady u.core u.seat s (s.pushLanes u a off stride) := s.pushPool_steady u _ _ _

theorem State.pushHash_steady (kind : AccKind) (d c : R11) (keys vals : Nat) : Steady u.core u.seat s (s.pushHash u kind d c keys vals) :=
  s.pushPool_steady u _ _ _

theorem State.pushGlobal_steady (a : Acc) (m : Mode) : Steady u.core u.seat s (s.pushGlobal u a m) := by
  simp only [State.pushGlobal]
  split
  · exact s.pushAcc_steady u _
  · exact s.deferTrap_steady _ _ _
  · exact s.pushAcc_steady u _
  · exact s.pushAcc_steady u _

theorem State.sendHome_steady {c i : Nat} (s : State) (k j id : Nat) : Steady c i s (s.sendHome k j id) := by
  simp only [State.sendHome]
  split
  · exact .refl s
  · split
    · exact .refl s
    · split
      · exact .refl s
      · exact Steady.trans (.of_cores rfl) (State.modAcc_steady (s.nextSeq _ _).2 k j id _)

theorem State.pushAtom_steady (a : Acc) : Steady u.core u.seat s (s.pushAtom u a) := by
  simp only [State.pushAtom]
  split
  · split
    · exact s.deferTrap_steady _ _ _
    · exact (s.pushGlobal_steady u a 4).trans (State.sendHome_steady _ _ _ _)
  all_goals exact s.pushGlobal_steady u a 4

/-! ## The core's own units -/

theorem State.modMx_steady (f : Matrix → Matrix) : Steady u.core u.seat s (s.modMx u f) := .modCore s _ fun _ => rfl

theorem State.bankOp_steady (m : Matrix) (lat b : Nat) (rows : Tab Vec) (fl : Nat) (fpu : Bool) :
    Steady u.core u.seat s (s.bankOp u m lat b rows fl fpu) := by
  refine Steady.trans (.modCore s u.core ?_) (State.fly_steady _ u _ _ _ _ _ _ _)
  exact fun _ => rfl

theorem State.bankMod_steady (b : Nat) (f : Tab Vec → Tab Vec) : Steady u.core u.seat s (s.bankMod u b f) := s.bankOp_steady u _ _ _ _ _ _

theorem State.beat_steady (m : Matrix) (lat : Nat) (acts ends : Bool) (terms : Nat → List (FVal × List FVal)) :
    Steady u.core u.seat s (s.beat u m lat acts ends terms) := s.bankOp_steady u _ _ _ _ _ _

theorem State.sparseBeat_steady (a b : Nat) (guard : Bool) : Steady u.core u.seat s (s.sparseBeat u a b guard) := by
  unfold State.sparseBeat
  extract_lets m fa t nb
  split
  exact s.beat_steady u _ _ _ _ _

theorem State.issueCmd_steady (t : Nat) : Steady u.core u.seat s (s.issueCmd u t).2 :=
  Steady.trans (s.setEline_steady _ _ _ _) (State.releaseSeat_steady _ _ _)

theorem State.issueUnit_steady (op : UnitOp) (a b c : Word) (dst : Option Reg) : Steady u.core u.seat s (s.issueUnit u op a b c dst) := by
  refine Steady.trans (s.issueCmd_steady u 9) (.modCore _ _ ?_)
  exact fun _ => rfl

theorem State.issueIdx_steady (op : Nat) (gr : Gran) (a c : R11) (data : Nat) : Steady u.core u.seat s (s.issueIdx u op gr a c data) := by
  unfold State.issueIdx
  refine Steady.trans (Steady.trans (s.issueCmd_steady u 8) ?_) (.modCore _ _ ?_)
  rotate_left
  · exact fun _ => rfl
  · split
    · exact State.setEline_steady _ _ _ _ _
    · exact .refl _

theorem State.dropLocalTlb_steady (c ten base n : Nat) : Steady u.core u.seat s (s.dropLocalTlb c ten base n) := by
  refine Steady.trans (.of_cores (State.modDie_cores s _ _)) (.modCore _ _ ?_)
  exact fun _ => rfl

theorem State.csrWrite_steady (n : Nat) (v : Word) :
    Steady u.core u.seat s ((s.modSeat u.core u.seat (fun t => t.csrWrite n v)).modCore u.core (fun k => k.csrWrite n v)) := by
  refine Steady.trans (.modSeat s _ _ ?_) (.modCore _ _ ?_)
  · intro t
    simp only [Seat.csrWrite]
    (repeat' split) <;> exact .of_eq
  · intro k
    simp only [Core.csrWrite]
    (repeat' split) <;> rfl

end

end Sys2Proof.Machine
end

section
/-! What the accesses that act at issue, and a command counted on its COMPL timeline, leave of the seats (O59). -/

namespace Sys2Proof.Machine

set_option Elab.async false

open Sys2Proof

/-! ## Errors and the timelines in memory -/

section
variable (s : State)

theorem State.postAt_cores (die ty ten place : Nat) : (s.postAt die ty ten place).cores = s.cores := State.modDie_cores s _ _

theorem State.consumeAt_cores (ten lid cls agent pa va : Nat) : (s.consumeAt ten lid cls agent pa va).cores = s.cores := by
  have hc : (s.consume ten lid cls agent pa va).cores = s.cores := by
    simp only [State.consume]
    split
    · rfl
    · split <;> exact State.setTenancy_cores _ _ _
  simp only [State.consumeAt]
  split
  · exact (State.postAt_cores _ _ _ _ _).trans hc
  · exact hc

theorem State.agentConsume_cores (agent : Option Nat) (ten lid cls pa va : Nat) : (s.agentConsume agent ten lid cls pa va).cores = s.cores := by
  cases agent with
  | some a => exact s.consumeAt_cores ten lid cls a pa va
  | none => exact State.consumeAt_cores _ ten lid cls _ pa va

theorem State.fixTable_cores (d off : Nat) : (s.fixTable d off).cores = s.cores := by
  simp only [State.fixTable]
  split
  · split
    · rfl
    · exact ((State.modDie_cores _ _ _).trans (State.postAt_cores _ _ _ _ _)).trans (s.rewriteSector_memorySide _ _).cores
  · exact s.fillLine_cores _

theorem State.agentWalks_cores (ten va n : Nat) : (s.agentWalks ten va n).cores = s.cores := by
  simp only [State.agentWalks]
  split
  · rfl
  · exact foldl_keeps State.cores (fun s k => foldl_keeps State.cores (State.fixTable_cores · 0) _ s) _ s

theorem State.agentStore_cores (agent : Option Nat) (ten lid va n val : Nat) : (s.agentStore agent ten lid va n val).cores = s.cores := by
  simp only [State.agentStore]
  have hw := s.agentWalks_cores ten va n
  split
  · exact (((State.partsFill_memorySide _ _).trans (State.partsStore_memorySide _ _ _)).cores).trans hw
  · exact hw
  · exact (State.agentConsume_cores _ _ _ _ _ _ _).trans hw
  · exact hw

theorem State.writeQline_cores (ten h : Nat) : (s.writeQline ten h).cores = s.cores := by
  simp only [State.writeQline]
  split
  · exact State.modTenancy_cores _ _ _
  · exact ((State.agentStore_cores _ _ _ _ _ _ _).trans (State.agentStore_cores _ _ _ _ _ _ _)).trans (State.modTenancy_cores _ _ _)

theorem State.noteQueues_cores (ten : Nat) : (s.noteQueues ten).cores = s.cores := by
  simp only [State.noteQueues, State.modTenancy_cores]

theorem State.putQline_cores (ten h : Nat) (l : TLine) : (s.putQline ten h l).cores = s.cores :=
  (State.writeQline_cores _ ten h).trans (State.modTenancy_cores s _ _)

theorem State.setQline_cores (ten h : Nat) (l : TLine) : (s.setQline ten h l).cores = s.cores :=
  (State.noteQueues_cores _ ten).trans (s.putQline_cores ten h l)

theorem State.issueCompl_cores (ten h : Nat) : (s.issueCompl ten h).2.cores = s.cores := by
  simp only [State.issueCompl]
  split
  · rfl
  · exact s.setQline_cores _ _ _

theorem State.issueCopy_steady (u : Issue) (ch : Nat) (d : R11) (x : CopyCmd) : Steady u.core u.seat s (s.issueCopy u ch d x) := by
  unfold State.issueCopy
  have hcmd := s.issueCmd_steady u ch
  generalize s.issueCmd u ch = p at hcmd ⊢
  obtain ⟨n, s₁⟩ := p
  have hcompl : Steady u.core u.seat s₁ (s₁.issueCompl x.ten x.handle).2 := .of_cores (s₁.issueCompl_cores _ _)
  dsimp -zeta only []
  generalize s₁.issueCompl x.ten x.handle = q at hcompl ⊢
  obtain ⟨cn, s₂⟩ := q
  dsimp -zeta only []
  extract_lets res s₃ y
  have hring : Steady u.core u.seat s₂ s₃ := by
    simp only [s₃]
    generalize res = r
    split
    · exact .refl s₂
    · exact s₂.modMx_steady u _
  refine ((hcmd.trans hcompl).trans hring).trans (Steady.trans (.modCore s₃ u.core ?_) (State.resultVar_steady _ u _ _ _ _ _))
  exact fun _ => rfl

end

/-! ## Accesses that perform -/

section
variable {c i : Nat}

theorem State.endAcc_steady (s : State) (a : Acc) : Steady c i s (s.endAcc c i a) := by
  unfold State.endAcc
  extract_lets r t
  have hr : Steady c i s r := by
    simp only [r]
    split
    · exact s.releaseSeat_steady c i
    · exact .refl s
  exact ((hr.trans (r.heardFrom_steady _ _)).trans (State.dropAcc_steady t c i a.id)).trans (State.settle_steady _)

theorem State.refuseAcc_steady (s : State) (a : Acc) (h : Home) : Steady c i s (s.refuseAcc c i a h) := by
  have hdefer (r : TrapRec) (b : Acc) : Steady c i s ((s.deferTrap c i r).endAcc c i b) :=
    (s.deferTrap_steady c i r).trans (State.endAcc_steady _ b)
  have hconsume (ten lid cls agent pa va id : Nat) (f : Acc → Acc) :
      Steady c i s ((s.consumeAt ten lid cls agent pa va).modSeat c i (fun t => t.modAcc id f)) :=
    Steady.trans (.of_cores (s.consumeAt_cores ..)) (State.modAcc_steady _ c i id f)
  cases h with
  | ok => exact .refl s
  | silent =>
    simp only [State.refuseAcc]
    split
    · exact .refl s
    · exact s.modAcc_steady c i a.id _
  | lost _ => exact .refl s
  | retired => exact hdefer _ _
  | denied => exact hdefer _ _
  | poison cls pa => exact hconsume _ _ _ _ _ _ _ _
  | integrity pa => exact hconsume _ _ _ _ _ _ _ _

theorem State.loseAccess_steady (s : State) (m kind : Nat) (a : Acc) : Steady c i s (s.loseAccess c i m kind a) := by
  unfold State.loseAccess
  extract_lets l
  have hl : Steady c i s l := .modSeat s c i fun _ => .of_eq
  split
  · exact hl.trans (State.deferTrap_steady _ c i _)
  · exact hl

theorem State.acceptAcc_steady (s : State) (a : Acc) : Steady c i s (s.acceptAcc c i a) := by
  simp only [State.acceptAcc]
  split
  · exact .refl s
  · refine Steady.trans (Steady.trans (.of_cores ?_) (State.modAcc_steady { s with pkg := { s.pkg with accepts := s.pkg.accepts + 1 } } c i a.id _))
      (State.settle_steady _)
    rfl

theorem State.keepLanes_steady (s : State) (a : Acc) (data lanes : Nat) : Steady c i s (s.keepLanes c i a data lanes) :=
  s.modAcc_steady c i a.id _

theorem State.returnData_steady (s : State) (a : Acc) (v : Nat) : Steady c i s (s.returnData c i a v) :=
  (s.deliverBy_steady _ _ _ _ _).trans (State.endAcc_steady _ a)

theorem State.fillParts_cores (s : State) (pas : List Nat) : (s.fillParts pas).cores = s.cores := foldl_keeps State.cores State.fillLine_cores pas s

theorem State.performLoad_steady (s : State) (a : Acc) (sx : Bool) (lanes : Nat) : Steady c i s (s.performLoad c i a sx lanes) := by
  simp only [State.performLoad]
  split
  · have hf : Steady c i s (s.fillParts (laneParts lanes a.parts)) := .of_cores (s.fillParts_cores _)
    split
    · exact hf.trans (State.returnData_steady _ a _)
    · exact hf.trans (State.keepLanes_steady _ a _ _)
  · exact (s.loseAccess_steady _ 1 a).trans (State.returnData_steady _ a _)
  · exact s.refuseAcc_steady a _

theorem State.performStore_steady (s : State) (a : Acc) (lanes : Nat) : Steady c i s (s.performStore c i a lanes) := by
  simp only [State.performStore]
  split
  · have hw : Steady c i s (s.writeParts a.n a.key lanes a.parts a.data) := .of_cores (s.writeParts_cores ..)
    split
    · exact hw.trans (State.endAcc_steady _ a)
    · exact hw.trans (State.keepLanes_steady _ a _ _)
  · exact Steady.trans (.of_cores rfl) (State.endAcc_steady (s.dropStore _) a)
  · exact s.acceptAcc_steady a
  · exact s.refuseAcc_steady a _

theorem State.fixScales_steady (s : State) (a : Acc) : Steady c i s (s.fixScales c i a) := by
  simp only [State.fixScales]
  split
  · exact s.modAcc_steady c i a.id _
  · exact s.refuseAcc_steady a _

theorem State.probeSteps_cores (ten base h keys vals : Nat) (insert : Bool) (n : Nat) (s : State) (x : Probe) :
    (State.probeSteps ten base h keys vals insert n s x).1.cores = s.cores := by
  induction n generalizing s x with
  | zero => rfl
  | succ n ih =>
    have hstep : (s.probeStep base h keys vals insert x).1.cores = s.cores := by
      simp only [State.probeStep]
      split
      · rfl
      · split
        · split
          · exact s.store_cores ..
          · rfl
        · (repeat' split) <;> rfl
    simp only [State.probeSteps]
    split
    · rfl
    · split
      · exact (ih _ _).trans hstep
      · rfl

theorem State.performHash_steady (s : State) (a : Acc) (insert : Bool) (n : Nat) : Steady c i s (s.performHash c i a insert n) := by
  have hp := State.probeSteps_cores (s.ownerOf c i).1 (a.parts.headD 0) (Nat.log2 (a.n / 8)) a.data a.data2 insert n s a.probe
  simp only [State.performHash]
  split
  · exact Steady.trans (.of_cores hp) (State.returnData_steady _ a _)
  · exact (Steady.trans (.of_cores hp) (State.modAcc_steady _ c i a.id _)).trans (State.refuseAcc_steady _ a _)

theorem State.performWalk_steady (s : State) (a : Acc) (csr : Bool) : Steady c i s (s.performWalk c i a csr) := by
  simp only [State.performWalk]
  split
  · exact (s.deferTrap_steady c i _).trans (State.endAcc_steady _ a)
  · exact s.refuseAcc_steady a _
  · exact (((s.deliverBy_steady _ _ _ _ _).trans (State.deliverBy_steady _ _ _ _ _ _)).trans (State.deliverBy_steady _ _ _ _ _ _)).trans
      (State.endAcc_steady _ a)

theorem State.applyAtom_steady (s : State) (a : Acc) (op : AtOp) : Steady c i s (s.applyAtom c i a op) := by
  unfold State.applyAtom
  split
  · extract_lets pa
    have htake : (if placeOf pa = .host then s.takeFree else (0, s)).2.cores = s.cores := by split <;> rfl
    generalize (if placeOf pa = .host then s.takeFree else (0, s)) = p at htake
    obtain ⟨no, s₁⟩ := p
    have htaken : Steady c i s s₁ := .of_cores htake
    dsimp only
    split
    · exact (htaken.trans (s₁.deferTrap_steady c i _)).trans (State.endAcc_steady _ _)
    · generalize atomNew op (8 * a.n) (s₁.load pa a.n) a.data a.data2 = q
      refine htaken.trans (Steady.trans (Steady.trans ?_ (State.modAcc_steady _ c i a.id _)) (State.settle_steady _))
      have hrel : Steady c i s₁ (if a.rel = true then (s₁.store pa a.n a.key q.1).releaseSeat c i else s₁.store pa a.n a.key q.1) := by
        split
        · exact Steady.trans (.of_cores (s₁.store_cores ..)) (State.releaseSeat_steady _ c i)
        · exact .of_cores (s₁.store_cores ..)
      generalize (if a.rel = true then (s₁.store pa a.n a.key q.1).releaseSeat c i else s₁.store pa a.n a.key q.1) = r at hrel ⊢
      split
      · exact hrel
      · split
        · exact hrel.trans (.of_cores (State.keepReply_cores ..))
        · exact hrel
  · next m _ =>
    refine Steady.trans ?_ (State.modAcc_steady (s.takeFree.2.loseAccess c i m 2 a) c i a.id _)
    exact Steady.trans (.of_cores rfl) (s.takeFree.2.loseAccess_steady m 2 a)
  · exact (s.acceptAcc_steady a).trans (State.refuseAcc_steady _ a _)
  · exact s.refuseAcc_steady a _

theorem State.performFirst_steady (s : State) (a : Acc) : Steady c i s (s.performFirst c i a) := by
  cases h : a.kind with
  | load sx => simpa only [State.performFirst, h] using s.performLoad_steady a sx _
  | vload => simpa only [State.performFirst, h] using s.performLoad_steady a false _
  | xldp => simpa only [State.performFirst, h] using s.performLoad_steady a false _
  | atom op => simpa only [State.performFirst, h] using s.applyAtom_steady a op
  | xhash => simpa only [State.performFirst, h] using s.performHash_steady a false _
  | xins => simpa only [State.performFirst, h] using s.performHash_steady a true _
  | xwalk csr => simpa only [State.performFirst, h] using s.performWalk_steady a csr
  | store => simpa only [State.performFirst, h] using s.performStore_steady a _
  | vstore => simpa only [State.performFirst, h] using s.performStore_steady a _
  | sqld => simpa only [State.performFirst, h] using s.fixScales_steady a
  | launch => simpa only [State.performFirst, h] using Steady.refl s

theorem State.noteAt_cores (s : State) (ten lid idx : Nat) (m : Mode) (pa n : Nat) : (s.noteAt ten lid idx m pa n).cores = s.cores := by
  simp only [State.noteAt, State.noteBy]
  split
  · exact s.fillLine_cores pa
  all_goals rfl

theorem State.translated_steady (s : State) (a : Acc) (pa key cons : Nat) : Steady c i s (s.translated c i a pa key cons) := by
  have hdefer (r : TrapRec) (b : Acc) : Steady c i s ((s.deferTrap c i r).endAcc c i b) :=
    (s.deferTrap_steady c i r).trans (State.endAcc_steady _ b)
  unfold State.translated
  extract_lets who race lat noted t
  have ht : Steady c i s t := by
    refine Steady.trans ?_ (State.modAcc_steady noted c i a.id _)
    simp only [noted]
    split
    · exact .of_cores (s.noteAt_cores _ _ _ _ _ _)
    · exact .refl s
  split
  · exact hdefer _ _
  · exact hdefer _ _
  · split
    · exact ht.trans (State.sendHome_steady _ c i a.id)
    · exact ht

end

section
variable (s : State) (u : Issue)

theorem State.knowOwn_steady : Steady u.core u.seat s (s.knowOwn u) := by
  simp only [State.knowOwn]
  refine Steady.foldl (fun s a => ?_) _ s
  split
  · exact s.translated_steady a _ _ _
  all_goals exact .refl s

theorem State.actFirst_steady (parts : List (Int × Nat)) : Steady u.core u.seat s (s.actFirst u parts) := by
  have hstep (l : List Acc) (p : State × Bool) : Steady u.core u.seat p.1 (l.foldl (fun (p : State × Bool) a =>
      if p.2 && (p.1.seat u.core u.seat).mayActIn u.seq a && p.1.homeAcc none ((s.knowOwn u).who u).1 a a.parts != .silent then
        (p.1.performFirst u.core u.seat a, true)
      else (p.1, false)) p).1 := by
    induction l generalizing p with
    | nil => exact .refl p.1
    | cons a r ih =>
      refine Steady.trans ?_ (ih _)
      beta_reduce
      split
      · exact p.1.performFirst_steady a
      · exact .refl p.1
  unfold State.actFirst State.early
  exact (s.knowOwn_steady u).trans (hstep _ (s.knowOwn u, true))

end

end Sys2Proof.Machine
end

section
/-! What a syllable does when it issues, form by form (O58, O59): with its guard false nothing but its sources' captures, and with its guard true
what the operations of its form may do to the seats and to memory. -/

namespace Sys2Proof.Machine

set_option Elab.async false

open Sys2Proof

/-! ## A false guard -/

/-- Nothing but hold latches differs (R24). -/
structure LatchesOnly (s t : State) : Prop where
  state : t = { s with cores := t.cores }
  seat : ∀ c j, t.seat c j = { s.seat c j with regs := { (s.seat c j).regs with hl := (t.seat c j).regs.hl } }
  core : ∀ c, t.core c = { s.core c with seats := (t.core c).seats }

namespace LatchesOnly

theorem refl (s : State) : LatchesOnly s s := ⟨rfl, fun _ _ => rfl, fun _ => rfl⟩

theorem trans {s t r : State} (h : LatchesOnly s t) (h' : LatchesOnly t r) : LatchesOnly s r where
  state := h'.state.trans (congrArg (fun x : State => { x with cores := r.cores }) h.state)
  seat := fun c j =>
    (h'.seat c j).trans (congrArg (fun x : Seat => { x with regs := { x.regs with hl := (r.seat c j).regs.hl } }) (h.seat c j))
  core := fun c => (h'.core c).trans (congrArg (fun x : Core => { x with seats := (r.core c).seats }) (h.core c))

theorem captures (s : State) (u : Issue) (x : VW) (k : Nat) (src : List VSrc) (vs : List Vec) : LatchesOnly s (s.captures u x k src vs) := by
  have hone (s : State) (k : Nat) (v : VSrc) (val : Vec) : LatchesOnly s (s.capture u x k v val) := by
    cases v with
    | cap _ =>
      refine ⟨rfl, fun c j => ?_, fun c => ?_⟩
      · simp only [State.capture, State.seat_modSeat]
        split
        · next h =>
          obtain ⟨rfl, rfl⟩ := h
          rfl
        · rfl
      · obtain ⟨se, h⟩ := s.core_modSeat_frame u.core u.seat
          (fun t => { t with regs := { t.regs with hl := tset t.regs.hl 0 (vwLatch x k) val } }) c
        simp only [State.capture, h]
    | reg _ => exact refl s
    | latch => exact refl s
    | fl => exact refl s
    | ind _ _ => exact refl s
  induction src generalizing s k vs with
  | nil => exact refl s
  | cons v r ih =>
    cases vs with
    | nil => exact refl s
    | cons a b => exact (hone s k v a).trans (ih _ _ b)

end LatchesOnly

/-- A syllable with a false guard has done its part (R11, R24): nothing but a hold latch differs, and a branch-class form asks for its delay
bundles. -/
def Rests (s : State) (u : Issue) (t : State) : Prop := LatchesOnly s t ∨ t = { s with iss := some { u with ctl := .branch none } }

/-! ## What a form's syllable may do -/

/-- A syllable with a guard does nothing without a bundle being issued; with one it changes of the seats what a syllable of an issued bundle may
change, and no memory where that is said; with its guard false it rests. -/
structure Issues (calm : Prop) (s : State) (g : Guard) (o : Host.Outcome State Fault Refusal) : Prop where
  idle : s.iss = none → o = .next s
  acts : ∀ u, s.iss = some u → ∃ t, o = .next t ∧ (calm → t.mem = s.mem) ∧ (u.checked = true → Steady u.core u.seat s t)
  rests : ∀ u, s.iss = some u → s.guard u g = false → ∃ t, o = .next t ∧ Rests s u t

theorem onIssue_of_none {s : State} (k : Issue → State) (h : s.iss = none) : onIssue s k = .next s := by rw [onIssue, h]

/-- Whatever a syllable's checks find, memory stays when its effect leaves it. -/
theorem gate_mem {p : Pre} {s : State} {u : Issue} {k : State → State} (h : (k s).mem = s.mem) : (gate p s u k).mem = s.mem := by
  simp only [gate]
  split <;> simp [h]

section
variable {calm : Prop} {s : State} {g : Guard}

theorem onIssue_issues {k : Issue → State} (hm : calm → ∀ u, (k u).mem = s.mem) (hs : ∀ u, u.checked = true → Steady u.core u.seat s (k u))
    (hr : ∀ u, s.guard u g = false → Rests s u (k u)) : Issues calm s g (onIssue s k) where
  idle := onIssue_of_none k
  acts := fun u hu => ⟨k u, onIssue_of k hu, fun h => hm h u, hs u⟩
  rests := fun u hu hg => ⟨k u, onIssue_of k hu, hr u hg⟩

/-- What a form's effect may do in a state: leave memory, where that is said, and of the seats what a syllable may not change. -/
def Does (calm : Prop) (u : Issue) (s t : State) : Prop := (calm → t.mem = s.mem) ∧ Steady u.core u.seat s t

theorem simple_issues {k : Issue → State} (h : ∀ u, Does calm u s (k u)) : Issues calm s g (simple s g k) := by
  refine onIssue_issues (fun hc u => ?_) (fun u _ => ?_) (fun u hg => ?_)
  · split
    · exact (h u).1 hc
    · rfl
  · split
    · exact (h u).2
    · exact .refl s
  · rw [if_neg (by simp [hg])]
    exact .inl (.refl s)

theorem guarded_issues {pre : Issue → Pre} {k : Issue → State → State} (h : ∀ u, Does calm u s (k u s)) :
    Issues calm s g (guarded s g pre k) := by
  refine onIssue_issues (fun hc u => ?_) (fun u hu => ?_) (fun u hg => ?_)
  · split
    · exact gate_mem ((h u).1 hc)
    · rfl
  · split
    · rw [gate_of_passes _ (.inl hu)]
      exact (h u).2
    · exact .refl s
  · rw [if_neg (by simp [hg])]
    exact .inl (.refl s)

theorem vecForm_issues {x : VW} {src : List VSrc} {k : Issue → List Vec → State → State} (h : ∀ u vs s', Does calm u s' (k u vs s')) :
    Issues calm s g (vecForm s g x src k) := by
  refine onIssue_issues (fun hc u => ?_) (fun u _ => ?_) (fun u hg => ?_) <;> dsimp only
  · split
    · rw [(h u _ _).1 hc, State.captures_mem]
    · exact State.captures_mem ..
  · have hcap := s.captures_steady u x 0 src (s.vsrcs u x 0 src)
    split
    · exact hcap.trans (h u _ _).2
    · exact hcap
  · rw [if_neg (by simp [hg])]
    exact .inl (.captures s u x 0 src _)

theorem vElem_issues {x : VW} {t : FT} {lat : Nat} {d : R11} {src : List VSrc} {k : FFmt → Bool → Nat → Nat → Nat → FRes} :
    Issues calm s g (vElem s g x t lat d src k) := by
  unfold vElem
  exact vecForm_issues fun u vs s' => ⟨fun _ => s'.resultVec_mem .., s'.resultVec_steady u _ _ _ _ _⟩

theorem vPlain_issues {x : VW} {lat : Nat} {d : R11} {src : List VSrc} {k : List Vec → Nat} : Issues calm s g (vPlain s g x lat d src k) := by
  unfold vPlain
  exact vecForm_issues fun u vs s' => ⟨fun _ => s'.resultFpu_mem .., s'.resultFpu_steady u _ _ _ _ _⟩

theorem vInt_issues {x : VW} {w : IW} {d : R11} {a b : VSrc} {k : Nat → Nat → Nat → Nat} : Issues calm s g (vInt s g x w d a b k) := by
  unfold vInt
  exact vPlain_issues

theorem vBits_issues {x : VW} {d : R11} {a b : VSrc} {k : Vec → Vec → Vec} : Issues calm s g (vBits s g x d a b k) := by
  unfold vBits
  exact vPlain_issues

theorem vApprox_issues {x : VW} {t : FT} {form : Nat} {d : R11} {a : VSrc} : Issues calm s g (vApprox s g x t form d a) := by
  unfold vApprox
  exact vElem_issues

theorem vCmpPred_issues {x : VW} {t : FT} {d : R11} {a b : VSrc} {cc : R11} {k : List Bool → Bool} :
    Issues calm s g (vCmpPred s g x t d a b cc k) := by
  unfold vCmpPred
  exact vecForm_issues fun u vs s' => ⟨fun _ => s'.resultFpu_mem .., s'.resultFpu_steady u _ _ _ _ _⟩

/-- A branch-class form asks whatever its guard is, with no target under a false one (R26). -/
theorem branchForm_issues {k : Issue → Option Word} (hk : ∀ u, s.guard u g = false → k u = none) : Issues calm s g (branchForm s k) where
  idle := onIssue_of_none _
  acts := fun u hu => ⟨_, onIssue_of _ hu, fun _ => s.ask_mem _, fun _ => s.ask_steady u _⟩
  rests := fun u hu hg => ⟨_, onIssue_of _ hu, .inr (by rw [ask_of _ hu, hk u hg])⟩

theorem callForm_issues {d : R11} {k : Issue → Word} : Issues calm s g (callForm s g d k) where
  idle := onIssue_of_none _
  acts := fun u hu => by
    refine ⟨_, onIssue_of _ hu, fun _ => ?_, fun hc => ?_⟩
    · split
      · exact gate_mem ((State.ask_mem _ _).trans (s.result_mem ..))
      · exact s.ask_mem _
    · split
      · rw [gate_of_passes _ (.inl hc)]
        exact (s.result_steady u _ _ _ _ _).trans (State.ask_steady _ u _)
      · exact s.ask_steady u _
  rests := fun u hu hg => ⟨_, onIssue_of _ hu, .inr (by rw [if_neg (by simp [hg]), ask_of _ hu])⟩

theorem boardForm_issues {k : Issue → State} (h : ∀ u, Does calm u s (k u)) : Issues calm s g (boardForm s g k) := by
  refine simple_issues fun u => ?_
  split
  · exact h u
  · exact ⟨fun _ => rfl, .refl s⟩

end

/-! ## Every form -/

/-- A syllable that stores nothing at issue and makes no earlier access act. -/
def Calm (i : Instr) (g : Guard) : Prop := ∀ d a b c, i ≠ .copy g d a b ∧ i ≠ .copyp g d a b ∧ i ≠ .macc g a b ∧ i ≠ .maccZg g a b ∧
  i ≠ .maccs g a b ∧ i ≠ .mpush g d a b c

/-- A syllable that does nothing to the array under a false guard. -/
def Skips (i : Instr) (g : Guard) : Prop := ∀ a b, i ≠ .macc g a b ∧ i ≠ .maccZg g a b ∧ i ≠ .maccs g a b ∧ i ≠ .mdrain g a b

theorem exec_issues (s : State) (i : Instr) (g : Guard) (hg : guardOf i = some g) (hn : Skips i g) : Issues (Calm i g) s g (exec i s) := by
  cases i with
  | br _ _ | jmp _ _ | ret _ _ =>
    cases hg
    exact branchForm_issues fun u hu => by simp only [hu, Bool.false_eq_true, if_false]
  | brq _ _ _ _ =>
    cases hg
    exact branchForm_issues fun u hu => by simp only [hu, Bool.false_and, Bool.false_eq_true, if_false]
  | call _ _ _ | calli _ _ _ =>
    cases hg
    exact callForm_issues
  | suspend _ _ _ | yield _ | halt _ | tret _ =>
    cases hg
    exact guarded_issues fun u => ⟨fun _ => s.ask_mem .., s.ask_steady u _⟩
  | trap _ _ | brk _ =>
    cases hg
    exact simple_issues fun u => ⟨fun _ => s.ask_mem .., s.ask_steady u _⟩
  | add _ _ _ _ _ | sub _ _ _ _ _ | mul _ _ _ _ _ | mulh _ _ _ _ _ | mulhu _ _ _ _ _ | and _ _ _ _ _ | or _ _ _ _ _ | xor _ _ _ _ _
    | andn _ _ _ _ _ | shl _ _ _ _ _ | shr _ _ _ _ _ | sar _ _ _ _ _ | rot _ _ _ _ _ | min _ _ _ _ _ | max _ _ _ _ _ | minu _ _ _ _ _
    | maxu _ _ _ _ _ | addi _ _ _ _ _ | clz _ _ _ _ | popc _ _ _ _ | bfx _ _ _ _ _ _ | bfi _ _ _ _ _ _ | li _ _ _ _ | sel _ _ _ _ _ _
    | cmp _ _ _ _ _ _ =>
    cases hg
    exact simple_issues fun u => ⟨fun _ => s.result_mem .., s.result_steady u _ _ _ _ _⟩
  | kmov _ _ _ _ _ | kvec _ _ _ _ _ | kext _ _ _ _ _ _ | kins _ _ _ _ _ _ | kbc _ _ _ _ _ | eli _ _ _ | eadd _ _ _ _ | emov _ _ _
    | ringsetRd _ _ _ | xadd _ _ _ _ | xmul _ _ _ _ | xand _ _ _ _ | xshl _ _ _ _ | xshr _ _ _ _ =>
    cases hg
    exact simple_issues fun u => ⟨fun _ => s.result_mem .., s.result_steady u _ _ _ _ _⟩
  | csrrd _ _ _ | bviewWord _ _ _ _ =>
    cases hg
    exact guarded_issues fun u => ⟨fun _ => s.result_mem .., s.result_steady u _ _ _ _ _⟩
  | tlrd _ _ _ _ | tlrdErr _ _ _ _ =>
    cases hg
    exact simple_issues fun u => ⟨fun _ => s.resultVar_mem .., s.resultVar_steady u _ _ _ _ _⟩
  | fadd _ _ _ _ _ _ | fsub _ _ _ _ _ _ | fmul _ _ _ _ _ _ | fdiv _ _ _ _ _ _ | fmin _ _ _ _ _ | fmax _ _ _ _ _ | fsqrt _ _ _ _ _
    | frsq _ _ _ _ _ | fabs _ _ _ _ | fneg _ _ _ _ | ffma _ _ _ _ _ _ _ | fcvt _ _ _ _ _ _ =>
    cases hg
    exact simple_issues fun u => ⟨fun _ => s.resultFp_mem .., s.resultFp_steady u _ _ _ _ _⟩
  | fcmp _ _ _ _ _ _ | fclass _ _ _ _ _ | fsel _ _ _ _ _ | fli _ _ _ | fliHi _ _ _ | vsetxAdd _ _ _ _ _ | vsetxLi _ _ _ _ =>
    cases hg
    exact simple_issues fun u => ⟨fun _ => s.resultFpu_mem .., s.resultFpu_steady u _ _ _ _ _⟩
  | vadd _ _ _ _ _ _ _ | vsub _ _ _ _ _ _ _ | vmul _ _ _ _ _ _ _ | vfma _ _ _ _ _ _ _ _ | vfms _ _ _ _ _ _ _ _ | vmulZg _ _ _ _ _ _ _
    | vfmaZg _ _ _ _ _ _ _ _ | vfmsZg _ _ _ _ _ _ _ _ | vmin _ _ _ _ _ _ | vmax _ _ _ _ _ _ | vabs _ _ _ _ _ | vneg _ _ _ _ _ =>
    cases hg
    dsimp only [exec]
    exact vElem_issues
  | vsel _ _ _ _ _ _ _ | vperm _ _ _ _ _ _ | vbcast _ _ _ _ _ _ | vrotl _ _ _ _ _ | vidx _ _ _ _ _ =>
    cases hg
    dsimp only [exec]
    exact vPlain_issues
  | viadd _ _ _ _ _ _ | vimul _ _ _ _ _ _ | vshl _ _ _ _ _ _ | vshr _ _ _ _ _ _ =>
    cases hg
    dsimp only [exec]
    exact vInt_issues
  | vand _ _ _ _ _ | vor _ _ _ _ _ | vxor _ _ _ _ _ =>
    cases hg
    dsimp only [exec]
    exact vBits_issues
  | vexp2 _ _ _ _ _ | vlog2 _ _ _ _ _ | vrcp _ _ _ _ _ | vrsq _ _ _ _ _ =>
    cases hg
    dsimp only [exec]
    exact vApprox_issues
  | vcmpAny _ _ _ _ _ _ _ | vcmpAll _ _ _ _ _ _ _ =>
    cases hg
    dsimp only [exec]
    exact vCmpPred_issues
  | vdot _ _ _ _ _ _ _ _ | vred _ _ _ _ _ _ | vscan _ _ _ _ _ _ =>
    cases hg
    dsimp only [exec]
    exact vecForm_issues fun u vs s' => ⟨fun _ => s'.resultVec_mem .., s'.resultVec_steady u _ _ _ _ _⟩
  | vcmp _ _ _ _ _ _ _ | vsetx _ _ _ _ _ =>
    cases hg
    dsimp only [exec]
    exact vecForm_issues fun u vs s' => ⟨fun _ => s'.resultFpu_mem .., s'.resultFpu_steady u _ _ _ _ _⟩
  | vcvt _ _ _ _ _ _ _ =>
    cases hg
    dsimp only [exec]
    exact vecForm_issues fun u vs s' => ⟨fun _ => s'.resultFp_mem .., s'.resultFp_steady u _ _ _ _ _⟩
  | ldg _ _ _ _ _ _ | ldga _ _ _ _ _ _ | stg _ _ _ _ _ | stgl _ _ _ _ _ _ | launch _ _ _ _ =>
    cases hg
    exact guarded_issues fun u => ⟨fun _ => s.pushGlobal_mem .., s.pushGlobal_steady u _ _⟩
  | ldp _ _ _ _ _ _ | ldpa _ _ _ _ _ _ | stp _ _ _ _ _ | stpl _ _ _ _ _ _ | sqld _ _ _ _ | vstp _ _ _ _ _ _ | xldp _ _ _ _ | shdr _ _ _
    | shdrW _ _ _ | xwalk _ _ _ _ _ =>
    cases hg
    exact guarded_issues fun u => ⟨fun _ => s.pushPool_mem .., s.pushPool_steady u _ _ _⟩
  | apadd _ _ _ _ _ _ | apincw _ _ _ _ _ _ | apaddb _ _ _ _ _ _ _ | apcas _ _ _ _ _ _ _ | apxch _ _ _ _ _ _ | apmin _ _ _ _ _ _
    | apmax _ _ _ _ _ _ | apfadd _ _ _ _ _ _ =>
    cases hg
    exact guarded_issues fun u => ⟨fun _ => s.pushPool_mem .., s.pushPool_steady u _ _ _⟩
  | vldp _ _ _ _ _ _ | vldps _ _ _ _ _ _ =>
    cases hg
    exact guarded_issues fun u => ⟨fun _ => s.pushLanes_mem .., s.pushLanes_steady u _ _ _⟩
  | xhash _ _ _ _ | xins _ _ _ _ _ =>
    cases hg
    exact guarded_issues fun u => ⟨fun _ => s.pushHash_mem .., s.pushHash_steady u _ _ _ _ _⟩
  | agadd _ _ _ _ _ _ | agincw _ _ _ _ _ _ | agaddb _ _ _ _ _ _ _ | agcas _ _ _ _ _ _ _ | agxch _ _ _ _ _ _ | agmin _ _ _ _ _ _
    | agmax _ _ _ _ _ _ | agand _ _ _ _ _ _ | agor _ _ _ _ _ _ | agxor _ _ _ _ _ _ | agfadd _ _ _ _ _ _ =>
    cases hg
    exact guarded_issues fun u => ⟨fun _ => s.pushAtom_mem .., s.pushAtom_steady u _⟩
  | pref _ _ _ _ =>
    cases hg
    exact simple_issues fun u => ⟨fun _ => s.prefetch_mem .., s.prefetch_steady u _ _ _ _⟩
  | vpopq _ _ _ =>
    cases hg
    refine guarded_issues fun u => ⟨fun _ => rfl, Steady.trans (.modSeat s _ _ ?_) (State.fly_steady _ u _ _ _ _ _ _ _)⟩
    exact fun _ => .of_eq
  | csrwr _ _ _ =>
    cases hg
    exact simple_issues fun u => ⟨fun _ => rfl, s.csrWrite_steady u _ _⟩
  | semsig _ _ _ _ _ =>
    cases hg
    exact simple_issues fun u => ⟨fun _ => s.signal_mem .., s.signal_steady u _⟩
  | semwait _ _ _ | phase _ _ | cwait _ _ _ _ =>
    cases hg
    exact simple_issues fun u => ⟨fun _ => s.await_mem .., s.await_steady u _⟩
  | icflush _ _ _ | barr _ _ _ =>
    cases hg
    exact guarded_issues fun u => ⟨fun _ => s.await_mem .., s.await_steady u _⟩
  | tlbinv _ _ _ =>
    cases hg
    exact guarded_issues fun u => ⟨fun _ => rfl, (s.dropLocalTlb_steady u _ _ _ _).trans (State.await_steady _ u _)⟩
  | fence _ _ _ =>
    cases hg
    refine guarded_issues fun u => ?_
    split
    · exact ⟨fun _ => s.releaseSeat_mem _ _, s.releaseSeat_steady _ _⟩
    · exact ⟨fun _ => rfl, .refl s⟩
  | tlrdErrc _ _ _ _ =>
    cases hg
    exact simple_issues fun u => ⟨fun _ => rfl, (s.setEline_steady _ _ _ _).trans (State.resultVar_steady _ u _ _ _ _ _)⟩
  | bpost _ _ _ _ _ | bview _ _ _ | bread _ _ _ _ _ =>
    cases hg
    exact boardForm_issues fun u => ⟨fun _ => rfl, (s.resultVar_steady u _ _ _ _ _).trans (State.resultVar_steady _ u _ _ _ _ _)⟩
  | badv _ _ _ _ =>
    cases hg
    exact boardForm_issues fun u => ⟨fun _ => s.resultVar_mem .., s.resultVar_steady u _ _ _ _ _⟩
  | strset _ _ _ _ | strtap _ _ _ _ =>
    cases hg
    exact simple_issues fun u => ⟨fun _ => s.modMx_mem .., s.modMx_steady u _⟩
  | ringsetGeom _ _ _ | ringsetAdvance _ _ _ | mcfg _ _ _ =>
    cases hg
    exact guarded_issues fun u => ⟨fun _ => s.modMx_mem .., s.modMx_steady u _⟩
  | mzero _ _ =>
    cases hg
    exact simple_issues fun u => ⟨fun _ => rfl, (s.bankMod_steady u _ _).trans (State.modMx_steady _ u _)⟩
  | mshift _ _ =>
    cases hg
    exact simple_issues fun u => ⟨fun _ => s.bankMod_mem .., s.bankMod_steady u _ _⟩
  | sprune _ _ _ _ | sprunet _ _ _ _ | sregrow _ _ _ _ | shdrCk _ _ | sexpand _ _ _ =>
    cases hg
    exact guarded_issues fun u => ⟨fun _ => s.issueUnit_mem .., s.issueUnit_steady u _ _ _ _ _⟩
  | scheck _ _ _ =>
    cases hg
    exact simple_issues fun u => ⟨fun _ => s.issueUnit_mem .., s.issueUnit_steady u _ _ _ _ _⟩
  | xpush _ _ _ _ | xscat _ _ _ _ _ | xscata _ _ _ _ _ =>
    cases hg
    exact guarded_issues fun u => ⟨fun _ => s.issueIdx_mem .., s.issueIdx_steady u _ _ _ _ _⟩
  | xpushNb _ _ _ _ _ | xscatNb _ _ _ _ _ _ | xscataNb _ _ _ _ _ _ =>
    cases hg
    refine guarded_issues fun u => ?_
    split
    · exact ⟨fun _ => s.result_mem .., s.result_steady u _ _ _ _ _⟩
    · exact ⟨fun _ => (State.result_mem ..).trans (s.issueIdx_mem ..), (s.issueIdx_steady u _ _ _ _ _).trans (State.result_steady _ u _ _ _ _ _)⟩
  | copy _ _ _ _ =>
    cases hg
    exact guarded_issues fun u => ⟨fun h => absurd rfl (h _ _ _ 0).1, s.issueCopy_steady u _ _ _⟩
  | copyp _ _ _ _ =>
    cases hg
    exact guarded_issues fun u => ⟨fun h => absurd rfl (h _ _ _ 0).2.1, (s.actFirst_steady u _).trans (State.issueCopy_steady _ u _ _ _)⟩
  | mpush _ _ _ _ _ =>
    cases hg
    refine guarded_issues fun u => ⟨fun h => absurd rfl (h _ _ _ _).2.2.2.2.2, ?_⟩
    split
    · exact (s.actFirst_steady u _).trans (State.bankOp_steady _ u _ _ _ _ _ _)
    · exact s.bankMod_steady u _ _
  | macc _ _ _ =>
    cases hg
    exact absurd rfl (hn _ _).1
  | maccZg _ _ _ =>
    cases hg
    exact absurd rfl (hn _ _).2.1
  | maccs _ _ _ =>
    cases hg
    exact absurd rfl (hn _ _).2.2.1
  | mdrain _ _ _ =>
    cases hg
    exact absurd rfl (hn _ _).2.2.2
  | _ => cases hg

/-- Settles O58: a false guard leaves of each form its sources' captures, or the branch bundle's request for its delay bundles. -/
theorem falseGuardHasNoEffect : Obligations.FalseGuardHasNoEffect := by
  unfold Obligations.FalseGuardHasNoEffect
  intro i g s u hg hu hguard hn
  obtain ⟨t, ht, h | rfl⟩ := (exec_issues s i g hg hn).rests u hu hguard
  · refine ⟨t, ht, ?_⟩
    have hcore {α : Type} (f : Core → α) (hf : ∀ k se, f { k with seats := se } = f k) (c : Nat) : f (t.core c) = f (s.core c) := by
      rw [h.core c, hf]
    have hstate {α : Type} (f : State → α) (hf : ∀ r cs, f { r with cores := cs } = f r) : f t = f s := by
      rw [h.state, hf]
    exact ⟨hstate State.mem fun _ _ => rfl, hstate State.dies fun _ _ => rfl, hstate State.tens fun _ _ => rfl,
      hstate State.launches fun _ _ => rfl, hstate State.lines fun _ _ => rfl, hstate State.pkg fun _ _ => rfl,
      .inl (hstate State.iss fun _ _ => rfl), fun c => ⟨h.seat c, hcore Core.mx (fun _ _ => rfl) c, hcore Core.sem (fun _ _ => rfl) c,
        hcore Core.now (fun _ _ => rfl) c, hcore Core.chans (fun _ _ => rfl) c, hcore Core.idx (fun _ _ => rfl) c,
        hcore Core.unit (fun _ _ => rfl) c⟩⟩
  · exact ⟨_, ht, rfl, rfl, rfl, rfl, rfl, rfl, .inr rfl, fun c => ⟨fun _ => rfl, rfl, rfl, rfl, rfl, rfl, rfl⟩⟩

/-! ## The array's forms, which act under either guard -/

section
variable {s t : State}

/-- What a syllable that does its part leaves: memory, where it is calm, and of the seats what it may not change. -/
def Frame (calm : Prop) (s t : State) : Prop := (calm → t.mem = s.mem) ∧ ∀ u, s.iss = some u → u.checked = true → Steady u.core u.seat s t

theorem Issues.frame {calm : Prop} {g : Guard} {o : Host.Outcome State Fault Refusal} (h : Issues calm s g o) (ht : o = .next t) :
    Frame calm s t := by
  cases hs : s.iss with
  | none =>
    obtain rfl := Host.Outcome.next.inj (ht.symm.trans (h.idle hs))
    exact ⟨fun _ => rfl, fun u _ _ => .refl _⟩
  | some u =>
    obtain ⟨t', ht', hm, hst⟩ := h.acts u hs
    obtain rfl := Host.Outcome.next.inj (ht.symm.trans ht')
    refine ⟨hm, fun u' hu' => ?_⟩
    obtain rfl := Option.some.inj (hs.symm.trans hu')
    exact hst

theorem gate_frame {calm : Prop} {pre : Issue → Pre} {k : Issue → State → State} (hm : calm → ∀ u, (k u s).mem = s.mem)
    (hs : ∀ u, Steady u.core u.seat s (k u s)) (ht : onIssue s (fun u => gate (pre u) s u (k u)) = .next t) : Frame calm s t := by
  cases hu : s.iss with
  | none =>
    obtain rfl := Host.Outcome.next.inj (ht.symm.trans (onIssue_of_none _ hu))
    exact ⟨fun _ => rfl, fun u _ _ => .refl _⟩
  | some u =>
    obtain rfl := Host.Outcome.next.inj (ht.symm.trans (onIssue_of _ hu))
    refine ⟨fun hc => gate_mem (hm hc u), fun u' hu' hc => ?_⟩
    obtain rfl := Option.some.inj (hu.symm.trans hu')
    rw [gate_of_passes _ (.inl hc)]
    exact hs u

/-- A beat of the array acts on its bank and puts its settling on the seat's list. -/
theorem maccForm_frame {g : Guard} {a b : R11} (ht : maccForm s g a b = .next t) : Frame False s t := by
  unfold maccForm at ht
  refine gate_frame (fun h => h.elim) (fun u => ?_) ht
  exact (s.actFirst_steady u _).trans (State.beat_steady _ u _ _ _ _ _)

theorem maccs_frame {g : Guard} {a b : R11} (ht : execMaccs g a b s = .next t) : Frame False s t := by
  unfold execMaccs at ht
  refine gate_frame (fun h => h.elim) (fun u => ?_) ht
  exact (s.actFirst_steady u _).trans (State.sparseBeat_steady _ u _ _ _)

theorem mdrain_frame {g : Guard} {d a : R11} (ht : execMdrain g d a s = .next t) : Frame True s t := by
  unfold execMdrain at ht
  refine gate_frame (fun _ u => ?_) (fun u => ?_) ht
  · dsimp only
    split
    · exact State.bankMod_mem ..
    · exact State.modMx_mem ..
  · dsimp only
    split
    · exact (s.modMx_steady u _).trans (State.bankMod_steady _ u _ _)
    · exact s.modMx_steady u _

/-- What every syllable leaves. -/
theorem exec_frame {i : Instr} {g : Guard} (hg : guardOf i = some g) (ht : exec i s = .next t) : Frame (Calm i g) s t := by
  by_cases hn : Skips i g
  · exact (exec_issues s i g hg hn).frame ht
  · have hform : ∃ a b, i = .macc g a b ∨ i = .maccZg g a b ∨ i = .maccs g a b ∨ i = .mdrain g a b := by
      by_contra h
      exact hn fun a b => ⟨fun hi => h ⟨a, b, .inl hi⟩, fun hi => h ⟨a, b, .inr (.inl hi)⟩, fun hi => h ⟨a, b, .inr (.inr (.inl hi))⟩,
        fun hi => h ⟨a, b, .inr (.inr (.inr hi))⟩⟩
    have hloud {calm : Prop} (h : Frame False s t) (hc : ¬calm) : Frame calm s t := ⟨fun h' => absurd h' hc, h.2⟩
    obtain ⟨a, b, rfl | rfl | rfl | rfl⟩ := hform
    · exact hloud (maccForm_frame ht) fun h => (h 0 a b 0).2.2.1 rfl
    · exact hloud (maccForm_frame ht) fun h => (h 0 a b 0).2.2.2.1 rfl
    · exact hloud (maccs_frame ht) fun h => (h 0 a b 0).2.2.2.2.1 rfl
    · have h := mdrain_frame ht
      exact ⟨fun _ => h.1 trivial, h.2⟩

end

/-- Settles O59: each form's operations at issue change of the seats what waits to land alone, and only COPY, COPYP and the reads at issue reach
memory. -/
theorem syllablesStoreAndWriteLater : Obligations.SyllablesStoreAndWriteLater := by
  unfold Obligations.SyllablesStoreAndWriteLater
  refine ⟨fun i g s t hg ht hcalm a => ?_, fun i g s t u hg hu hc ht c j => ?_⟩
  · rw [(exec_frame hg ht).1 hcalm]
  · obtain ⟨hregs, hpc, htrap, hdelay, htm, hother⟩ := (exec_frame hg ht).2 u hu hc c j
    exact ⟨hregs, hpc, htrap, hdelay, htm, fun h => hother (by omega)⟩

end Sys2Proof.Machine
end
